-- ==== Sys2Proof/Word.lean ====
section
/-!
DEFINITION. Word.lean: the register word and the byte.
-/
namespace Sys2Proof

/-- A register: 64 bits (R11). -/
abbrev Word := BitVec 64

/-- A byte of memory, of a descriptor or of a message; multi-byte fields are little-endian (R10). -/
abbrev Byte := BitVec 8

end Sys2Proof
end

