-- ==== Sys2Proof/Syntax.lean ====
section
/-!
DEFINITION. Syntax.lean: the commands of the hub, one constructor per row of the opcode table. Each docstring gives the
row's rule of spec/ and what the row says of it; the operands are what the command's sender or the event brings.
-/
namespace Sys2Proof

inductive Instr where
  /-- R11: A BAR0 write to a register that has no row of its own: applied by size and alignment rules, reserved bits ignored. -/
  | regWrite (fn off size value : Nat)
  /-- R34: A write of 1 to W1C status flags clears only those flags and leaves the companion counters unchanged. -/
  | w1cWrite (fn off size value : Nat)
  /-- R16: Every 10 µs each half sends STEM.BEAT with its restart count. -/
  | stemBeatSend (fromControl : Bool)
  /-- R16: Receipt of STEM.BEAT from the other half restarts the beat-loss timer. -/
  | stemBeat (fromControl : Bool) (count : Nat)
  /-- R16: With no beat for 100 µs, a half treats the other half as restarting. -/
  | stemBeatTimeout (ofControl : Bool)
  /-- R16: An uncorrectable stem word makes the link resynchronise and resend the message. -/
  | stemWordUe (ok : Bool)
  /-- R16: On STEM.FREEZE the data half enters the frozen state at once and answers with STEM.BEAT. -/
  | stemFreeze
  /-- R18: On STEM.RESUME the data half leaves the frozen state and dispatch restarts from the recorded doorbells. -/
  | stemResume
  /-- R456: A register read or write of a data-half block arrives over the stem link and is answered. -/
  | stemReg (write : Bool) (off size value : Nat)
  /-- R456: A dictionary value is pushed into a data-half block, or requested by it at data-half start. -/
  | stemDict (entry : Nat)
  /-- R544: A notice or fault record from the data half crosses the stem queue and is written by the control half in order. -/
  | stemNotice
  /-- R18: 500 ms after the last beat the data half freezes: no new reads or issue, clocks gated, watchdogs stopped. -/
  | rideThroughFreeze
  /-- R19: A returning control half resumes, resets or leaves frozen the data half, and carries out held work in arrival order. -/
  | ctlHalfReturn (cellBlows : Bool)
  /-- R520: A phase of the warm restart ends and the next begins, ending with READY and DATA_RESET_DONE. -/
  | warmRestartPhaseEnd (ms : Nat) (rimOk : Bool) (hbms : List (Nat × Nat × Nat × Nat)) (fails : List (List Nat)) (failed : List Nat)
  /-- R30: A write of HUB.CTL.DATA_RESET starts a data-half reset, unless the control half is down or policy forbids it. -/
  | hubCtlDataReset
  /-- R30: A write of HUB.CTL.CTL_RESTART restarts the control half. -/
  | hubCtlCtlRestart
  /-- R508: Power is applied and the cold boot phases begin. -/
  | coldPowerUp
  /-- R430: PERST# resets the endpoint core and, outside D3cold entry, kills all contexts and resets the data half. -/
  | perst (cool : Bool)
  /-- R430: A PCIe hot reset resets the endpoint core and the data half. -/
  | hotReset
  /-- R430: A PCIe link-down, including surprise removal, resets the endpoint core and the data half. -/
  | linkDown
  /-- R561: Supplies are lost without PWR_ON falling, and the next power-up is a cold boot. -/
  | powerLoss (aon : Bool)
  /-- R57: A doorbell write updates SQ_TAIL or CQ_HEAD, with stale, overrun and inactive-queue handling. -/
  | doorbellWrite (fn page slot : Nat) (sq cq : Option Nat)
  /-- R51: A NOP command observes its fence and wait, moves nothing, completes OK and posts. -/
  | cmdNop (ctx slot : Nat)
  /-- R51: A ROUTE command runs its inputs through the stations of its route into the output tile. -/
  | cmdRoute (ctx slot : Nat)
  /-- R221: RANGE.FLUSH writes back dirty guest sectors of a footprint and drops them in every station of the route. -/
  | rangeFlush (ctx slot : Nat)
  /-- R221: RANGE.CLEAN writes back dirty guest sectors of a footprint and keeps them clean. -/
  | rangeClean (ctx slot : Nat)
  /-- R221: RANGE.INVAL drops the sectors of a footprint, discarding dirty guest sectors unwritten. -/
  | rangeInval (ctx slot : Nat)
  /-- R53: The route entry, descriptors and parameter block of a command arrive and are checked. -/
  | cmdDescriptorRead (ctx slot : Nat)
  /-- R53: Every earlier command of the queue has completed, so a fenced command proceeds. -/
  | cmdFenceRelease (ctx slot : Nat)
  /-- R53: The acquire invalidation of a command's inputs completes in every station of the route. -/
  | cmdAcqInvalDone (ctx slot : Nat)
  /-- R63: Every footprint page of a command has translated, or a fault ends it TRANSLATION_FAULT. -/
  | cmdTranslationDone (ctx slot : Nat)
  /-- R64: A tile operation is issued when the scoreboard and queue limit allow and its page-extent ordering is met. -/
  | tileOpIssue (ctx slot : Nat)
  /-- R69: The hub pushes the next input flit of an operation when the station holds credits for it. -/
  | topRow (opid tcErr memErr : Nat) (hurt : List Nat)
  /-- R274: A push station returns an output flit, which is forwarded or written to the output tile. -/
  | topOut (house : Bool) (site opid row flit smask : Nat) (scale : Bool) (data : List Byte) (bad : List Nat) (form : Nat)
  /-- R69: A station returns input-window credits; excess credits are a firewall violation. -/
  | topCredit (site stn count form : Nat)
  /-- R70: A station reports an operation or range operation complete with OK, POISONED or station error. -/
  | topDone (house : Bool) (site stn opid status form : Nat)
  /-- R53: The last station's output flush of a FLUSH_OUT command completes. -/
  | cmdFlushDone (ctx slot : Nat)
  /-- R53: The completion record is acknowledged, after which the post and the MSI-X message follow. -/
  | cplRecordAck (ctx slot count : Nat)
  /-- R66: Every 1 µs the dispatcher retries registering a semaphore wait while the wait table is full. -/
  | waitTableRetry (ctx slot : Nat)
  /-- R62: A write of CTX.QSQ_BASE, CTX.QCQ_BASE or CTX.QCFG is taken only while the slot is FREE. -/
  | queueCfgWrite (ctx which value : Nat)
  /-- R62: CTX.QCTL.CREATE binds a queue number to the slot and makes it ACTIVE, or is refused. -/
  | queueCreate (ctx : Nat)
  /-- R62: CTX.QCTL.DESTROY stops issue and lets issued commands finish before freeing the queue number. -/
  | queueDestroy (ctx : Nat)
  /-- R62: The last issued command of a DRAINING queue ends and the queue number is freed. -/
  | queueDrained (ctx slot : Nat)
  /-- R62: CTX.QCTL.RESUME returns a HALTED queue to ACTIVE from RESUME_AT, with the overrun test. -/
  | queueResume (ctx : Nat)
  /-- R62: A PF write of CTX.ROUTE_WIN sets the route window, dropped if it exceeds 65,536 entries. -/
  | routeWinWrite (ctx base count : Nat)
  /-- R48: CTX.ROUTE_CTL.WRITE checks the slot images in fixed order and writes the route entry or refuses it. -/
  | routeWrite (ctx : Nat)
  /-- R62: CTX.ROUTE_CTL.READ loads a route entry into the slot images, or refuses an index outside the window. -/
  | routeRead (ctx : Nat)
  /-- R92: A crank computes C = A · W for a resident operation once its inputs are in the operand store. -/
  | crankMatmul (opid : Nat)
  /-- R98: A weight-register parity error reloads the set once; a second error poisons the band. -/
  | crankWregParity (opid band : Nat) (second : Bool)
  /-- R98: A store error is corrected and counted, or if uncorrectable poisons the dependent output sectors. -/
  | crankStoreEcc (stn opid input row sector : Nat) (scale uncorr : Bool)
  /-- R99: An uncorrectable error in a crank's control state makes it LOST. -/
  | crankControlUe (n : Nat)
  /-- R99: An operation resident 10 ms with no set completed makes the crank LOST. -/
  | crankStallTimeout (n : Nat)
  /-- R100: CRANK.CTL.SELFTEST starts the self-test of a LOST or idle disabled crank, or reads refused. -/
  | crankSelftest (n : Nat)
  /-- R100: The crank self-test ends; on a pass a LOST crank becomes IDLE. -/
  | crankSelftestDone (n : Nat) (pass : Bool)
  /-- R108: The vector operation ADD computes a + b per element. -/
  | vecAdd (opid : Nat)
  /-- R108: The vector operation SUB computes a − b per element. -/
  | vecSub (opid : Nat)
  /-- R108: The vector operation MUL computes a × b per element. -/
  | vecMul (opid : Nat)
  /-- R108: The vector operation MAX computes the elementwise maximum. -/
  | vecMax (opid : Nat)
  /-- R108: The vector operation MIN computes the elementwise minimum. -/
  | vecMin (opid : Nat)
  /-- R108: The vector operation SCALE computes a × P0 + P1 fused. -/
  | vecScale (opid : Nat)
  /-- R108: The vector operation COPY converts a to OUT_FMT. -/
  | vecCopy (opid : Nat)
  /-- R108: The vector operation EXP computes e^(P0 × a). -/
  | vecExp (opid : Nat)
  /-- R108: The vector operation LOG computes ln a. -/
  | vecLog (opid : Nat)
  /-- R108: The vector operation RSQRT computes 1 / √a. -/
  | vecRsqrt (opid : Nat)
  /-- R108: The vector operation RECIP computes 1 / a. -/
  | vecRecip (opid : Nat)
  /-- R108: The vector operation TANH computes tanh a. -/
  | vecTanh (opid : Nat)
  /-- R108: The vector operation SIGMOID computes 1 / (1 + e^−a). -/
  | vecSigmoid (opid : Nat)
  /-- R108: The vector operation SILU computes a × sigmoid(a). -/
  | vecSilu (opid : Nat)
  /-- R108: The vector operation SILU_MUL computes silu(a) × b. -/
  | vecSiluMul (opid : Nat)
  /-- R108: The vector operation GELU_TANH computes the tanh approximation of GELU. -/
  | vecGeluTanh (opid : Nat)
  /-- R108: The vector operation GELU_ERF computes a × Φ(a). -/
  | vecGeluErf (opid : Nat)
  /-- R108: The vector operation RELU computes max(a, +0). -/
  | vecRelu (opid : Nat)
  /-- R108: The vector operation RMSNORM normalises each row by its root mean square. -/
  | vecRmsnorm (opid : Nat)
  /-- R108: The vector operation LAYERNORM normalises each row by mean and variance, with gain and bias. -/
  | vecLayernorm (opid : Nat)
  /-- R108: The vector operation ROW_SUM writes the sum of each row in fixed order. -/
  | vecRowSum (opid : Nat)
  /-- R108: The vector operation ROW_MAX writes the maximum of each row. -/
  | vecRowMax (opid : Nat)
  /-- R108: The vector operation ROW_MIN writes the minimum of each row. -/
  | vecRowMin (opid : Nat)
  /-- R108: The vector operation ROW_SUMSQ writes the sum of squares of each row. -/
  | vecRowSumsq (opid : Nat)
  /-- R108: The vector operation SOFTMAX normalises each row by a running maximum and sum. -/
  | vecSoftmax (opid : Nat)
  /-- R112: The vector operation SM_STATE updates the running softmax state m, l, c of each row. -/
  | vecSmState (opid : Nat)
  /-- R108: The vector operation SM_EXP computes e^(P0·a − m) with m from the state tile. -/
  | vecSmExp (opid : Nat)
  /-- R108: The vector operation SM_RESCALE multiplies a by c from the state tile. -/
  | vecSmRescale (opid : Nat)
  /-- R108: The vector operation SM_FINAL divides a by l from the state tile. -/
  | vecSmFinal (opid : Nat)
  /-- R115: The derailleur operation CONVERT converts each element, with MX scale choice for MX output. -/
  | drlConvert (opid : Nat)
  /-- R117: The derailleur operation TRANSPOSE turns rows into columns, re-quantising MX along new rows. -/
  | drlTranspose (opid : Nat)
  /-- R118: The derailleur operation GATHER writes row idx[i] of A as output row i. -/
  | drlGather (opid : Nat)
  /-- R118: The derailleur operation SCATTER writes row i of A to output row idx[i]. -/
  | drlScatter (opid : Nat)
  /-- R119: The derailleur operation PACK_KPW packs each MX row into one KPW page. -/
  | drlPackKpw (opid : Nat)
  /-- R106: A VEC or DRL operation with no row completed for 10 ms makes the station LOST. -/
  | vdrStallTimeout (stn : Nat)
  /-- R106: VEC.CTL.SELFTEST starts the vector station self-test under the conditions of R100. -/
  | vecSelftest (n : Nat)
  /-- R106: DRL.CTL.SELFTEST starts the derailleur self-test under the conditions of R100. -/
  | drlSelftest (n : Nat)
  /-- R106: A VEC or DRL self-test ends; on a pass a LOST station becomes IDLE. -/
  | vdrSelftestDone (stn : Nat) (pass : Bool)
  /-- R121: A RED ADD contribution is applied to its sector at the home as one read-modify-write. -/
  | redAdd (dpa : Nat) (codeErr : Bool)
  /-- R121: A RED MIN contribution is applied to its sector at the home. -/
  | redMin (dpa : Nat) (codeErr : Bool)
  /-- R121: A RED MAX contribution is applied to its sector at the home. -/
  | redMax (dpa : Nat) (codeErr : Bool)
  /-- R148: DEC reads a KPW page's used sectors, decodes them and delivers decoded rows, or poisons the page. -/
  | decPageDecode (opid input va : Nat) (codeErr : Bool)
  /-- R135: The cassette operation OPEN takes a free slot and a root list block. -/
  | casOpen (opid : Nat)
  /-- R135: The cassette operation FORK opens a child slot sharing a prefix of the parent's frames. -/
  | casFork (opid : Nat)
  /-- R135: The cassette operation APPEND reserves frames and writes n tokens of one layer. -/
  | casAppend (opid : Nat)
  /-- R135: The cassette operation ADVANCE commits OPEN tokens into LEN. -/
  | casAdvance (opid : Nat)
  /-- R135: The cassette operation TRIM shortens a slot to T tokens and frees unused frames and lists. -/
  | casTrim (opid : Nat)
  /-- R135: The cassette operation CLOSE releases a slot's frames and lists and frees the slot. -/
  | casClose (opid : Nat)
  /-- R138: The cassette operation GATHER_K writes key rows of requested tokens and heads into the output tile. -/
  | casGatherK (opid : Nat)
  /-- R138: The cassette operation GATHER_V writes value rows of requested tokens and heads into the output tile. -/
  | casGatherV (opid : Nat)
  /-- R129: CAS.POOL_CTL.BIND translates the pool region, checks it and initialises counts, stacks and slots. -/
  | casPoolBind (cas : Nat)
  /-- R151: CAS.POOL_CTL.UNBIND unbinds the selected pool, refused while a slot is open. -/
  | casPoolUnbind (cas : Nat)
  /-- R143: A cassette operation with no progress for 10 ms makes the cassette LOST, pools staying bound. -/
  | casStallTimeout (n : Nat)
  /-- R143: CAS.CTL.SELFTEST starts the cassette self-test. -/
  | casSelftest (n : Nat)
  /-- R143: The cassette self-test ends; on a pass it reloads its slot records from the slot areas. -/
  | casSelftestDone (n : Nat) (pass : Bool)
  /-- R176: Every 1 ms a port reads its stack temperature and sets the refresh band or starts a hold cycle. -/
  | hbmTempRead (port temp : Nat)
  /-- R177: A hold window ends and a reduced period begins. -/
  | holdWindowEnd (stack : Nat)
  /-- R177: At the end of a reduced period the latest reading decides another window, another period, or the end of the cycle. -/
  | reducedPeriodEnd (stack : Nat)
  /-- R179: A reading of 115 °C or the stack's catastrophic indication puts it into self-refresh and is a fatal data-half error. -/
  | hbmCattrip (stack : Nat)
  /-- R171: MEM.CTL.SCRUB_NOW starts an extra patrol pass of the port. -/
  | memScrubNow (port : Nat)
  /-- R181: A pseudo-channel's 2 µs truing window re-centres it and measures its margin. -/
  | hbmTruingWindow (port pc margin : Nat) (recent : Bool)
  /-- R182: A port retrain ends; persistent low margin leads to a step-down decision. -/
  | hbmRetrainDone (port : Nat) (margins : List Nat)
  /-- R185: MEM.CTL.RETRAIN requests a port retrain, waiting for the 100 ms limit. -/
  | memCtlRetrain (port : Nat)
  /-- R182: At a quiet point or 50 ms after the decision the stack stalls, steps down one bin and retrains. -/
  | hbmStepDown (stack : Nat)
  /-- R182: A step-down ends and sets STEP_DOWN, or a failed retrain makes the port FAILED. -/
  | hbmStepDownDone (stack : Nat) (failed : List Nat)
  /-- R172: The region command OPEN takes an UNUSED region to LOADING, allocating any mirror. -/
  | regionOpen (region : Nat)
  /-- R172: The region command SEAL takes a LOADING region to ACTIVE. -/
  | regionSeal (region : Nat)
  /-- R172: The region command RELOAD takes an ACTIVE or FENCED region back to LOADING. -/
  | regionReload (region : Nat)
  /-- R172: The region command RELEASE returns a region to UNUSED and frees its mirror slices. -/
  | regionRelease (region : Nat)
  /-- R199: A coherent RD_SHARED request is served at the home, snooping an owner if needed. -/
  | rdShared (agent txn ctx vline form dirErr memErr : Nat)
  /-- R199: A coherent RD_UNIQUE request invalidates holders and grants E. -/
  | rdUnique (agent txn ctx vline form dirErr memErr : Nat)
  /-- R199: A coherent RD_ONCE request returns the line without granting state. -/
  | rdOnce (agent txn ctx vline smask form dirErr memErr : Nat)
  /-- R199: An UPGRADE request invalidates other sharers and grants E, with data where needed. -/
  | upgrade (agent txn ctx vline form dirErr memErr : Nat)
  /-- R199: A WR_LINE request invalidates holders and writes the masked sectors. -/
  | wrLine (agent txn ctx vline smask : Nat) (data : List Byte) (poison : Bool) (form dirErr memErr : Nat)
  /-- R199: An EVICT_CLEAN removes the agent from the entry on arrival. -/
  | evictClean (agent txn ctx vline form dirErr : Nat)
  /-- R199: An EVICT_DIRTY writes the owner's data and frees the entry. -/
  | evictDirty (agent txn ctx vline : Nat) (data : List Byte) (poison : Bool) (form dirErr : Nat)
  /-- R208: A streaming, dispatcher, DEC or host read meets the directory as RD_ONCE. -/
  | streamingRead (stn txn : Nat)
  /-- R208: A streaming, host or pod write meets the directory as WR_LINE. -/
  | streamingWrite (stn txn : Nat)
  /-- R200: An agent receiving SNP_INV goes to I and answers ACK or ACK_DATA. -/
  | snpInv (agent home stxn : Nat) (wrote : Bool) (evicting : Nat) (data : List Byte)
  /-- R200: An agent receiving SNP_SHARE goes to S and answers ACK_DATA or ACK with HELD. -/
  | snpShare (agent home stxn : Nat) (wrote : Bool) (evicting : Nat) (data : List Byte)
  /-- R200: An agent receiving SNP_ALL answers as for SNP_INV, with HELD 0 if it holds nothing. -/
  | snpAll (agent home stxn : Nat) (wrote : Bool) (evicting : Nat) (data : List Byte)
  /-- R201: A snoop answer ACK reaches the home, possibly announcing a crossing dirty eviction. -/
  | snoopAck (agent home stxn : Nat) (evicted held : Bool) (form : Nat)
  /-- R198: A completion acknowledgement reaches the home and closes the line's transaction. -/
  | completionAck (agent home txn form : Nat)
  /-- R197: A snoop answer with the M line reaches the home and is written to the cache slice. -/
  | ackData (agent home stxn : Nat) (data : List Byte) (bad form : Nat)
  /-- R200: An agent receives CMP with its grant and, for some requests, the line data. -/
  | cmp (agent txn : Nat)
  /-- R199: An agent's request is refused with NACK_POISON and a reason. -/
  | nackPoison (agent txn reason : Nat)
  /-- R205: A snoop or acknowledgement times out: the agent becomes SUSPECT and owned lines are poisoned. -/
  | snoopTimeout (agent home stxn : Nat)
  /-- R206: Every live home has finished sweeping the agent and it becomes FREE. -/
  | agentSweepDone (agent : Nat)
  /-- R209: The sweep of a context's or lease's lines completes at every home. -/
  | contextSweepDone (ctx : Nat) (agents : List Nat)
  /-- R211: COH.DIR_SEL.READ loads a directory entry into DIR_LO and DIR_HI in a debug session. -/
  | cohDirRead (port : Nat)
  /-- R223: TC.CTL.INVAL_ALL stops issue to the station and, after resident operations finish, drops every row. -/
  | tcInvalAll (stn : Nat)
  /-- R223: The tile-cache drop ends and issue to the station resumes. -/
  | tcDropDone (stn : Nat)
  /-- R237: A SEM.WAIT_GE is released at once or listed as a waiter. -/
  | semWaitGe (site n txn ctx sem thr : Nat) (acq : Bool) (form : Nat)
  /-- R237: A SEM.ADD raises the count and releases met waiters in list order. -/
  | semAdd (site n txn ctx sem value : Nat) (fast : Bool) (form : Nat)
  /-- R237: A SEM.SUB lowers the count, saturating at the signed limit. -/
  | semSub (site n txn ctx sem value : Nat) (fast : Bool) (form : Nat)
  /-- R238: A SEM.ACQ_RANGE flit attaches an acquire range to the preceding guest wait. -/
  | semAcqRange (site txn base len form : Nat)
  /-- R240: A held ordered guest post is sent once every earlier write of the guest under the context is acknowledged. -/
  | orderedPostRelease (anchor stn txn : Nat)
  /-- R234: SYNC.SEM_CTL.INIT claims or re-initialises a semaphore for a context. -/
  | semInit
  /-- R234: SYNC.SEM_CTL.FREE frees a semaphore without waiters or barrier. -/
  | semFree
  /-- R235: SYNC.SEM_CTL.GRANT gives another context wait or post rights. -/
  | semGrant
  /-- R235: SYNC.SEM_CTL.REVOKE removes a grant. -/
  | semRevoke
  /-- R246: SYNC.BAR_CTL.CREATE makes a barrier record ACTIVE with mask and semaphores. -/
  | barCreate
  /-- R246: SYNC.BAR_CTL.DESTROY returns a barrier record to FREE. -/
  | barDestroy
  /-- R253: SYNC.BAR_CTL.FORCE releases a barrier's current generation in a debug session. -/
  | barForce
  /-- R245: A write of SYNC.PART binds a participant number to an issuer, refused if in an active mask. -/
  | partBind (kind id : Nat)
  /-- R254: SYNC.CTX_CTL.AUDIT walks the slices and records the context's differences from its baseline. -/
  | syncAudit
  /-- R255: A write of SYNC.CTX_CFG sets watchdog period and vector, dropped whole if out of range. -/
  | syncCtxCfgWrite (wdog vector : Nat)
  /-- R252: A context watchdog fires on an aged wait or full ring, killing the context or releasing with WATCHDOG. -/
  | watchdogFire (ctx what : Nat) (ring : Bool)
  /-- R253: A debug-window write of bytes 0–7 sets a semaphore's count and releases waiters. -/
  | semSet (sem half value : Nat)
  /-- R253: The debug command bit WAKE_ALL releases every waiter of the semaphore with OK. -/
  | semWakeAll (sem : Nat)
  /-- R253: The debug command bit CLR_ABANDONED clears the semaphore's ABANDONED flag. -/
  | semClrAbandoned (sem : Nat)
  /-- R281: An active group's truing window falls due and the hub sends LINK.TRUE. -/
  | spokeTruingWindow (site group : Nat)
  /-- R281: The guest's error counts per offset arrive and the hub re-centres the group. -/
  | linkTrueRpt (site group : Nat) (lanes : List (Nat × Nat × Nat × Nat))
  /-- R281: No LINK.TRUE_RPT within 2 µs counts one failed window against the group. -/
  | trueRptTimeout (site : Nat)
  /-- R283: At the next quiet point a failed lane is repaired with a spare or the width is reduced. -/
  | spokeQuietPoint (site : Nat)
  /-- R284: The guest acknowledges LINK.MAP and both switch to the new map at B1. -/
  | linkMapAck (site b1 : Nat)
  /-- R284: The guest reports verification errors; zero resumes cells, else lanes fail again. -/
  | linkMapRpt (site errors : Nat) (failed : List (Nat × Nat × Nat))
  /-- R284: A guest that misses a stall bound is isolated with cause GUEST_ERR. -/
  | stallBoundMiss (site : Nat)
  /-- R272: LINK.CREDIT returns freed cells to the sender's credit counts. -/
  | linkCredit (site : Nat) (counts : Option (List Nat))
  /-- R333: A UCIe guest's LINK.BEAT restarts its heartbeat check. -/
  | linkBeat (site : Nat)
  /-- R277: An uncorrectable cell poisons data sectors it overlaps or drops the message and isolates the site. -/
  | cellUe (site : Nat) (data : Bool)
  /-- R276: A pull station's STR.RD passes the firewall and is read at the homes, returning STR.RDATA and STR.CMP. -/
  | strRd (site stn txn ctx va smask form : Nat)
  /-- R276: A pull station's STR.WR passes the firewall and is written at the homes with its STR.WDATA. -/
  | strWr (site stn txn ctx va smask form : Nat)
  /-- R276: The data of an STR.WR arrives with its sector mask. -/
  | strWdata (site stn txn smask : Nat) (data : List Byte) (bad form : Nat)
  /-- R285: 4 µs without an HBEAT toggle isolates the guest with cause HB_LOST. -/
  | heartbeatLost (site : Nat)
  /-- R285: GRSTREQ_N or Ux_RSTREQ_N low for over 100 ns isolates the guest with cause RST_REQ. -/
  | guestResetRequest (site : Nat)
  /-- R277: GERR_N or Ux_ERR_N low isolates the guest with cause GUEST_ERR. -/
  | guestError (site : Nat)
  /-- R262: GPRES_N or Ux_PRES_N low marks a guest present and starts admission; high reads EMPTY. -/
  | guestPresence (site : Nat) (low : Bool)
  /-- R493: A guest's PREQ or Ux_PREQ changes, setting or clearing the SITE refuser. -/
  | guestPreq (site : Nat) (high : Bool)
  /-- R289: SPK.CTL.TRUE_NOW trues every active group once in turn. -/
  | spkTrueNow (site : Nat)
  /-- R291: A sideband transfer answered BUSY or ERR or with a bad CRC is retried after 10 µs, failing on the fourth. -/
  | sidebandRetry (site : Nat)
  /-- R293: A guest ends its sideband command with DONE or FAIL and the waiting procedure continues. -/
  | guestCmdEnd (site : Nat) (ok : Bool)
  /-- R293: A guest misses its command bound and is isolated with GUEST_ERR or refused. -/
  | guestCmdTimeout (site : Nat)
  /-- R298: A guest not READY 50 ms after VDD_SITE is in range is refused with code 1. -/
  | sbReadyTimeout (site : Nat)
  /-- R307: A violation window ends and the count starts again. -/
  | violationWindowEnd (anchor : Nat)
  /-- R313: SITE.CTL.ISOLATE isolates the guest with cause DRIVER. -/
  | siteIsolate (anchor : Nat)
  /-- R316: SITE.CTL.READMIT re-admits an ISOLATED or REFUSED guest after holding GRST_N low. -/
  | siteReadmit (anchor : Nat)
  /-- R316: 10 ms after an isolated guest's agents become FREE the hub starts an automatic re-admission. -/
  | autoReadmit (anchor : Nat)
  /-- R310: SITE.LEASE_CTL.GRANT leases a context to the guest after LEASE_START, or is refused. -/
  | leaseGrant (anchor : Nat)
  /-- R311: SITE.LEASE_CTL.END, a kill or teardown puts the lease in ENDING and starts its drain. -/
  | leaseEnd (anchor : Nat)
  /-- R311: The context's resident operations at the guest end and the lease end proceeds to LEASE_END, sweep and scrub. -/
  | leaseDrainDone (anchor slot : Nat)
  /-- R311: A drain that outlasts OD 0x4000+0x40·ss.0B isolates the guest with GUEST_ERR. -/
  | leaseDrainTimeout (anchor slot : Nat)
  /-- R306: 10 ms after a lease ends, check-5 failures of its context count as violations again. -/
  | leaseGraceEnd (anchor ctx : Nat)
  /-- R325: A UCIe sideband request without completion within 1 ms counts as an ERR answer. -/
  | ucieSbTimeout (port : Nat)
  /-- R329: A UCIe lane fails and is repaired, or the port moves to x32, in a stall. -/
  | ucieLaneFail (port : Nat) (lanes : List (Nat × Nat × Nat))
  /-- R331: The UCIe retrain returns to active and cells resume. -/
  | ucieRetrainDone (port : Nat)
  /-- R331: A UCIe retrain that fails or overruns 100 µs isolates the guest with cause WIDTH. -/
  | ucieRetrainTimeout (port : Nat)
  /-- R332: A mainband link-down or clock loss isolates the guest with LINK_UE outside a stall. -/
  | ucieLinkDown (port : Nat)
  /-- R348: An uncorrectable flit at a router input requests a link retry. -/
  | rimFlitUe (router port net syndrome : Nat) (parityHolds again : Bool)
  /-- R349: A retry request makes the sender replay the network from the failed flit. -/
  | rimRetryRequest (router port net n : Nat)
  /-- R348: An uncorrectable flit in router storage is a fatal data-half error. -/
  | rimStorageUe (router : Nat)
  /-- R348: A flit with an impossible route is dropped as a fatal data-half error. -/
  | rimRouteErr (router route : Nat)
  /-- R353: RIM.CTL.CNT_CLEAR zeroes the router's port counters. -/
  | rimCntClear (router : Nat)
  /-- R356: A PF write of CTX.FUNC assigns or unassigns a context in FREE or IDLE, placing it in a VF slot. -/
  | ctxFuncWrite (ctx value : Nat)
  /-- R371: A write of CTX.PASID is taken only in IDLE. -/
  | ctxPasidWrite (ctx value : Nat)
  /-- R356: CTX.CTL.CREATE makes an IDLE context ACTIVE, held during a control-half restart, or refused. -/
  | ctxCreate (ctx : Nat)
  /-- R357: CTX.CTL.SUSPEND stops issuing the context's operations and waits. -/
  | ctxSuspend (ctx : Nat)
  /-- R357: CTX.CTL.RESUME returns the context to ACTIVE and restarts issue. -/
  | ctxResume (ctx : Nat)
  /-- R358: CTX.CTL.KILL kills the context with cause 6. -/
  | ctxKill (ctx : Nat)
  /-- R361: CTX.CTL.TEARDOWN starts teardown of an ACTIVE, SUSPENDED or KILLED context. -/
  | ctxTeardown (ctx : Nat)
  /-- R361: A teardown step that took time completes and the next step runs, ending in IDLE. -/
  | teardownStepDone (ctx : Nat)
  /-- R363: An ATS Translation Completion is cached and used, or becomes a translation fault. -/
  | translationCompletion (ctx va who : Nat) (write : Bool) (status size : Nat) (r w u : Bool) (addr : Nat)
  /-- R363: A Translation Request times out; it is retried once, then faults ATS_ERR. -/
  | atsCompletionTimeout (ctx va who : Nat) (write : Bool)
  /-- R369: An ATS Invalidation Request drops entries and rows, marks pools BROKEN and holds affected accesses. -/
  | atsInvalidation (itag fn pasid : Nat) (global : Bool) (base len : Nat)
  /-- R369: Accesses that left with dropped translations complete and the Invalidation Completion is sent. -/
  | atsInvalComplete (itag fn : Nat)
  /-- R372: A write of FAULT.HEAD consumes fault records, dropped if behind or past TAIL. -/
  | faultHeadWrite (value : Nat)
  /-- R421: A write of CTX.CFG, POD.CH_VEC, FAULT.CFG or MBX.CFG is dropped whole if its vector exceeds the table. -/
  | vectorRegWrite (which unit value : Nat)
  /-- R379: At each slot start a port serves its owner class, then lends the slot. -/
  | wheelSlot (port : Nat) (waiting urgent : List Nat) (err : Nat)
  /-- R386: At a new wheel turn a new preset, map or phase takes effect at the port. -/
  | wheelTurnStart (port : Nat)
  /-- R382: A deadline-mode request passes its deadline and becomes urgent. -/
  | deadlineMiss (port router cls : Nat)
  /-- R386: WHL.CTL.APPLY loads the port's map at the next turn, or refuses it. -/
  | whlApply (port : Nat)
  /-- R387: A write of REG.CFG or REG.LIMIT applies to later requests, dropped if out of range. -/
  | regCfgWrite (router : Nat) (limit : Bool) (value : Nat)
  /-- R390: A scale-out port comes up or goes down after auto-negotiation and training. -/
  | ethPortState (port : Nat) (up : Bool)
  /-- R394: A pod frame is accepted in SEQ order, updates acknowledgements, or is dropped or counted a stranger. -/
  | podFrame (port dst src etherType : Nat) (bytes : List Byte) (full : Bool)
  /-- R400: Every sector of a received message has been performed and its DONE is sent. -/
  | podPutPerformed (key : Nat)
  /-- R394: An unacknowledged frame's resend wait expires and frames are resent with doubled wait. -/
  | podRetxTimeout (hub : Nat)
  /-- R394: With no other traffic, an acknowledgement-only frame is sent within 5 µs. -/
  | podAckTimer (hub : Nat)
  /-- R394: A peer silent for OD 0x9010.02 becomes UNREACHABLE and its messages end LOST. -/
  | podUnreachable (hub : Nat)
  /-- R402: A worker sends BEAT to the manager every OD 0x9000.08. -/
  | podBeatTimer
  /-- R402: A hub silent for the pod watchdog becomes LOST, or a worker marks its manager lost. -/
  | podWatchdog (hub : Nat)
  /-- R398: POD.CH_CTL.OPEN opens a channel binding a context to a job, window and ring. -/
  | podChOpen
  /-- R407: POD.CH_CTL.CLOSE stops taking commands and waits for outstanding DONEs. -/
  | podChClose
  /-- R400: POD.CH_CTL.RESUME re-executes the failed command of a HALTED channel. -/
  | podChResume
  /-- R398: The feed semaphore reaches k + 1 and the channel reads pod command k. -/
  | podCmdFetch (ch : Nat)
  /-- R399: A pod NOP command waits and posts. -/
  | podCmdNop (ch : Nat)
  /-- R399: A pod PUT command translates its source and sends PUT messages to a peer. -/
  | podCmdPut (ch : Nat)
  /-- R399: A pod REDUCE_PUT command sends REDUCE_PUT messages to a peer. -/
  | podCmdReducePut (ch : Nat)
  /-- R401: A pod SEM_ADD is sent to a peer after earlier puts complete, unless fast. -/
  | podCmdSemAdd (ch : Nat)
  /-- R401: A pod SEM_SUB is sent to a peer after earlier puts complete, unless fast. -/
  | podCmdSemSub (ch : Nat)
  /-- R401: A pod ARRIVE is sent to the manager after earlier puts complete. -/
  | podCmdArrive (ch : Nat)
  /-- R411: A configuration request is answered, or gets RRS until CTL_UP. -/
  | configRequest (fn off : Nat) (write : Option (Nat × Nat))
  /-- R424: A host BAR4 read is completed from HBM, with EP for poison or UR beyond capacity. -/
  | bar4Read (tag addr len : Nat)
  /-- R424: A host BAR4 write is applied at the homes in arrival order, or dropped. -/
  | bar4Write (addr : Nat) (data : List Byte) (ep : Bool)
  /-- R425: Initiate FLR kills the function's contexts, discards its traffic and resets its configuration. -/
  | initiateFlr (fn : Nat)
  /-- R425: The function-level reset completes and configuration requests complete normally. -/
  | flrDone (fn : Nat)
  /-- R428: A function entering D3hot has its ACTIVE contexts suspended. -/
  | d3hotEntry (fn : Nat)
  /-- R428: A function returning to D0 resumes its suspended contexts and wakes the hub. -/
  | d0Return (fn : Nat)
  /-- R415: A BAR Size or BAR4 base write changes BAR4 and drops the whole ATC. -/
  | bar4Resize (size : Bool) (value : Nat)
  /-- R417: A VF Enable write enables VFs, or clearing it resets VFs and kills their contexts. -/
  | vfEnable (on : Bool)
  /-- R423: A completion for a hub host-memory read delivers sectors, poisoned if EP or error. -/
  | hostCompletion (fn tag status : Nat) (ep : Bool) (data : List Byte)
  /-- R423: A host read times out and its sectors are delivered poisoned. -/
  | hostCompletionTimeout (tag : Nat)
  /-- R421: Unmasking a vector sends its pending message. -/
  | msixUnmask (fn vec : Nat)
  /-- R499: PME_Turn_Off for D3cold is acknowledged and Kickstand entry is attempted. -/
  | pmeTurnOff
  /-- R436: A write of OD 0x8000.04 with the confirming value starts the Production to End-of-life transition. -/
  | lcScrap (path peer value : Nat)
  /-- R436: A JTAG command to the ROM advances Blank to Test or Test to Production. -/
  | lcJtagTransition (goal : Nat)
  /-- R442: A nonce write to OD 0x8010.06 starts an attestation. -/
  | attestNonce (path peer : Nat) (nonce : List Byte)
  /-- R442: The signed attestation record is filled in OD 0x8010.07. -/
  | attestRecordReady
  /-- R443: A read of OD 0x8020.01 draws a fresh debug nonce and voids earlier ones. -/
  | dbgNonce (path peer : Nat)
  /-- R443: A write of OD 0x8020.02 submits Basryn's signature for verification. -/
  | dbgResponse (path peer : Nat) (response : List Byte)
  /-- R443: The ROM's verification ends, opening deep debug or counting a failure. -/
  | dbgVerifyDone
  /-- R445: A write of OD 0x8030.01 opens or closes the operator debug session. -/
  | opdbg (path peer : Nat) (on : Bool)
  /-- R451: The bind command LOAD queues a load of a bound LOADING region. -/
  | bindLoad (path peer region : Nat)
  /-- R455: The bind command ABORT ends a queued or running load ABORTED. -/
  | bindAbort (path peer region : Nat)
  /-- R452: The crypto engine finishes deriving and unwrapping the weight key, or fails. -/
  | bindUnwrapDone (region : Nat)
  /-- R452: A chunk is read, decrypted, tag-checked and written, and the last seals the region. -/
  | bindChunk (region : Nat)
  /-- R458: The management watchdog expires and restarts the control half. -/
  | mgmtWatchdog
  /-- R456: An uncorrectable management SRAM error restarts the control half. -/
  | sramUe
  /-- R468: A mailbox READ returns an entry's value in the data buffer. -/
  | mbxRead (index sub length offset : Nat)
  /-- R468: A mailbox WRITE applies a dictionary write and sets RESULT. -/
  | mbxWrite (index sub : Nat) (value : List Byte)
  /-- R463: A mailbox DESCRIBE returns the descriptor of the first entry at or after index.sub. -/
  | mbxDescribe (index sub : Nat)
  /-- R469: MBX.CTL.NOTE_POP moves the oldest notice into MBX.NOTE0–1. -/
  | mbxNotePop
  /-- R474: An authenticated KMP READ is answered with the entry's value. -/
  | kmpRead (src dst epoch seq index sub offset length : Nat) (tag : List Byte) (idle : Option Nat)
  /-- R463: A KMP READ with DESCRIBE set returns the entry descriptor. -/
  | kmpDescribe (src dst epoch seq index sub offset : Nat) (tag : List Byte) (idle : Option Nat)
  /-- R474: An authenticated, new KMP WRITE is applied and answered. -/
  | kmpWrite (src dst epoch seq index sub offset : Nat) (value tag : List Byte) (idle : Option Nat)
  /-- R480: A NOTIFY_ACK ends resends of the matching NOTIFY. -/
  | kmpNotifyAck (src dst epoch seq : Nat) (tag : List Byte)
  /-- R477: A kept response ages past 10 s and is discarded. -/
  | kmpResponseExpiry (peer seq : Nat)
  /-- R480: An unacknowledged NOTIFY is resent with doubled wait, then dropped after 6 sends. -/
  | notifyResend (seq : Nat)
  /-- R472: A field-network frame is received, dropped and counted if bad or not KMP or neighbour discovery. -/
  | fieldFrameRx (kind src dst : Nat) (payload : List Byte) (idle : Option Nat)
  /-- R472: A transmit collision causes backoff and resend, or an abort after 16 attempts. -/
  | fieldTxCollision (late aborted : Bool)
  /-- R471: PLCA status falls and the MAC uses CSMA/CD until BEACONs return. -/
  | plcaBeaconLoss
  /-- R481: A sideband write transaction applies a value after a good PEC. -/
  | sbWrite (index sub : Nat) (value : List Byte) (pecOk : Bool)
  /-- R481: A sideband read transaction returns status, length and value bytes. -/
  | sbRead (index sub offset : Nat) (pecOk : Bool)
  /-- R466: A read of OD 0x1210.01 returns a fresh nonce and voids the earlier one. -/
  | expertNonce (path peer : Nat)
  /-- R466: A write of OD 0x1210.02 opens an expert session on a matching proof. -/
  | expertProof (path peer : Nat) (proof : List Byte)
  /-- R465: A write of 0 to OD 0x1210.03 closes the holder's expert session. -/
  | expertClose (path peer : Nat)
  /-- R465: An expert session idle for OD 0x1210.04 ends. -/
  | expertIdleTimeout (path peer : Nat)
  /-- R466: The 60 s lockout after eight mismatches on a path ends. -/
  | proofLockoutEnd (path : Nat)
  /-- R461: Stored writes are committed to the older flash generation, or the commit fails with STORE_FAIL. -/
  | storeCommit (ok : Bool)
  /-- R461: A failed commit is retried every 10 s. -/
  | storeCommitRetry (ok : Bool)
  /-- R486: A write of OD 0xB000.01 checks and applies every change of the new overlay in one step. -/
  | overlaySwitch (path peer : Nat) (name : List Byte)
  /-- R487: The overlay command CREATE adds an empty overlay. -/
  | ovlCreate (path peer : Nat)
  /-- R487: The overlay command DELETE removes an inactive overlay. -/
  | ovlDelete (path peer : Nat)
  /-- R487: The overlay command PUT sets an entry's value in the overlay. -/
  | ovlPut (path peer : Nat)
  /-- R487: The overlay command REMOVE drops an entry from the overlay. -/
  | ovlRemove (path peer : Nat)
  /-- R487: The overlay command CLEAR drops every entry of an inactive overlay. -/
  | ovlClear (path peer : Nat)
  /-- R488: A write of OD 0x1010.04 records or withdraws a pending factory reset. -/
  | storeCmd (path peer value : Nat)
  /-- R491: Station, dispatcher and barrier clocks are gated after they idle for OD 0x7000.01. -/
  | coastEntry
  /-- R494: After unbroken Coast or D3hot, the hub checks refusers and enters Park, or aborts. -/
  | parkEntry (abort : Nat)
  /-- R498: A wake source brings the hub from Park back to Ride and records the wake. -/
  | parkWake (source : Nat) (voltageFail pllFail : Bool) (failed : List Nat)
  /-- R500: A sideband address match drives PWR_ON high and the hub boots as from cold. -/
  | kickstandWake
  /-- R501: The RTC reaches OD 0x7000.0B and wakes the hub from Park. -/
  | rtcAlarm
  /-- R501: A write of 1 to OD 0x7000.0D wakes the hub to Ride. -/
  | wakeReq (path peer value : Nat)
  /-- R503: The regulator reports the rail in regulation and the clock is raised. -/
  | avsInRegulation
  /-- R504: The regulator misses its deadline, AVS_FAIL is set and a retry is scheduled. -/
  | avsTimeout
  /-- R504: 10 ms after a failure the voltage change is retried, the third failure being fatal. -/
  | avsRetry
  /-- R505: Every 1 ms the limiter reads power and junctions and adjusts clock and level. -/
  | limiterTick (power : Nat) (temps : List Int)
  /-- R508: A cold boot phase ends and the next begins, ending with READY. -/
  | bootPhaseEnd (ms : Nat) (cellBlows fuseOdd rimOk : Bool) (hbms : List (Nat × Nat × Nat × Nat)) (fails : List (List Nat)) (failed : List Nat)
  /-- R508: A phase runs past its bound and sets BOOT.EVT.PHASE_OVER. -/
  | bootPhaseOverrun
  /-- R511: A PLL not locked within 10 ms stops bring-up with code 1. -/
  | pllLockTimeout
  /-- R511: A stem link not up within 50 ms stops bring-up with code 2. -/
  | stemUpTimeout
  /-- R512: A readiness gate run passes or stops on errors and restarts with a new width. -/
  | gateRunEnd (site : Nat) (errors : List (Nat × Nat × Nat))
  /-- R512: A gate not passed by its deadline fails and the site policy applies. -/
  | gateDeadline (anchor : Nat)
  /-- R518: No TOP.DONE within 100 ms after a round refuses the guest with code 7. -/
  | fwAnswerTimeout (anchor : Nat)
  /-- R528: The update command BEGIN takes and erases the inactive slot or a guest-image run. -/
  | fwuBegin (path peer : Nat)
  /-- R528: The slot erase ends and chunks can be written. -/
  | fwuEraseDone
  /-- R528: A 1,024 B chunk written to OD 0x1300.07 is programmed at FWU_OFFSET. -/
  | fwuData (path peer : Nat) (chunk : List Byte)
  /-- R529: The update command END checks the image and makes the slot PENDING or EMPTY. -/
  | fwuEnd (path peer : Nat)
  /-- R528: The update command ABORT returns the slot to EMPTY. -/
  | fwuAbort (path peer : Nat)
  /-- R529: The update command ACTIVATE restarts the control half to try a PENDING slot. -/
  | fwuActivate (path peer : Nat)
  /-- R532: The update command CONFIRM makes the trial slot GOOD and ACTIVE. -/
  | fwuConfirm (path peer : Nat)
  /-- R532: The update command ROLLBACK sets the other GOOD slot PENDING. -/
  | fwuRollback (path peer : Nat)
  /-- R536: The update command DELETE_GUEST clears a guest-image directory entry. -/
  | fwuDeleteGuest (path peer : Nat)
  /-- R532: A trial image that has run OD 0x1300.0C seconds is confirmed. -/
  | fwuAutoConfirm
  /-- R552: TRC.CTL.CLEAR empties the trace buffer and clears TRIGGERED. -/
  | trcClear
  /-- R553: A write of 1 to OD 0xA040.03 reads sectors at a DPA as RD_ONCE into the window. -/
  | dbgMemRead (path peer : Nat)
  /-- R541: An uncorrectable error in the endpoint core's state makes the hub fatal. -/
  | endpointCoreUe
  /-- R557: A watched supply out of tolerance for 10 µs is a fatal data-half or hub-fatal error. -/
  | supplyFault (supply : Nat)
  /-- R559: Every 10 ms the hub reads each site regulator and isolates a guest on over-current or fault. -/
  | siteIoutPoll (site iout : Nat) (fault answers : Bool)
  /-- R285: A toggle of a covered site's HBEAT line restarts that guest's 4 µs heartbeat check. -/
  | hbeatToggle (site : Nat)
  /-- R106: An uncorrectable error in the control state of a VEC or DRL makes the station LOST. -/
  | vdrControlUe (stn : Nat)
  /-- R143: An uncorrectable error in a cassette's control state makes it LOST, its pools staying bound. -/
  | casControlUe (n : Nat)
  /-- R291: A sideband transfer ends with ACK and its data phase, letting admission read SB_POS, the descriptor and SB_STATUS and go on. -/
  | sidebandTransferDone (site : Nat) (words : List Nat)
  /-- R297: The crypto engine finishes checking a descriptor signature and sets VERIFIED or SIG_FAIL, and admission proceeds. -/
  | signatureCheckDone (anchor : Nat)
  /-- R280: Centring and spare mapping of a site end, or the guest misses the 100 µs lock bound, and the width state is chosen before the gate. -/
  | spokeTrainingDone (site : Nat) (locked : Bool) (failed : List (Nat × Nat × Nat))
  /-- R321: UCIe link training at a rate succeeds or fails, the port stepping down a rate on failure. -/
  | ucieTrainingDone (port : Nat) (able ok : Bool) (offer : Nat) (failed : List (Nat × Nat × Nat))
  /-- R20: A BAR0 read of a data-half block while the data half is down returns 0 and sets HUB.EVT.REG_DROPPED. -/
  | regRead (fn off size : Nat)
  /-- R429: PERST# is deasserted, releasing WAKE# held low from D3cold and letting the link train. -/
  | perstDeassert
  /-- R519: The PCIe link trains up again after a reset, and bring-up restarts from phase 2. -/
  | pcieLinkUp (gts width : Nat)
  /-- R471: PLCA status becomes true again when BEACONs return, and the MAC leaves CSMA/CD for PLCA. -/
  | plcaBeaconReturn
  /-- R473: Duplicate address detection on the link-local address ends, enabling IPv6 and KMP or setting DAD_FAILED. -/
  | dadComplete (unique : Bool)
  /-- R481: An I3C SETDASA or ENTDAA gives the sideband target its dynamic address. -/
  | dynamicAddressAssignment (addr : Nat)
deriving DecidableEq, Repr

end Sys2Proof
end

