-- ==== Sys2Proof/Decode.lean ====
section
/-!
DEFINITION. Decode.lean: commands as words. No row of the opcode table gives bits (every row's list of fields is empty), so no word
spells a command.
-/
namespace Sys2Proof

/-- The command that `nbits` bits `w` of the opcode table spell: none, since the table gives no row any bits. -/
def decodeTableWord (_nbits _w : Nat) : Option Instr := none

end Sys2Proof
end

