-- ==== Sys2Proof/Machine/Tab.lean ====
section
/-!
DEFINITION. Machine/Tab.lean: sparse tables. A table is a list of (key, value) pairs with strictly rising keys; it
holds the register file, the dictionary, the memories and the numbered records of the hub. `Memory` is the byte table
in one canonical form: no entry equals what an unlisted address reads as (0).
-/
namespace Sys2Proof.Machine

/-- The value a table lists for key `k`. -/
def tget {α : Type} : List (Nat × α) → Nat → Option α
  | [], _ => none
  | (j, v) :: r, k => if j = k then some v else tget r k

/-- The value a table lists for key `k`, else `d`. -/
def tgetD {α : Type} (t : List (Nat × α)) (k : Nat) (d : α) : α := (tget t k).getD d

/-- The table with value `v` at key `k`, keys still rising. -/
def tset {α : Type} : List (Nat × α) → Nat → α → List (Nat × α)
  | [], k, v => [(k, v)]
  | (j, w) :: r, k, v =>
    if k < j then (k, v) :: (j, w) :: r
    else if k = j then (k, v) :: r
    else (j, w) :: tset r k v

/-- The table without key `k`. -/
def tdel {α : Type} (t : List (Nat × α)) (k : Nat) : List (Nat × α) := t.filter fun e => e.1 != k

/-- The keys rise strictly. -/
def tsorted {α : Type} : List (Nat × α) → Bool
  | [] => true
  | [_] => true
  | a :: b :: r => decide (a.1 < b.1) && tsorted (b :: r)

/-- A byte memory: the HBM by device physical address, or the host's memory by host address. -/
abbrev Memory := List (Nat × Byte)

/-- What address `a` reads as; an unlisted address reads as 0 (DESIGN CHOICE, log entry 3). -/
def Memory.read (m : Memory) (a : Nat) : Byte := tgetD m a 0

/-- The memory with byte `b` at `a`, in canonical form. -/
def Memory.write (m : Memory) (a : Nat) (b : Byte) : Memory := if b = 0 then tdel m a else tset m a b

/-- The canonical form: addresses rise strictly and no entry is 0. -/
def Memory.wf (m : Memory) : Bool := tsorted m && m.all fun e => e.2 != 0

/-- `n` bytes from `a` on. -/
def Memory.readN (m : Memory) (a n : Nat) : List Byte := (List.range n).map fun i => m.read (a + i)

/-- The bytes `bs` stored from `a` on. -/
def Memory.writeN (m : Memory) (a : Nat) : List Byte → Memory
  | [] => m
  | b :: bs => Memory.writeN (m.write a b) (a + 1) bs

/-- `x` put into a list before the first element that `le` does not place ahead of it. -/
def putBy {α : Type} (le : α → α → Bool) (x : α) : List α → List α
  | [] => [x]
  | y :: r => if le x y then x :: y :: r else y :: putBy le x r

/-- A list in the order of `le`; equals keep theirs. -/
def sortBy {α : Type} (le : α → α → Bool) (l : List α) : List α := l.foldr (putBy le) []

/-- A little-endian number from bytes (R10). -/
def leNat : List Byte → Nat
  | [] => 0
  | b :: bs => b.toNat + 256 * leNat bs

/-- The `n` little-endian bytes of a number (R10). -/
def leBytes : Nat → Nat → List Byte
  | 0, _ => []
  | n + 1, v => BitVec.ofNat 8 v :: leBytes n (v / 256)

/-- The `n` big-endian bytes of a number. -/
def beBytes (n v : Nat) : List Byte := (leBytes n v).reverse

/-- A big-endian number from bytes. -/
def beNat (bs : List Byte) : Nat := leNat bs.reverse

/-- `n` bytes of a list from byte `o` on, padded with 0. -/
def sliceB (bs : List Byte) (o n : Nat) : List Byte := (List.range n).map fun i => bs.getD (o + i) 0

/-- The little-endian number in `n` bytes from byte `o` on. -/
def numAt (bs : List Byte) (o n : Nat) : Nat := leNat (sliceB bs o n)

/-- Bits hi..lo of a number. -/
def bitsOf (v hi lo : Nat) : Nat := v / 2 ^ lo % 2 ^ (hi + 1 - lo)

/-- Bit `i` of a number. -/
def bitOf (v i : Nat) : Bool := v / 2 ^ i % 2 == 1

/-- 1 for true. -/
def b2n (b : Bool) : Nat := if b then 1 else 0

/-- The number `v` with the `w` bits from `lo` on replaced by the low bits of `x`. -/
def setBits (v lo w x : Nat) : Nat :=
  v % 2 ^ lo + x % 2 ^ w * 2 ^ lo + v / 2 ^ (lo + w) * 2 ^ (lo + w)

/-- A two's complement reading of the low `w` bits. -/
def toSigned (w v : Nat) : Int := if v % 2 ^ w < 2 ^ (w - 1) then (v % 2 ^ w : Nat) else (v % 2 ^ w : Nat) - 2 ^ w

/-- The two's complement `w` bits of an integer. -/
def ofSigned (w : Nat) (v : Int) : Nat := (v % 2 ^ w).toNat

/-- Ceiling of a quotient. -/
def ceilDiv (a b : Nat) : Nat := (a + b - 1) / b

end Sys2Proof.Machine
end

