-- ==== Sys2Proof/Machine/Formats.lean ====
section
/-!
DEFINITION. Machine/Formats.lean: element formats (R78): what a code stands for, exactly; rounding to a format (R95, R110,
R115); rows of codes and their packing. A number is nan, an infinity, or a signed dyadic m * 2^e.
-/
namespace Sys2Proof.Machine

/-- An exact number. -/
inductive Num where
  | nan
  | inf (neg : Bool)
  | fin (neg : Bool) (m : Nat) (e : Int)
deriving DecidableEq, Repr

/-! ### Exact arithmetic -/

def Num.zero : Num := .fin false 0 0
def Num.isZero : Num → Bool
  | .fin _ m _ => m == 0 | _ => false
def Num.isFin : Num → Bool
  | .fin _ _ _ => true | _ => false

/-- The signed integer k with value k * 2^e, for e at most the number's own exponent. -/
def scaledInt (s : Bool) (m : Nat) (e base : Int) : Int :=
  let v : Int := (m * 2 ^ (e - base).toNat : Nat)
  if s then -v else v

/-- A number from a signed integer times 2^e. -/
def numOfInt (v : Int) (e : Int) : Num := .fin (decide (v < 0)) v.natAbs e

def Num.neg : Num → Num
  | .nan => .nan | .inf s => .inf (!s) | .fin s m e => .fin (!s) m e

/-- The sum; of opposite infinities, nan; an exact zero is +0 unless both are negative. -/
def Num.add (a b : Num) : Num :=
  match a, b with
  | .nan, _ => .nan
  | _, .nan => .nan
  | .inf s, .inf t => if s == t then .inf s else .nan
  | .inf s, .fin _ _ _ => .inf s
  | .fin _ _ _, .inf s => .inf s
  | .fin s m e, .fin t n f =>
    let base := min e f
    let v := scaledInt s m e base + scaledInt t n f base
    if v = 0 then .fin (s && t) 0 0 else numOfInt v base

/-- The product; infinity times zero is nan. -/
def Num.mul (a b : Num) : Num :=
  match a, b with
  | .nan, _ => .nan
  | _, .nan => .nan
  | .inf s, .inf t => .inf (s != t)
  | .inf s, .fin t n _ => if n = 0 then .nan else .inf (s != t)
  | .fin s m _, .inf t => if m = 0 then .nan else .inf (s != t)
  | .fin s m e, .fin t n f => .fin (s != t) (m * n) (e + f)

/-- The number times 2^k. -/
def Num.scale (a : Num) (k : Int) : Num :=
  match a with
  | .fin s m e => .fin s m (e + k)
  | x => x

/-- a is below b, with -0 below +0; of nan, false. -/
def Num.lt (a b : Num) : Bool :=
  match a, b with
  | .nan, _ => false
  | _, .nan => false
  | .inf s, .inf t => s && !t
  | .inf s, .fin _ _ _ => s
  | .fin _ _ _, .inf t => !t
  | .fin s m e, .fin t n f =>
    let base := min e f
    let x := scaledInt s m e base
    let y := scaledInt t n f base
    decide (x < y) || (x == y && x == 0 && s && !t)

/-- Largest and smallest, nan propagating (R110, R121). -/
def Num.max (a b : Num) : Num := if a == .nan || b == .nan then .nan else if a.lt b then b else a
def Num.min (a b : Num) : Num := if a == .nan || b == .nan then .nan else if b.lt a then b else a

/-- The magnitude. -/
def Num.abs : Num → Num
  | .nan => .nan | .inf _ => .inf false | .fin _ m e => .fin false m e

/-- Bits in a number. -/
def bitLen (m : Nat) : Nat := if m = 0 then 0 else m.log2 + 1

/-- floor(log2) of a nonzero magnitude. -/
def Num.ilog (a : Num) : Int :=
  match a with
  | .fin _ m e => e + (bitLen m : Int) - 1
  | _ => 0

/-- m * 2^e rounded to the nearest multiple of 2^q, ties to even, in units of 2^q. -/
def nearest (m : Nat) (e q : Int) : Nat :=
  if q ≤ e then m * 2 ^ (e - q).toNat
  else
    let d := 2 ^ (q - e).toNat
    let f := m / d
    let r := 2 * (m % d)
    if d < r || (r == d && f % 2 == 1) then f + 1 else f

/-! ### Floating-point formats (R78) -/

/-- A floating-point format: bits of an element, fraction bits, bias, the largest finite code (without sign), the code of
infinity (none where it has none), and the canonical nan code (none where it has none). -/
structure Flt where
  bits : Nat
  frac : Nat
  bias : Nat
  top  : Nat
  inf  : Option Nat
  nan  : Option Nat

def fp32 : Flt := ⟨32, 23, 127, 0x7F7FFFFF, some 0x7F800000, some 0x7FC00000⟩
def bf16 : Flt := ⟨16, 7, 127, 0x7F7F, some 0x7F80, some 0x7FC0⟩
def fp16 : Flt := ⟨16, 10, 15, 0x7BFF, some 0x7C00, some 0x7E00⟩
def e4m3 : Flt := ⟨8, 3, 7, 0x7E, none, some 0x7F⟩
def e5m2 : Flt := ⟨8, 2, 15, 0x7B, some 0x7C, some 0x7E⟩
def e3m2 : Flt := ⟨6, 2, 3, 0x1F, none, none⟩
def e2m3 : Flt := ⟨6, 3, 1, 0x1F, none, none⟩
def e2m1 : Flt := ⟨4, 1, 1, 0x07, none, none⟩

/-- Exponent of the last place of the smallest values. -/
def Flt.qmin (f : Flt) : Int := 1 - f.bias - f.frac

/-- What a code stands for. -/
def Flt.decode (f : Flt) (c : Nat) : Num :=
  let s := bitOf c (f.bits - 1)
  let a := c % 2 ^ (f.bits - 1)
  if f.top < a then (if some a == f.inf then .inf s else .nan)
  else
    let ex := a / 2 ^ f.frac
    let fr := a % 2 ^ f.frac
    if ex = 0 then .fin s fr f.qmin else .fin s (2 ^ f.frac + fr) (f.qmin + ex - 1)

/-- The largest finite number. -/
def Flt.largest (f : Flt) : Num := f.decode f.top

/-- The code of a number rounded to nearest even, and whether it overflowed. `sat` gives the largest finite value for an
overflow; a format without an infinity always does. An infinity that comes in stays one where the format has one, and
otherwise saturates, which counts as an overflow; a nan is the canonical one. -/
def Flt.encode (f : Flt) (sat : Bool) (x : Num) : Nat × Bool :=
  let sg (s : Bool) := if s then 2 ^ (f.bits - 1) else 0
  match x with
  | .nan => (f.nan.getD 0, false)
  | .inf s => match f.inf with
    | some c => (sg s + c, false)
    | none => (sg s + f.top, true)
  | .fin s m e =>
    if m = 0 then (sg s, false) else
    let q := Max.max (e + (bitLen m : Int) - (f.frac + 1)) f.qmin
    let c := (q - f.qmin).toNat * 2 ^ f.frac + nearest m e q
    if f.top < c then (sg s + (if sat then f.top else f.inf.getD f.top), true) else (sg s + c, false)

/-- The number rounded to the format, and whether it overflowed. -/
def Flt.round (f : Flt) (sat : Bool) (x : Num) : Num × Bool :=
  let (c, o) := f.encode sat x
  (f.decode c, o)

/-- Rounded to FP32, overflow to an infinity. -/
def r32 (x : Num) : Num := (fp32.round false x).1

/-! ### Element formats by code (R78) -/

/-- Bits of an element. -/
def fmtBits (f : Nat) : Nat :=
  if f = 1 || f = 13 then 32 else if f = 2 || f = 3 then 16 else if f = 8 || f = 9 then 6 else if f = 10 then 4 else 8

/-- The floating-point layout of a format code; none for integers and KPW. -/
def fltOf (f : Nat) : Option Flt :=
  match f with
  | 1 => some fp32 | 2 => some bf16 | 3 => some fp16 | 4 => some e4m3 | 5 => some e5m2
  | 6 => some e4m3 | 7 => some e5m2 | 8 => some e3m2 | 9 => some e2m3 | 10 => some e2m1
  | _ => none

/-- Elements in a row of `u` 32-byte units (R41). -/
def elemsOf (f u : Nat) : Nat := u * 256 / fmtBits f

/-- Bytes of `n` elements. -/
def bytesOf (f n : Nat) : Nat := n * fmtBits f / 8

/-- What an element code of format `f` stands for, before its block scale. -/
def elemNum (f c : Nat) : Num :=
  match fltOf f with
  | some x => x.decode c
  | none => if f = 13 then numOfInt (toSigned 32 c) 0 else if f = 11 then numOfInt (toSigned 8 c) (-6) else numOfInt (toSigned 8 c) 0

/-- `n` groups of `k` bytes. -/
def groups (k : Nat) : Nat → List Byte → List (List Byte)
  | 0, _ => []
  | n + 1, bs => bs.take k :: groups k n (bs.drop k)

/-- The element codes of a row's bytes (R78). -/
def codesOf (f : Nat) (bs : List Byte) : List Nat :=
  match fmtBits f with
  | 32 => (groups 4 (bs.length / 4) bs).map leNat
  | 16 => (groups 2 (bs.length / 2) bs).map leNat
  | 6 => (groups 3 (bs.length / 3) bs).flatMap fun g => let v := leNat g; [v % 64, v / 64 % 64, v / 4096 % 64, v / 262144 % 64]
  | 4 => bs.flatMap fun b => [b.toNat % 16, b.toNat / 16]
  | _ => bs.map fun b => b.toNat

/-- Element codes as bytes: fuel at least the number of codes. -/
def packWith (f : Nat) : Nat → List Nat → List Byte
  | 0, _ => []
  | n + 1, cs =>
    match cs with
    | [] => []
    | c :: r =>
      match fmtBits f with
      | 32 => leBytes 4 c ++ packWith f n r
      | 16 => leBytes 2 c ++ packWith f n r
      | 6 => leBytes 3 ((cs.take 4).foldr (fun x a => x % 64 + 64 * a) 0) ++ packWith f n (cs.drop 4)
      | 4 => leBytes 1 (c % 16 + 16 * (r.headD 0)) ++ packWith f n (r.drop 1)
      | _ => leBytes 1 c ++ packWith f n r

def packCodes (f : Nat) (cs : List Nat) : List Byte := packWith f cs.length cs

/-- The block scale of element `i`: E8M0, 0xFF is nan; without scales 2^0 (R78). -/
def scaleAt (mx : Bool) (scales : List Nat) (i : Nat) : Option Int :=
  if !mx then some 0
  else
    let e := scales.getD (i / 32) 0xFF
    if e = 0xFF then none else some ((e : Int) - 127)

/-- An integer format's code of a number: rounded to nearest even and saturated between lo and hi; nan gives 0. The flag
says that it saturated. -/
def intCode (w : Nat) (lo hi : Int) (x : Num) : Nat × Bool :=
  match x with
  | .nan => (0, false)
  | .inf s => (ofSigned w (if s then lo else hi), true)
  | .fin s m e =>
    let k : Int := (nearest m e 0 : Nat)
    let v := if s then -k else k
    if v < lo then (ofSigned w lo, true) else if hi < v then (ofSigned w hi, true) else (ofSigned w v, false)

end Sys2Proof.Machine
end

