-- ==== Sys2Proof/Machine/Matmul.lean ====
section
/-!
DEFINITION. Machine/Matmul.lean: the arithmetic of a crank (R87, R88, R92 to R95) and the sectors its output poisons (R98).
-/
namespace Sys2Proof.Machine

/-- A row as a station holds it: element bytes, scale bytes, and the poisoned sectors of each. -/
structure RowData where
  bytes  : List Byte := []
  scales : List Byte := []
  bad    : List Nat := []
  sbad   : List Nat := []
deriving DecidableEq, Repr

/-- A row has poison. -/
def RowData.poisoned (r : RowData) : Bool := !r.bad.isEmpty || !r.sbad.isEmpty

/-- MX formats (R41, R78). -/
def isMx (f : Nat) : Bool := decide (6 ≤ f) && decide (f ≤ 11)

/-- A list in pieces of 32: fuel at least the pieces. -/
def blocks32 {α : Type} : Nat → List α → List (List α)
  | 0, _ => []
  | n + 1, xs => if xs.isEmpty then [] else xs.take 32 :: blocks32 n (xs.drop 32)

/-- A line of operands along k: blocks of 32 with the block's scale exponent (none: nan). -/
abbrev Line := List (Option Int × List Num)

/-- The operand line of a row of format `f`. -/
def lineOf (f : Nat) (r : RowData) : Line :=
  let cs := codesOf f r.bytes
  ((blocks32 cs.length cs).zipIdx).map fun b =>
    (scaleAt (isMx f) (r.scales.map (·.toNat)) (32 * b.2), b.1.map (elemNum f))

/-- The operand lines of a transposed load: column n of rows of k (R91). -/
def columnsOf (f : Nat) (rows : List RowData) : List Line :=
  let els := rows.map fun r => codesOf f r.bytes
  let n := (els.headD []).length
  (List.range n).map fun j =>
    let col := els.map fun r => elemNum f (r.getD j 0)
    (blocks32 col.length col).map fun b => (some 0, b)

/-- The products of a block, exact. -/
def products (a b : List Num) : List Num := (a.zip b).map fun p => p.1.mul p.2

/-- A finite number cut to a multiple of 2^q towards minus infinity. -/
def Num.cut (x : Num) (q : Int) : Num :=
  match x with
  | .fin s m e => if q ≤ e then x else
    let d := 2 ^ (q - e).toNat
    if s then .fin true ((m + d - 1) / d) q else .fin false (m / d) q
  | y => y

/-- The exact block sum (R92); for BF16 every product bit below 2^(emax - 50) is discarded first (R93). -/
def blockSum (isBf : Bool) (ps : List Num) : Num :=
  let big := ps.filter fun p => p.isFin && !p.isZero
  let ps := match isBf, big with
    | true, p :: r =>
      let emax := r.foldl (fun (m : Int) (x : Num) => Max.max m x.ilog) p.ilog
      ps.map fun (x : Num) => x.cut (emax - 50)
    | _, _ => ps
  ps.foldl Num.add .zero

/-- One output element as FP32 (R92): the blocks folded in rising order of k, each with one rounding; how many folds
overflowed. -/
def foldLine (isBf sat : Bool) (a b : Line) : Num × Nat :=
  (a.zip b).foldl (fun (acc : Num × Nat) p =>
    match p.1.1, p.2.1 with
    | some ea, some eb =>
      let s := (blockSum isBf (products p.1.2 p.2.2)).scale (ea + eb)
      let (v, o) := fp32.round sat (acc.1.add s)
      (v, acc.2 + b2n o)
    | _, _ => (.nan, acc.2)) (.zero, 0)

/-- The exact integer sum of an INT8 pair (R94). -/
def intLine (a b : Line) : Int :=
  (a.zip b).foldl (fun acc p => (p.1.2.zip p.2.2).foldl (fun (acc : Int) e => match e.1, e.2 with
    | .fin s m _, .fin t n _ => acc + (if s then -(m : Int) else m) * (if t then -(n : Int) else n)
    | _, _ => acc) acc) 0

/-- A `FUNC` of a crank slot (R81). -/
structure CrankFunc where
  shape : Nat
  wt    : Bool
  fmt   : Nat
  alpha : Bool
  sat   : Bool
deriving DecidableEq, Repr

/-- The format code that a station's output-format field names. -/
def crankFunc (f : Nat) : CrankFunc := ⟨f % 8, bitOf f 3, [1, 2, 13].getD (bitsOf f 5 4) 1, bitOf f 6, bitOf f 7⟩

/-- One output code (R92, R95): the code, and how many overflows and integer saturations it met. -/
def crankElem (c : CrankFunc) (fa : Nat) (alpha : Option Num) (a b : Line) : Nat × Nat × Nat :=
  let fl := if c.fmt = 2 then bf16 else fp32
  if fa = 12 then
    let v := intLine a b
    if c.fmt = 13 then
      let (k, s) := intCode 32 (-(2 ^ 31)) (2 ^ 31 - 1) (numOfInt v 0)
      (k, 0, b2n s)
    else match alpha with
      | none => let (k, o) := fl.encode c.sat (numOfInt v 0); (k, b2n o, 0)
      | some x =>
        let (y, o1) := fp32.round c.sat ((fp32.round c.sat (numOfInt v 0)).1.mul x)
        let (k, o2) := fl.encode c.sat y
        (k, b2n o1 + b2n o2, 0)
  else
    let (v, o1) := foldLine (fa == 2) c.sat a b
    let (v, o2) := match alpha with
      | none => (v, false)
      | some x => fp32.round c.sat (v.mul x)
    let (k, o3) := fl.encode c.sat v
    (k, o1 + b2n o2 + b2n o3, 0)

/-! ### Shapes (R87, R88) -/

/-- Columns of a shape code. -/
def shapeCols (s : Nat) : Nat := if s = 4 then 2048 else if s = 3 then 1024 else if s = 2 then 512 else 128

/-- The shape an operation of m rows and n columns takes, and whether an explicit one was narrowed. -/
def pickShape (want autoMax m n : Nat) : Nat × Bool :=
  let fits (s : Nat) := decide (m * shapeCols s ≤ 262144)
  if want = 0 then
    (([4, 3, 2, 1].find? fun s => fits s && decide (shapeCols s ≤ ceilDiv n 128 * 128) && decide (s ≤ autoMax)).getD 1, false)
  else if fits want then (want, false)
  else (([4, 3, 2, 1].find? fits).getD 1, true)

/-! ### A whole operation -/

/-- What a station's computation gives: its output rows, and how often what happened on the way (what the counts are of
differs by station: overflow, integer saturation, narrowed shape). -/
structure Computed where
  rows : List RowData := []
  ovf  : Nat := 0
  sat  : Nat := 0
  note : Nat := 0
  num  : Nat := 0
deriving DecidableEq, Repr

/-- Sectors of an output row of format `f` that hold a column of `cols`; the part starts `off` bytes into its sector. -/
def sectorsOfCols (f off : Nat) (cols : List Nat) : List Nat := (cols.map fun j => (off + bytesOf f j) / 32).eraseDups

/-- C = A · W for the rows of A and W that an operation holds (R92), its poison (R98). `off` is where the operation's
first column lies in its output sector. -/
def matmul (func autoMax fa fw : Nat) (alpha : Option Num) (off : Nat) (a w : List RowData) : Computed :=
  let c := crankFunc func
  let la := a.map (lineOf fa)
  let lw := if c.wt then columnsOf fw w else w.map (lineOf fw)
  let n := lw.length
  let (shape, narrowed) := pickShape c.shape autoMax a.length n
  let band := shapeCols shape
  let els := elemsOf fw 1
  let badN := if c.wt then (w.flatMap fun r => r.bad.flatMap fun s => (List.range els).map fun i => s * els + i)
    else (w.zipIdx.filter fun r => r.1.poisoned).map (·.2)
  let bands := (badN.map (· / band)).eraseDups
  let badCols := (List.range n).filter fun j => bands.contains (j / band)
  let vals := la.map fun x => lw.map fun y => crankElem c fa (if c.alpha then alpha else none) x y
  let rows := (a.zip vals).map fun r =>
    { bytes := packCodes c.fmt (r.2.map (·.1))
      bad := sectorsOfCols c.fmt off (if r.1.poisoned then List.range n else badCols) : RowData }
  { rows := rows
    ovf := (vals.map fun r => (r.map (·.2.1)).sum).sum
    sat := (vals.map fun r => (r.map (·.2.2)).sum).sum
    note := b2n narrowed
    num := shape + 8 * (a.length * n * ((la.headD []).foldl (fun k b => k + b.2.length) 0)) }

end Sys2Proof.Machine
end

