-- ==== Sys2Proof/Config.lean ====
section
/-!
DEFINITION. Config.lean: what the spec leaves open. Every constant here is opaque: nothing can evaluate it, and a claim
holds whatever it is. `freeNat` is the stream of free values; the State field `freeN` counts how many were drawn.
-/
namespace Sys2Proof.Config

/-- The k-th free value: a value the spec leaves open, with no bound (each use reduces it to its width). -/
opaque freeNat : Nat → Nat

/-- What host memory answers is an operand of HOST_COMPLETION; this is the stepping of the die (HUB.ID.STEP, by die). -/
opaque dieStep : Nat

/-- SHA-384 of a byte string (FIPS 180-4); the spec names it and gives no table for it. -/
opaque sha384 : List Byte → List Byte

/-- HMAC-SHA-256 of a message under a key (R466, R475). -/
opaque hmac256 : List Byte → List Byte → List Byte

/-- ECDSA P-384 verification: key (x, y), message digest, signature (r, s) (R297, R443, R526). -/
opaque ecdsaOk : List Byte → List Byte → List Byte → Bool

/-- Whether 96 bytes x, y name a point on P-384 (OD 0x3200). -/
opaque onCurve : List Byte → Bool

/-- An ECDSA P-384 signature by the device identity key over a message (R442). -/
opaque attestSign : List Byte → List Byte

/-- The unwrapped weight key: package header and its wrapped-key record; none when the unwrap fails (R452). -/
opaque unwrapKey : List Byte → List Byte → Option (List Byte)

/-- AES-256-GCM: key, nonce, associated data, ciphertext with tag; none when the tag fails (R452). -/
opaque aesGcmOpen : List Byte → List Byte → List Byte → List Byte → Option (List Byte)

/-- Fresh random bytes: draw number and count (nonces of R442, R443, R466). -/
opaque random : Nat → Nat → List Byte

/-- Candidate result of a vector function the spec bounds only by an error (R110): function code, operand, parameter (FP32
codes), occasion; the machine takes it where it meets the bound. -/
opaque approx : Nat → Nat → Nat → Nat → Nat

/-- What the spec states no accuracy for (norms, softmax sums, R110, R111): function code and operands to an FP32 code. -/
opaque rowFn : Nat → List Nat → Nat

/-- The fixed summation tree of R111: which two of the sums still left the k-th addition takes. -/
opaque sumTree : Nat → Nat × Nat

/-- ROW_SUMSQ adds a² with one rounding, or rounds the square first (R108 says neither). -/
opaque sumsqFused : Bool

/-- Code lengths a derailleur builds from a page's symbol counts (R119), where they make a valid code (R145). -/
opaque kpwCode : List Nat → List Nat

/-- The default granule of a derailleur's operations other than TRANSPOSE, which no chapter states (R64). -/
opaque drlGranule : Nat

/-- The order in which BIND fills a stack of n free indices (R129): which of those left comes k-th. -/
opaque stackFill : Nat → Nat → Nat

/-- Fuse contents: device ID, public keys and certificates (R440, R455). -/
opaque deviceId : Nat
opaque idPubkey : List Byte
opaque idCert : List Byte
opaque bindPubkey : List Byte
opaque bindCert : List Byte

/-- Basryn's public keys in ROM: for debug responses (R443) and firmware images (R526). -/
opaque debugKey : List Byte
opaque firmwareKey : Nat → List Byte

/-- The image a hub is delivered with in slot A (R525): its FW_VERSION, its STORE_VER and its MIG_FROM (R527). -/
opaque factoryVersion : Nat
opaque factoryStore : Nat
opaque factoryMigFrom : Nat

/-- Units of 64 KiB of the guest-image area: what the flash holds behind 0x0180_0000 (R525: at least 32 MiB of flash). -/
opaque guestUnits : Nat

/-- SHA-384 of the image a hub is delivered with. -/
opaque factoryDigest : List Byte

/-- Basryn's PCI-SIG vendor ID (R412), which the spec names without a number. -/
opaque vendorId : Nat

/-- Which TENANT slots of an expert map MAINT takes in TEST and RECOVERY (R385 says how many): the k-th taken. -/
opaque maintPick : Nat → Nat

/-- Pseudo-random victim choices and set hashes the spec does not fix: draw number (R163, R192). -/
opaque victim : Nat → Nat

end Sys2Proof.Config
end

