-- ==== Sys2Proof/Machine/Dict.lean ====
section
/-!
DEFINITION. Machine/Dict.lean: the object dictionary's entries, one row per table row of the spec: index, sub-index,
type, access, default, session level and the plain range its Meaning column states (R13, R459, R462).
-/
namespace Sys2Proof.Machine

/-- The types of R459. -/
inductive OdType where
  | bool | u8 | u16 | u32 | u64 | i32 | str (n : Nat) | blob (n : Nat) | domain
deriving DecidableEq, Repr

/-- The access column. -/
inductive OdAcc where
  | ro | rw | wo | const | expertRw
deriving DecidableEq, Repr

/-- The session level column. -/
inductive OdLevel where
  | basic | expert
deriving DecidableEq, Repr

/-- The range a row states. A range that depends on other state is `any` here and is checked in Mgmt.lean. -/
inductive OdRange where
  | any | range (lo hi : Nat)
deriving DecidableEq, Repr

/-- A table row: entries base + stride * i (i < count) with sub-indices subLo to subHi. -/
structure OdRow where
  base   : Nat
  stride : Nat
  count  : Nat
  subLo  : Nat
  subHi  : Nat
  type   : OdType
  acc    : OdAcc
  dflt   : Nat
  level  : OdLevel
  range  : OdRange
deriving DecidableEq, Repr

/-- The rows, part 1. -/
def odRows1 : List OdRow := [
  ⟨0x6000, 0x1, 1, 0x1, 0x1, .u16, .expertRw, 4096, .expert, (.range 1 16384)⟩, -- DSP_QUEUE_OPS R74
  ⟨0x6000, 0x1, 1, 0x2, 0x2, .u32, .ro, 262144, .basic, .any⟩, -- DSP_FREE_QUEUES R74
  ⟨0x6001, 0x1, 1, 0x1, 0x1, .u32, .rw, 0, .basic, .any⟩, -- HOUSE_STATIONS R74
  ⟨0x6001, 0x1, 1, 0x2, 0x2, .bool, .rw, 0, .basic, .any⟩, -- DESC_ERR_KILL R74
  ⟨0x6100, 0x1, 1, 0x0, 0x0, .u8, .const, 3, .basic, .any⟩, -- count R102
  ⟨0x6100, 0x1, 1, 0x1, 0x1, .u16, .expertRw, 1800, .expert, (.range 400 1800)⟩, -- CRANK_CLK_MAX R102
  ⟨0x6100, 0x1, 1, 0x2, 0x2, .bool, .rw, 0, .basic, .any⟩, -- CRANK_LOST_KILL R102
  ⟨0x6100, 0x1, 1, 0x3, 0x3, .u8, .rw, 4, .basic, (.range 1 4)⟩, -- CRANK_AUTO_MAX R102
  ⟨0x6101, 0x1, 1, 0x0, 0x0, .u8, .const, 8, .basic, .any⟩, -- count R102
  ⟨0x6101, 0x1, 1, 0x1, 0x8, .u8, .ro, 0, .basic, .any⟩, -- CRANK_STATE R102
  ⟨0x6110, 0x1, 1, 0x0, 0x0, .u8, .const, 1, .basic, .any⟩, -- count R127
  ⟨0x6110, 0x1, 1, 0x1, 0x1, .bool, .rw, 0, .basic, .any⟩, -- VDR_LOST_KILL R127
  ⟨0x6111, 0x1, 1, 0x0, 0x0, .u8, .const, 8, .basic, .any⟩, -- count R127
  ⟨0x6111, 0x1, 1, 0x1, 0x8, .u8, .ro, 0, .basic, .any⟩, -- VEC_STATE R127
  ⟨0x6112, 0x1, 1, 0x0, 0x0, .u8, .const, 4, .basic, .any⟩, -- count R127
  ⟨0x6112, 0x1, 1, 0x1, 0x4, .u8, .ro, 0, .basic, .any⟩, -- DRL_STATE R127
  ⟨0x6120, 0x1, 1, 0x0, 0x0, .u8, .const, 1, .basic, .any⟩, -- count R152
  ⟨0x6120, 0x1, 1, 0x1, 0x1, .bool, .rw, 0, .basic, .any⟩, -- CAS_LOST_KILL R152
  ⟨0x6121, 0x1, 1, 0x0, 0x0, .u8, .const, 2, .basic, .any⟩, -- count R152
  ⟨0x6121, 0x1, 1, 0x1, 0x2, .u8, .ro, 0, .basic, .any⟩, -- CAS_STATE R152
  ⟨0x5000, 0x1, 1, 0x0, 0x0, .u8, .const, 6, .basic, .any⟩, -- count R186
  ⟨0x5000, 0x1, 1, 0x1, 0x1, .u8, .expertRw, 5, .expert, (.range 0 5)⟩, -- MEM_BIN_MAX R186
  ⟨0x5000, 0x1, 1, 0x2, 0x2, .u8, .expertRw, 0, .expert, .any⟩, -- MEM_BIN_MIN R186
  ⟨0x5000, 0x1, 1, 0x3, 0x3, .u64, .ro, 0, .basic, .any⟩, -- MEM_CAPACITY R186
  ⟨0x5000, 0x1, 1, 0x4, 0x4, .u64, .ro, 0, .basic, .any⟩, -- MEM_PORTS_LIVE R186
  ⟨0x5000, 0x1, 1, 0x5, 0x5, .u32, .ro, 0, .basic, .any⟩, -- MEM_STACKS R186
  ⟨0x5000, 0x1, 1, 0x6, 0x6, .u64, .ro, 0, .basic, .any⟩, -- MEM_PORT_CAP R186
  ⟨0x5010, 0x1, 1, 0x0, 0x0, .u8, .const, 4, .basic, .any⟩, -- count R186
  ⟨0x5010, 0x1, 1, 0x1, 0x1, .u8, .expertRw, 105, .expert, (.range 95 105)⟩, -- THERM_HOLD_C R186
  ⟨0x5010, 0x1, 1, 0x2, 0x2, .u16, .expertRw, 2000, .expert, (.range 500 2000)⟩, -- HOLD_WINDOW_US R186
  ⟨0x5010, 0x1, 1, 0x3, 0x3, .u16, .expertRw, 2000, .expert, (.range 2000 20000)⟩, -- REDUCED_US R186
  ⟨0x5010, 0x1, 1, 0x4, 0x4, .u8, .expertRw, 25, .expert, (.range 12 50)⟩, -- REDUCED_SHARE R186
  ⟨0x5020, 0x1, 1, 0x0, 0x0, .u8, .const, 4, .basic, .any⟩, -- count R186
  ⟨0x5020, 0x1, 1, 0x1, 0x1, .u8, .expertRw, 6, .expert, (.range 2 16)⟩, -- TRUE_MARGIN R186
  ⟨0x5020, 0x1, 1, 0x2, 0x2, .u16, .expertRw, 1000, .expert, (.range 250 1000)⟩, -- TRUE_PERIOD_US R186
  ⟨0x5020, 0x1, 1, 0x3, 0x3, .u8, .expertRw, 80, .expert, .any⟩, -- TRAIN_LOAD_PCT R186
  ⟨0x5020, 0x1, 1, 0x4, 0x4, .u32, .expertRw, 0, .expert, .any⟩, -- MIRROR_RESERVE R186
  ⟨0x5030, 0x1, 1, 0x0, 0x0, .u8, .const, 2, .basic, .any⟩, -- count R186
  ⟨0x5030, 0x1, 1, 0x1, 0x1, .u16, .rw, 24, .basic, (.range 0 168)⟩, -- SCRUB_HOURS R186
  ⟨0x5030, 0x1, 1, 0x2, 0x2, .bool, .expertRw, 0, .expert, .any⟩, -- CACHE_STREAM_MRU R186
  ⟨0x5100, 0x1, 64, 0x0, 0x0, .u8, .const, 7, .basic, .any⟩, -- count R186
  ⟨0x5100, 0x1, 64, 0x1, 0x1, .u64, .expertRw, 0, .expert, .any⟩, -- REGION_BASE R186
  ⟨0x5100, 0x1, 64, 0x2, 0x2, .u64, .expertRw, 0, .expert, .any⟩, -- REGION_SIZE R186
  ⟨0x5100, 0x1, 64, 0x3, 0x3, .bool, .expertRw, 0, .expert, .any⟩, -- REGION_MIRROR R186
  ⟨0x5100, 0x1, 64, 0x4, 0x4, .u8, .ro, 0, .basic, .any⟩, -- REGION_STATE R186
  ⟨0x5100, 0x1, 64, 0x5, 0x5, .u8, .expertRw, 0, .expert, .any⟩, -- REGION_CMD R186
  ⟨0x5100, 0x1, 64, 0x6, 0x6, .u64, .ro, 0, .basic, .any⟩, -- REGION_FENCE_DPA R186
  ⟨0x5100, 0x1, 64, 0x7, 0x7, .bool, .ro, 0, .basic, .any⟩, -- REGION_MIRROR_OK R186
  ⟨0x5400, 0x1, 1, 0x0, 0x0, .u8, .const, 3, .basic, .any⟩, -- count R212
  ⟨0x5400, 0x1, 1, 0x1, 0x1, .u32, .expertRw, 200, .expert, (.range 10 100000)⟩, -- SNOOP_TIMEOUT_US R212
  ⟨0x5400, 0x1, 1, 0x2, 0x2, .u32, .ro, 0, .basic, .any⟩, -- COH_DIR_ENTRIES R212
  ⟨0x5400, 0x1, 1, 0x3, 0x3, .u8, .ro, 0, .basic, .any⟩, -- COH_AGENTS_LIVE R212
  ⟨0x5410, 0x1, 1, 0x0, 0x0, .u8, .const, 152, .basic, .any⟩, -- count R212
  ⟨0x5410, 0x1, 1, 0x1, 0x98, .u8, .ro, 0, .basic, .any⟩, -- AGENT_STATE R212
  ⟨0x6200, 0x1, 1, 0x0, 0x0, .u8, .const, 8, .basic, .any⟩, -- count R256
  ⟨0x6200, 0x1, 1, 0x1, 0x1, .u32, .rw, 2000, .basic, (.range 1 600000)⟩, -- SYNC_WDOG_MS R256
  ⟨0x6200, 0x1, 1, 0x2, 0x2, .bool, .rw, 1, .basic, .any⟩, -- SYNC_WDOG_KILL R256
  ⟨0x6200, 0x1, 1, 0x3, 0x3, .u16, .expertRw, 1024, .expert, (.range 1 16384)⟩, -- SYNC_CTX_WAITERS R256
  ⟨0x6200, 0x1, 1, 0x4, 0x4, .bool, .expertRw, 0, .expert, .any⟩, -- SYNC_FAST_POST R256
  ⟨0x6200, 0x1, 1, 0x5, 0x5, .bool, .rw, 1, .basic, .any⟩ -- SYNC_AUDIT R256
  ]

/-- The rows, part 2. -/
def odRows2 : List OdRow := [
  ⟨0x6200, 0x1, 1, 0x6, 0x6, .u32, .ro, 0, .basic, .any⟩, -- SYNC_SEMS_FREE R256
  ⟨0x6200, 0x1, 1, 0x7, 0x7, .u16, .ro, 0, .basic, .any⟩, -- SYNC_WAITERS_USED R256
  ⟨0x6200, 0x1, 1, 0x8, 0x8, .u16, .ro, 0, .basic, .any⟩, -- SYNC_BARRIERS_ACTIVE R256
  ⟨0x3100, 0x1, 1, 0x0, 0x0, .u8, .const, 3, .basic, .any⟩, -- count R290
  ⟨0x3100, 0x1, 1, 0x1, 0x1, .u16, .expertRw, 10, .expert, (.range 1 100)⟩, -- SPK_TRUE_MS R290
  ⟨0x3100, 0x1, 1, 0x2, 0x2, .u8, .expertRw, 10, .expert, (.range 4 24)⟩, -- SPK_MARGIN R290
  ⟨0x3100, 0x1, 1, 0x3, 0x3, .u16, .expertRw, 16, .expert, (.range 1 1000)⟩, -- SPK_LANE_CE R290
  ⟨0x4030, 0x40, 32, 0x0, 0x0, .u8, .const, 3, .basic, .any⟩, -- count R290
  ⟨0x4030, 0x40, 32, 0x1, 0x1, .u8, .ro, 0, .basic, .any⟩, -- SPK_STATE R290
  ⟨0x4030, 0x40, 32, 0x2, 0x2, .u8, .ro, 0, .basic, .any⟩, -- SPK_WIDTH R290
  ⟨0x4030, 0x40, 32, 0x3, 0x3, .u16, .ro, 0, .basic, .any⟩, -- SPK_SPARES R290
  ⟨0x4000, 0x40, 34, 0x0, 0x0, .u8, .const, 15, .basic, .any⟩, -- count R319
  ⟨0x4000, 0x40, 34, 0x1, 0x1, .u8, .ro, 0, .basic, .any⟩, -- SITE_STATE R319
  ⟨0x4000, 0x40, 34, 0x2, 0x2, .u16, .ro, 0, .basic, .any⟩, -- SITE_VENDOR R319
  ⟨0x4000, 0x40, 34, 0x3, 0x3, .u16, .ro, 0, .basic, .any⟩, -- SITE_PRODUCT R319
  ⟨0x4000, 0x40, 34, 0x4, 0x4, .bool, .ro, 0, .basic, .any⟩, -- SITE_VERIFIED R319
  ⟨0x4000, 0x40, 34, 0x5, 0x5, .bool, .rw, 0, .basic, .any⟩, -- SITE_REQ_SIGNED R319
  ⟨0x4000, 0x40, 34, 0x6, 0x6, .bool, .rw, 0, .basic, .any⟩, -- SITE_EXCLUSIVE R319
  ⟨0x4000, 0x40, 34, 0x7, 0x7, .u16, .expertRw, 16, .expert, (.range 0 1000)⟩, -- SITE_VIO_LIMIT R319
  ⟨0x4000, 0x40, 34, 0x8, 0x8, .u32, .expertRw, 1000, .expert, (.range 1 600000)⟩, -- SITE_VIO_WINDOW_MS R319
  ⟨0x4000, 0x40, 34, 0x9, 0x9, .bool, .rw, 0, .basic, .any⟩, -- SITE_LOSS_KILL R319
  ⟨0x4000, 0x40, 34, 0xa, 0xa, .u8, .rw, 0, .basic, (.range 0 8)⟩, -- SITE_AUTO_READMIT R319
  ⟨0x4000, 0x40, 34, 0xb, 0xb, .u32, .expertRw, 1000, .expert, (.range 10 600000)⟩, -- SITE_LEASE_DRAIN_MS R319
  ⟨0x4000, 0x40, 34, 0xc, 0xc, .bool, .rw, 1, .basic, .any⟩, -- SITE_SEM_OK R319
  ⟨0x4000, 0x40, 34, 0xd, 0xd, .bool, .rw, 1, .basic, .any⟩, -- SITE_REDUCE_OK R319
  ⟨0x4000, 0x40, 34, 0xe, 0xe, (.blob 48), .ro, 0, .basic, .any⟩, -- SITE_DESC_DIGEST R319
  ⟨0x4000, 0x40, 34, 0xf, 0xf, .u8, .ro, 0, .basic, .any⟩, -- SITE_REFUSE R319
  ⟨0x3200, 0x1, 1, 0x0, 0x0, .u8, .const, 16, .basic, .any⟩, -- count R319
  ⟨0x3200, 0x1, 1, 0x1, 0x10, (.blob 100), .expertRw, 0, .expert, .any⟩, -- GUEST_KEY R319
  ⟨0x4880, 0x1, 1, 0x0, 0x0, .u8, .const, 3, .basic, .any⟩, -- count R336
  ⟨0x4880, 0x1, 1, 0x1, 0x1, .u8, .expertRw, 32, .expert, .any⟩, -- UCI_RATE_MAX R336
  ⟨0x4880, 0x1, 1, 0x2, 0x2, .u16, .expertRw, 16, .expert, (.range 1 1000)⟩, -- UCI_LANE_CE R336
  ⟨0x4880, 0x1, 1, 0x3, 0x3, .u8, .rw, 0, .basic, (.range 0 1)⟩, -- UCI_POLICY R336
  ⟨0x4801, 0x40, 2, 0x0, 0x0, .u8, .const, 3, .basic, .any⟩, -- count R336
  ⟨0x4801, 0x40, 2, 0x1, 0x1, .u8, .ro, 0, .basic, .any⟩, -- UCI_STATE R336
  ⟨0x4801, 0x40, 2, 0x2, 0x2, .u8, .ro, 0, .basic, .any⟩, -- UCI_RATE R336
  ⟨0x4801, 0x40, 2, 0x3, 0x3, .bool, .ro, 0, .basic, .any⟩, -- UCI_X32 R336
  ⟨0x3300, 0x1, 1, 0x0, 0x0, .u8, .const, 3, .basic, .any⟩, -- count R354
  ⟨0x3300, 0x1, 1, 0x1, 0x1, .u8, .expertRw, 16, .expert, (.range 4 64)⟩, -- RIM_RETRY_LIMIT R354
  ⟨0x3300, 0x1, 1, 0x2, 0x2, .u64, .ro, 0, .basic, .any⟩, -- RIM_CE_TOTAL R354
  ⟨0x3300, 0x1, 1, 0x3, 0x3, .u64, .ro, 0, .basic, .any⟩, -- RIM_RETRY_TOTAL R354
  ⟨0x6010, 0x1, 1, 0x0, 0x0, .u8, .const, 3, .basic, .any⟩, -- count R373
  ⟨0x6010, 0x1, 1, 0x1, 0x1, .u16, .ro, 0, .basic, .any⟩, -- CTX_ACTIVE R373
  ⟨0x6010, 0x1, 1, 0x2, 0x2, .u32, .expertRw, 65536, .expert, (.range 256 65536)⟩, -- ATC_CTX_MAX R373
  ⟨0x6010, 0x1, 1, 0x3, 0x3, .u32, .ro, 0, .basic, .any⟩, -- ATC_USED R373
  ⟨0x2100, 0x1, 1, 0x0, 0x0, .u8, .const, 2, .basic, .any⟩, -- count R389
  ⟨0x2100, 0x1, 1, 0x1, 0x1, .u8, .rw, 0, .basic, (.range 0 3)⟩, -- REG_PRESET R389
  ⟨0x2100, 0x1, 1, 0x2, 0x2, .bool, .rw, 0, .basic, .any⟩, -- REG_TEST R389
  ⟨0x3400, 0x1, 1, 0x0, 0x0, .u8, .const, 10, .basic, .any⟩, -- count R389
  ⟨0x3400, 0x1, 1, 0x1, 0x1, .bool, .expertRw, 0, .expert, .any⟩, -- REG_MAP_EN R389
  ⟨0x3400, 0x1, 1, 0x2, 0x5, .u64, .expertRw, 0, .expert, .any⟩, -- REG_MAP R389
  ⟨0x3400, 0x1, 1, 0x6, 0x6, .u8, .expertRw, 75, .expert, (.range 50 90)⟩, -- URG_CAP_PCT R389
  ⟨0x3400, 0x1, 1, 0x7, 0x7, .u16, .expertRw, 1024, .expert, (.range 16 8192)⟩, -- GUEST_RD_SITE R389
  ⟨0x3400, 0x1, 1, 0x8, 0x8, .u16, .expertRw, 1024, .expert, (.range 16 8192)⟩, -- GUEST_WR_SITE R389
  ⟨0x3400, 0x1, 1, 0x9, 0x9, .u16, .expertRw, 32, .expert, (.range 1 1024)⟩, -- GUEST_COH_AGENT R389
  ⟨0x3400, 0x1, 1, 0xa, 0xa, .u16, .expertRw, 64, .expert, (.range 1 16384)⟩, -- GUEST_SEM R389
  ⟨0x9000, 0x1, 1, 0x0, 0x0, .u8, .const, 8, .basic, .any⟩, -- count R408
  ⟨0x9000, 0x1, 1, 0x1, 0x1, .u8, .rw, 0, .basic, (.range 0 2)⟩, -- POD_ROLE R408
  ⟨0x9000, 0x1, 1, 0x2, 0x2, .u16, .rw, 0, .basic, .any⟩, -- POD_ID R408
  ⟨0x9000, 0x1, 1, 0x3, 0x3, .u16, .rw, 0, .basic, (.range 0 4095)⟩ -- POD_HUB R408
  ]

/-- The rows, part 3. -/
def odRows3 : List OdRow := [
  ⟨0x9000, 0x1, 1, 0x4, 0x4, .u16, .rw, 0, .basic, (.range 0 4095)⟩, -- POD_MANAGER R408
  ⟨0x9000, 0x1, 1, 0x5, 0x5, .u16, .expertRw, 34997, .expert, (.range 0x600 0xFFFF)⟩, -- POD_ETHERTYPE R408
  ⟨0x9000, 0x1, 1, 0x6, 0x6, .u16, .expertRw, 0, .expert, .any⟩, -- POD_VLAN R408
  ⟨0x9000, 0x1, 1, 0x7, 0x7, .u32, .rw, 5000, .basic, (.range 20 600000)⟩, -- POD_WDOG_MS R408
  ⟨0x9000, 0x1, 1, 0x8, 0x8, .u16, .rw, 100, .basic, (.range 10 1000)⟩, -- POD_BEAT_MS R408
  ⟨0x9001, 0x1, 1, 0x0, 0x0, .u8, .const, 1, .basic, .any⟩, -- count R408
  ⟨0x9001, 0x1, 1, 0x1, 0x1, (.blob 1024), .ro, 0, .basic, .any⟩, -- POD_ROSTER R408
  ⟨0x9002, 0x1, 1, 0x0, 0x0, .u8, .const, 64, .basic, .any⟩, -- count R408
  ⟨0x9002, 0x1, 1, 0x1, 0x40, .u32, .rw, 0, .basic, .any⟩, -- POD_BARRIER R408
  ⟨0x9010, 0x1, 1, 0x0, 0x0, .u8, .const, 2, .basic, .any⟩, -- count R408
  ⟨0x9010, 0x1, 1, 0x1, 0x1, .u16, .expertRw, 50, .expert, (.range 10 1000)⟩, -- POD_RTO_US R408
  ⟨0x9010, 0x1, 1, 0x2, 0x2, .u32, .expertRw, 1000, .expert, (.range 20 60000)⟩, -- POD_UNREACH_MS R408
  ⟨0x2200, 0x1, 1, 0x0, 0x0, .u8, .const, 4, .basic, .any⟩, -- count R433
  ⟨0x2200, 0x1, 1, 0x1, 0x1, .u8, .ro, 0, .basic, .any⟩, -- PCIE_GTS R433
  ⟨0x2200, 0x1, 1, 0x2, 0x2, .u8, .ro, 0, .basic, .any⟩, -- PCIE_WIDTH R433
  ⟨0x2200, 0x1, 1, 0x3, 0x3, .u8, .ro, 0, .basic, .any⟩, -- PCIE_VFS R433
  ⟨0x2200, 0x1, 1, 0x4, 0x4, .u16, .ro, 64, .basic, .any⟩, -- PCIE_BAR4_GIB R433
  ⟨0x3500, 0x1, 1, 0x0, 0x0, .u8, .const, 3, .basic, .any⟩, -- count R433
  ⟨0x3500, 0x1, 1, 0x1, 0x1, .u8, .expertRw, 64, .expert, .any⟩, -- PCIE_MAX_GTS R433
  ⟨0x3500, 0x1, 1, 0x2, 0x2, .u16, .expertRw, 4096, .expert, (.range 256 15360)⟩, -- PCIE_RD_TAGS R433
  ⟨0x3500, 0x1, 1, 0x3, 0x3, .u16, .expertRw, 256, .expert, (.range 64 4096)⟩, -- PCIE_WR_BACKLOG_KIB R433
  ⟨0x8000, 0x1, 1, 0x0, 0x0, .u8, .const, 5, .basic, .any⟩, -- count R455
  ⟨0x8000, 0x1, 1, 0x1, 0x1, .u8, .ro, 0, .basic, .any⟩, -- LC_STATE R455
  ⟨0x8000, 0x1, 1, 0x2, 0x2, .u8, .ro, 0, .basic, .any⟩, -- LC_CELLS R455
  ⟨0x8000, 0x1, 1, 0x3, 0x3, .bool, .ro, 0, .basic, .any⟩, -- LC_INCOMPLETE R455
  ⟨0x8000, 0x1, 1, 0x4, 0x4, .u32, .wo, 0, .expert, .any⟩, -- LC_SCRAP R455
  ⟨0x8000, 0x1, 1, 0x5, 0x5, .u8, .ro, 0, .basic, .any⟩, -- LC_RESULT R455
  ⟨0x8010, 0x1, 1, 0x0, 0x0, .u8, .const, 7, .basic, .any⟩, -- count R455
  ⟨0x8010, 0x1, 1, 0x1, 0x1, .u64, .const, 0, .basic, .any⟩, -- DEVICE_ID R455
  ⟨0x8010, 0x1, 1, 0x2, 0x2, (.blob 96), .ro, 0, .basic, .any⟩, -- ID_PUBKEY R455
  ⟨0x8010, 0x1, 1, 0x3, 0x3, .domain, .ro, 0, .basic, .any⟩, -- ID_CERT R455
  ⟨0x8010, 0x1, 1, 0x4, 0x4, (.blob 96), .ro, 0, .basic, .any⟩, -- BIND_PUBKEY R455
  ⟨0x8010, 0x1, 1, 0x5, 0x5, .domain, .ro, 0, .basic, .any⟩, -- BIND_CERT R455
  ⟨0x8010, 0x1, 1, 0x6, 0x6, (.blob 48), .wo, 0, .basic, .any⟩, -- ATTEST_NONCE R455
  ⟨0x8010, 0x1, 1, 0x7, 0x7, (.blob 160), .ro, 0, .basic, .any⟩, -- ATTEST R455
  ⟨0x8020, 0x1, 1, 0x0, 0x0, .u8, .const, 4, .basic, .any⟩, -- count R455
  ⟨0x8020, 0x1, 1, 0x1, 0x1, (.blob 48), .ro, 0, .basic, .any⟩, -- DBG_NONCE R455
  ⟨0x8020, 0x1, 1, 0x2, 0x2, (.blob 96), .wo, 0, .expert, .any⟩, -- DBG_RESPONSE R455
  ⟨0x8020, 0x1, 1, 0x3, 0x3, .bool, .ro, 0, .basic, .any⟩, -- DBG_OPEN R455
  ⟨0x8020, 0x1, 1, 0x4, 0x4, .u8, .ro, 0, .basic, .any⟩, -- DBG_FAILS R455
  ⟨0x8030, 0x1, 1, 0x0, 0x0, .u8, .const, 2, .basic, .any⟩, -- count R455
  ⟨0x8030, 0x1, 1, 0x1, 0x1, .bool, .expertRw, 0, .expert, .any⟩, -- OPDBG R455
  ⟨0x8030, 0x1, 1, 0x2, 0x2, .u32, .ro, 0, .basic, .any⟩, -- OPDBG_COUNT R455
  ⟨0x8040, 0x1, 1, 0x0, 0x0, .u8, .const, 2, .basic, .any⟩, -- count R455
  ⟨0x8040, 0x1, 1, 0x1, 0x1, .u8, .ro, 0, .basic, .any⟩, -- BIND_QUEUED R455
  ⟨0x8040, 0x1, 1, 0x2, 0x2, .u8, .ro, 255, .basic, .any⟩, -- BIND_ACTIVE R455
  ⟨0x8080, 0x1, 64, 0x0, 0x0, .u8, .const, 9, .basic, .any⟩, -- count R455
  ⟨0x8080, 0x1, 64, 0x1, 0x1, .bool, .expertRw, 0, .expert, .any⟩, -- BIND_EN R455
  ⟨0x8080, 0x1, 64, 0x2, 0x2, .u16, .expertRw, 0, .expert, .any⟩, -- BIND_SRC_CTX R455
  ⟨0x8080, 0x1, 64, 0x3, 0x3, .u64, .expertRw, 0, .expert, .any⟩, -- BIND_SRC_VA R455
  ⟨0x8080, 0x1, 64, 0x4, 0x4, .u64, .expertRw, 0, .expert, .any⟩, -- BIND_PKG_LEN R455
  ⟨0x8080, 0x1, 64, 0x5, 0x5, (.blob 16), .expertRw, 0, .expert, .any⟩, -- BIND_USERS R455
  ⟨0x8080, 0x1, 64, 0x6, 0x6, .u8, .expertRw, 0, .expert, .any⟩, -- BIND_CMD R455
  ⟨0x8080, 0x1, 64, 0x7, 0x7, .u8, .ro, 0, .basic, .any⟩, -- BIND_STATUS R455
  ⟨0x8080, 0x1, 64, 0x8, 0x8, .u32, .ro, 0, .basic, .any⟩, -- BIND_FAIL_CHUNK R455
  ⟨0x8080, 0x1, 64, 0x9, 0x9, (.blob 48), .ro, 0, .basic, .any⟩, -- BIND_PKG_DIGEST R455
  ⟨0x1000, 0x1, 1, 0x0, 0x0, .u8, .const, 6, .basic, .any⟩, -- count R489
  ⟨0x1000, 0x1, 1, 0x1, 0x1, .u16, .const, 0, .basic, .any⟩, -- PART R489
  ⟨0x1000, 0x1, 1, 0x2, 0x2, .u8, .const, 0, .basic, .any⟩, -- STEPPING R489
  ⟨0x1000, 0x1, 1, 0x3, 0x3, .u32, .ro, 0, .basic, .any⟩ -- FW_VERSION R489
  ]

/-- The rows, part 4. -/
def odRows4 : List OdRow := [
  ⟨0x1000, 0x1, 1, 0x4, 0x4, .u16, .expertRw, 0, .expert, .any⟩, -- SUBSYS_VENDOR R489
  ⟨0x1000, 0x1, 1, 0x5, 0x5, .u16, .expertRw, 0, .expert, .any⟩, -- SUBSYS_ID R489
  ⟨0x1000, 0x1, 1, 0x6, 0x6, (.str 32), .rw, 0, .basic, .any⟩, -- LABEL R489
  ⟨0x1001, 0x1, 1, 0x0, 0x0, .u8, .const, 5, .basic, .any⟩, -- count R489
  ⟨0x1001, 0x1, 1, 0x1, 0x1, .u32, .expertRw, 1000, .expert, (.range 100 10000)⟩, -- MGMT_WDOG_MS R489
  ⟨0x1001, 0x1, 1, 0x2, 0x2, .u32, .ro, 0, .basic, .any⟩, -- CTL_RESTARTS R489
  ⟨0x1001, 0x1, 1, 0x3, 0x3, .u64, .ro, 0, .basic, .any⟩, -- CTL_UPTIME_S R489
  ⟨0x1001, 0x1, 1, 0x4, 0x4, .u32, .ro, 0, .basic, .any⟩, -- EPOCH R489
  ⟨0x1001, 0x1, 1, 0x5, 0x5, .u32, .ro, 0, .basic, .any⟩, -- SRAM_CE R489
  ⟨0x1010, 0x1, 1, 0x0, 0x0, .u8, .const, 4, .basic, .any⟩, -- count R489
  ⟨0x1010, 0x1, 1, 0x1, 0x1, .u32, .ro, 0, .basic, .any⟩, -- STORE_GEN R489
  ⟨0x1010, 0x1, 1, 0x2, 0x2, .bool, .ro, 0, .basic, .any⟩, -- STORE_PENDING R489
  ⟨0x1010, 0x1, 1, 0x3, 0x3, .bool, .ro, 1, .basic, .any⟩, -- STORE_OK R489
  ⟨0x1010, 0x1, 1, 0x4, 0x4, .u8, .expertRw, 0, .expert, .any⟩, -- STORE_CMD R489
  ⟨0x1100, 0x1, 1, 0x0, 0x0, .u8, .const, 3, .basic, .any⟩, -- count R489
  ⟨0x1100, 0x1, 1, 0x1, 0x1, .u8, .expertRw, 2, .expert, (.range 0 2)⟩, -- MBX_RIGHTS R489
  ⟨0x1100, 0x1, 1, 0x2, 0x2, .bool, .expertRw, 1, .expert, .any⟩, -- FIELD_ENABLE R489
  ⟨0x1100, 0x1, 1, 0x3, 0x3, .bool, .expertRw, 1, .expert, .any⟩, -- SB_WRITE_OK R489
  ⟨0x1200, 0x1, 1, 0x0, 0x0, .u8, .const, 3, .basic, .any⟩, -- count R489
  ⟨0x1200, 0x1, 1, 0x1, 0x1, (.blob 32), .wo, 0, .expert, .any⟩, -- SEGMENT_KEY R489
  ⟨0x1200, 0x1, 1, 0x2, 0x2, (.blob 32), .wo, 0, .expert, .any⟩, -- EXPERT_KEY R489
  ⟨0x1200, 0x1, 1, 0x3, 0x3, .u8, .ro, 0, .basic, .any⟩, -- KEYS_SET R489
  ⟨0x1210, 0x1, 1, 0x0, 0x0, .u8, .const, 4, .basic, .any⟩, -- count R489
  ⟨0x1210, 0x1, 1, 0x1, 0x1, (.blob 32), .ro, 0, .basic, .any⟩, -- EXPERT_NONCE R489
  ⟨0x1210, 0x1, 1, 0x2, 0x2, (.blob 16), .wo, 0, .basic, .any⟩, -- EXPERT_PROOF R489
  ⟨0x1210, 0x1, 1, 0x3, 0x3, .bool, .rw, 0, .basic, .any⟩, -- EXPERT_ACTIVE R489
  ⟨0x1210, 0x1, 1, 0x4, 0x4, .u32, .expertRw, 900, .expert, (.range 60 86400)⟩, -- EXPERT_IDLE_S R489
  ⟨0x1040, 0x1, 1, 0x0, 0x0, .u8, .const, 1, .basic, .any⟩, -- count R489
  ⟨0x1040, 0x1, 1, 0x1, 0x1, .u8, .expertRw, 75, .expert, (.range 8 119)⟩, -- SB_ADDR R489
  ⟨0x2000, 0x1, 1, 0x0, 0x0, .u8, .const, 1, .basic, .any⟩, -- count R489
  ⟨0x2000, 0x1, 1, 0x1, 0x1, .bool, .rw, 1, .basic, .any⟩, -- DRV_RESET_OK R489
  ⟨0x1020, 0x1, 1, 0x0, 0x0, .u8, .const, 11, .basic, .any⟩, -- count R490
  ⟨0x1020, 0x1, 1, 0x1, 0x1, .u64, .expertRw, 0, .expert, .any⟩, -- MAC R490
  ⟨0x1020, 0x1, 1, 0x2, 0x2, .bool, .rw, 0, .basic, .any⟩, -- PLCA_EN R490
  ⟨0x1020, 0x1, 1, 0x3, 0x3, .u8, .rw, 255, .basic, .any⟩, -- PLCA_NODE R490
  ⟨0x1020, 0x1, 1, 0x4, 0x4, .u8, .rw, 8, .basic, (.range 1 255)⟩, -- PLCA_COUNT R490
  ⟨0x1020, 0x1, 1, 0x5, 0x5, .u8, .expertRw, 32, .expert, (.range 1 255)⟩, -- PLCA_TO R490
  ⟨0x1020, 0x1, 1, 0x6, 0x6, .u8, .expertRw, 0, .expert, (.range 0 255)⟩, -- PLCA_BURST R490
  ⟨0x1020, 0x1, 1, 0x7, 0x7, .u8, .expertRw, 128, .expert, (.range 1 255)⟩, -- PLCA_BURST_TMR R490
  ⟨0x1020, 0x1, 1, 0x8, 0x8, .u16, .expertRw, 28470, .expert, (.range 1024 65535)⟩, -- KMP_PORT R490
  ⟨0x1020, 0x1, 1, 0x9, 0x9, (.blob 64), .rw, 0, .basic, .any⟩, -- NOTIFY_DEST R490
  ⟨0x1020, 0x1, 1, 0xa, 0xa, .u8, .expertRw, 0, .expert, (.range 0 31)⟩, -- PHY_ADDR R490
  ⟨0x1020, 0x1, 1, 0xb, 0xb, .bool, .ro, 0, .basic, .any⟩, -- DAD_FAILED R490
  ⟨0x1021, 0x1, 1, 0x0, 0x0, .u8, .const, 13, .basic, .any⟩, -- count R490
  ⟨0x1021, 0x1, 1, 0x1, 0x1, .u64, .ro, 0, .basic, .any⟩, -- RX_FRAMES R490
  ⟨0x1021, 0x1, 1, 0x2, 0x2, .u64, .ro, 0, .basic, .any⟩, -- TX_FRAMES R490
  ⟨0x1021, 0x1, 1, 0x3, 0x3, .u32, .ro, 0, .basic, .any⟩, -- FCS_ERR R490
  ⟨0x1021, 0x1, 1, 0x4, 0x4, .u32, .ro, 0, .basic, .any⟩, -- RX_ER R490
  ⟨0x1021, 0x1, 1, 0x5, 0x5, .u32, .ro, 0, .basic, .any⟩, -- COLLISIONS R490
  ⟨0x1021, 0x1, 1, 0x6, 0x6, .u32, .ro, 0, .basic, .any⟩, -- LATE_COLL R490
  ⟨0x1021, 0x1, 1, 0x7, 0x7, .u32, .ro, 0, .basic, .any⟩, -- BEACON_LOSS R490
  ⟨0x1021, 0x1, 1, 0x8, 0x8, .u32, .ro, 0, .basic, .any⟩, -- STRANGERS R490
  ⟨0x1021, 0x1, 1, 0x9, 0x9, .u32, .ro, 0, .basic, .any⟩, -- REPLAYS R490
  ⟨0x1021, 0x1, 1, 0xa, 0xa, .u32, .ro, 0, .basic, .any⟩, -- NOTIFY_RESENT R490
  ⟨0x1021, 0x1, 1, 0xb, 0xb, .u32, .ro, 0, .basic, .any⟩, -- NOTIFY_DROPPED R490
  ⟨0x1021, 0x1, 1, 0xc, 0xc, .u32, .ro, 0, .basic, .any⟩, -- TX_ABORT R490
  ⟨0x1021, 0x1, 1, 0xd, 0xd, .u32, .ro, 0, .basic, .any⟩, -- RX_OTHER R490
  ⟨0xb000, 0x1, 1, 0x0, 0x0, .u8, .const, 3, .basic, .any⟩, -- count R490
  ⟨0xb000, 0x1, 1, 0x1, 0x1, (.str 8), .rw, 0, .basic, .any⟩, -- OVL_ACTIVE R490
  ⟨0xb000, 0x1, 1, 0x2, 0x2, .u8, .ro, 0, .basic, .any⟩ -- OVL_COUNT R490
  ]

/-- The rows, part 5. -/
def odRows5 : List OdRow := [
  ⟨0xb000, 0x1, 1, 0x3, 0x3, (.blob 128), .ro, 0, .basic, .any⟩, -- OVL_LIST R490
  ⟨0xb010, 0x1, 1, 0x0, 0x0, .u8, .const, 5, .basic, .any⟩, -- count R490
  ⟨0xb010, 0x1, 1, 0x1, 0x1, (.str 8), .expertRw, 0, .expert, .any⟩, -- OVL_EDIT_NAME R490
  ⟨0xb010, 0x1, 1, 0x2, 0x2, .u8, .expertRw, 0, .expert, .any⟩, -- OVL_EDIT_CMD R490
  ⟨0xb010, 0x1, 1, 0x3, 0x3, .u32, .expertRw, 0, .expert, .any⟩, -- OVL_EDIT_ENTRY R490
  ⟨0xb010, 0x1, 1, 0x4, 0x4, (.blob 64), .expertRw, 0, .expert, .any⟩, -- OVL_EDIT_VALUE R490
  ⟨0xb010, 0x1, 1, 0x5, 0x5, .u8, .ro, 0, .expert, .any⟩, -- OVL_EDIT_RESULT R490
  ⟨0x7000, 0x1, 1, 0x0, 0x0, .u8, .const, 15, .basic, .any⟩, -- count R507
  ⟨0x7000, 0x1, 1, 0x1, 0x1, .u32, .expertRw, 10, .expert, (.range 2 10000)⟩, -- COAST_IDLE_US R507
  ⟨0x7000, 0x1, 1, 0x2, 0x2, .u32, .rw, 50, .basic, .any⟩, -- PARK_AFTER_MS R507
  ⟨0x7000, 0x1, 1, 0x3, 0x3, .bool, .rw, 1, .basic, .any⟩, -- KICK_EN R507
  ⟨0x7000, 0x1, 1, 0x4, 0x4, .bool, .rw, 0, .basic, .any⟩, -- KICK_RETAIN R507
  ⟨0x7000, 0x1, 1, 0x5, 0x5, .u8, .expertRw, 0, .expert, (.range 0 2)⟩, -- EXPERT_HOLD R507
  ⟨0x7000, 0x1, 1, 0x6, 0x6, .u16, .expertRw, 380, .expert, (.range 100 380)⟩, -- POWER_LIMIT_W R507
  ⟨0x7000, 0x1, 1, 0x7, 0x7, .u8, .expertRw, 100, .expert, (.range 85 104)⟩, -- TJ_LIMIT_C R507
  ⟨0x7000, 0x1, 1, 0x8, 0x8, .u8, .ro, 0, .basic, .any⟩, -- PWR_STATE R507
  ⟨0x7000, 0x1, 1, 0x9, 0x9, .u8, .ro, 0, .basic, .any⟩, -- VDD_LEVEL R507
  ⟨0x7000, 0x1, 1, 0xa, 0xa, .u64, .ro, 0, .basic, .any⟩, -- RTC R507
  ⟨0x7000, 0x1, 1, 0xb, 0xb, .u64, .rw, 0, .basic, .any⟩, -- RTC_ALARM R507
  ⟨0x7000, 0x1, 1, 0xc, 0xc, .u16, .ro, 0, .basic, .any⟩, -- POWER_W R507
  ⟨0x7000, 0x1, 1, 0xd, 0xd, .u8, .wo, 0, .basic, .any⟩, -- WAKE_REQ R507
  ⟨0x7000, 0x1, 1, 0xe, 0xe, .u16, .expertRw, 1000, .expert, (.range 100 10000)⟩, -- AVS_TIMEOUT_US R507
  ⟨0x7000, 0x1, 1, 0xf, 0xf, .u8, .expertRw, 4, .expert, (.range 1 4)⟩, -- VDD_MAX_LEVEL R507
  ⟨0x7010, 0x1, 1, 0x0, 0x0, .u8, .const, 8, .basic, .any⟩, -- count R507
  ⟨0x7010, 0x1, 1, 0x1, 0x7, .u32, .ro, 0, .basic, .any⟩, -- REFUSALS R507
  ⟨0x7010, 0x1, 1, 0x8, 0x8, .u8, .ro, 0, .basic, .any⟩, -- LAST_REFUSER R507
  ⟨0x7011, 0x1, 1, 0x0, 0x0, .u8, .const, 34, .basic, .any⟩, -- count R507
  ⟨0x7011, 0x1, 1, 0x1, 0x22, .u32, .ro, 0, .basic, .any⟩, -- SITE_REFUSALS R507
  ⟨0x7020, 0x1, 1, 0x0, 0x0, .u8, .const, 4, .basic, .any⟩, -- count R507
  ⟨0x7020, 0x1, 1, 0x1, 0x1, .u8, .ro, 0, .basic, .any⟩, -- WAKE_SOURCE R507
  ⟨0x7020, 0x1, 1, 0x2, 0x2, .u8, .ro, 0, .basic, .any⟩, -- WAKE_FROM R507
  ⟨0x7020, 0x1, 1, 0x3, 0x3, .u64, .ro, 0, .basic, .any⟩, -- WAKE_RTC R507
  ⟨0x7020, 0x1, 1, 0x4, 0x4, .u32, .ro, 0, .basic, .any⟩, -- WAKE_COUNT R507
  ⟨0x4010, 0x40, 34, 0x0, 0x0, .u8, .const, 4, .basic, .any⟩, -- count R524
  ⟨0x4010, 0x40, 34, 0x1, 0x1, .u8, .rw, 0, .basic, (.range 0 1)⟩, -- SITE_POLICY R524
  ⟨0x4010, 0x40, 34, 0x2, 0x2, .u8, .ro, 0, .basic, .any⟩, -- FW_STATUS R524
  ⟨0x4010, 0x40, 34, 0x3, 0x3, .u8, .ro, 0, .basic, .any⟩, -- FW_ROUNDS R524
  ⟨0x4010, 0x40, 34, 0x4, 0x4, .u32, .ro, 0, .basic, .any⟩, -- FW_MISSED R524
  ⟨0x1300, 0x1, 1, 0x0, 0x0, .u8, .const, 15, .basic, .any⟩, -- count R537
  ⟨0x1300, 0x1, 1, 0x1, 0x1, .u8, .ro, 0, .basic, .any⟩, -- FWU_STATE R537
  ⟨0x1300, 0x1, 1, 0x2, 0x2, .u8, .expertRw, 0, .expert, (.range 0 1)⟩, -- FWU_TARGET R537
  ⟨0x1300, 0x1, 1, 0x3, 0x3, .u64, .expertRw, 0, .expert, .any⟩, -- FWU_GUEST R537
  ⟨0x1300, 0x1, 1, 0x4, 0x4, .u32, .expertRw, 0, .expert, .any⟩, -- FWU_LENGTH R537
  ⟨0x1300, 0x1, 1, 0x5, 0x5, .u8, .expertRw, 0, .expert, .any⟩, -- FWU_CMD R537
  ⟨0x1300, 0x1, 1, 0x6, 0x6, .u32, .ro, 0, .basic, .any⟩, -- FWU_OFFSET R537
  ⟨0x1300, 0x1, 1, 0x7, 0x7, (.blob 1024), .wo, 0, .expert, .any⟩, -- FWU_DATA R537
  ⟨0x1300, 0x1, 1, 0x8, 0x8, .u8, .ro, 0, .basic, .any⟩, -- FWU_RESULT R537
  ⟨0x1300, 0x1, 1, 0x9, 0x9, .u16, .ro, 0, .basic, .any⟩, -- SLOT_STATE R537
  ⟨0x1300, 0x1, 1, 0xa, 0xa, .u32, .ro, 0, .basic, .any⟩, -- SLOT_VER_A R537
  ⟨0x1300, 0x1, 1, 0xb, 0xb, .u32, .ro, 0, .basic, .any⟩, -- SLOT_VER_B R537
  ⟨0x1300, 0x1, 1, 0xc, 0xc, .u32, .rw, 300, .basic, .any⟩, -- AUTO_CONFIRM_S R537
  ⟨0x1300, 0x1, 1, 0xd, 0xd, .u16, .ro, 0, .basic, .any⟩, -- STORE_VER R537
  ⟨0x1300, 0x1, 1, 0xe, 0xe, .domain, .ro, 0, .basic, .any⟩, -- GUEST_DIR R537
  ⟨0x1300, 0x1, 1, 0xf, 0xf, .u8, .ro, 0, .basic, .any⟩, -- FALLBACK R537
  ⟨0xa000, 0x1, 1, 0x0, 0x0, .u8, .const, 4, .basic, .any⟩, -- count R554
  ⟨0xa000, 0x1, 1, 0x1, 0x1, .bool, .rw, 1, .basic, .any⟩, -- FATAL_AUTO_RESET R554
  ⟨0xa000, 0x1, 1, 0x2, 0x2, .u8, .ro, 0, .basic, .any⟩, -- FATAL_LAST R554
  ⟨0xa000, 0x1, 1, 0x3, 0x3, .u32, .ro, 0, .basic, .any⟩, -- FATAL_COUNT R554
  ⟨0xa000, 0x1, 1, 0x4, 0x4, .u32, .ro, 0, .basic, .any⟩, -- FAULT_LOST R554
  ⟨0xa001, 0x1, 1, 0x0, 0x0, .u8, .const, 3, .basic, .any⟩ -- count R554
  ]

/-- The rows, part 6. -/
def odRows6 : List OdRow := [
  ⟨0xa001, 0x1, 1, 0x1, 0x1, .domain, .ro, 0, .basic, .any⟩, -- TRACE_BUF R554
  ⟨0xa001, 0x1, 1, 0x2, 0x2, .u16, .rw, 0, .basic, .any⟩, -- TRACE_CLASSES R554
  ⟨0xa001, 0x1, 1, 0x3, 0x3, .bool, .rw, 0, .basic, .any⟩, -- TRACE_EN R554
  ⟨0xa040, 0x1, 1, 0x0, 0x0, .u8, .const, 6, .basic, .any⟩, -- count R554
  ⟨0xa040, 0x1, 1, 0x1, 0x1, .u64, .expertRw, 0, .expert, .any⟩, -- DBG_MEM_DPA R554
  ⟨0xa040, 0x1, 1, 0x2, 0x2, .u8, .expertRw, 1, .expert, (.range 1 32)⟩, -- DBG_MEM_SECTORS R554
  ⟨0xa040, 0x1, 1, 0x3, 0x3, .u8, .expertRw, 0, .expert, .any⟩, -- DBG_MEM_CMD R554
  ⟨0xa040, 0x1, 1, 0x4, 0x4, (.blob 1024), .ro, 0, .expert, .any⟩, -- DBG_MEM_DATA R554
  ⟨0xa040, 0x1, 1, 0x5, 0x5, .u32, .ro, 0, .expert, .any⟩, -- DBG_MEM_POISON R554
  ⟨0xa040, 0x1, 1, 0x6, 0x6, .u8, .ro, 0, .expert, .any⟩, -- DBG_MEM_RESULT R554
  ⟨0x4020, 0x40, 32, 0x0, 0x0, .u8, .const, 4, .basic, .any⟩, -- count R566
  ⟨0x4020, 0x40, 32, 0x1, 0x1, .u16, .expertRw, 750, .expert, (.range 650 950)⟩, -- SITE_VDD_MV R566
  ⟨0x4020, 0x40, 32, 0x2, 0x2, .u8, .expertRw, 0, .expert, .any⟩, -- SITE_PMBUS_ADDR R566
  ⟨0x4020, 0x40, 32, 0x3, 0x3, .u16, .ro, 0, .basic, .any⟩, -- SITE_IOUT_A R566
  ⟨0x4020, 0x40, 32, 0x4, 0x4, .u32, .ro, 0, .basic, .any⟩, -- SITE_PWR_FAULTS R566
  ⟨0x7030, 0x1, 1, 0x0, 0x0, .u8, .const, 2, .basic, .any⟩, -- count R566
  ⟨0x7030, 0x1, 1, 0x1, 0x1, .i32, .ro, 0, .basic, .any⟩, -- TJ_MAX R566
  ⟨0x7030, 0x1, 1, 0x2, 0x2, .u32, .ro, 0, .basic, .any⟩, -- TJ_TRIPS R566
  ⟨0x7031, 0x1, 1, 0x0, 0x0, .u8, .const, 64, .basic, .any⟩, -- count R566
  ⟨0x7031, 0x1, 1, 0x1, 0x40, .i32, .ro, 0, .basic, .any⟩ -- TJ R566
  ]

/-- Every row of the dictionary tables. -/
def odRows : List OdRow := odRows1 ++ odRows2 ++ odRows3 ++ odRows4 ++ odRows5 ++ odRows6

/-- The key of the entry index.sub. -/
def odKey (index sub : Nat) : Nat := index * 256 + sub

/-- The row that gives entry `k`; none where the dictionary has no such entry. -/
def odRow? (k : Nat) : Option OdRow :=
  odRows.find? fun r =>
    let i := k / 256
    let s := k % 256
    decide (r.subLo ≤ s) && decide (s ≤ r.subHi) && decide (r.base ≤ i) &&
      decide ((i - r.base) % r.stride = 0) && decide ((i - r.base) / r.stride < r.count)

/-- Bytes of a value of a type; a STR or BLOB has its fixed size, a DOMAIN its content's (R459). -/
def OdType.size : OdType → Nat
  | .bool => 1 | .u8 => 1 | .u16 => 2 | .u32 => 4 | .u64 => 8 | .i32 => 4
  | .str n => n | .blob n => n | .domain => 0

namespace OD

def dspQueueOps : Nat := 0x600001
def dspFreeQueues : Nat := 0x600002
def houseStations : Nat := 0x600101
def descErrKill : Nat := 0x600102
def crankClkMax : Nat := 0x610001
def crankLostKill : Nat := 0x610002
def crankAutoMax : Nat := 0x610003
def crankState (i : Nat) : Nat := 0x610101 + i
def vdrLostKill : Nat := 0x611001
def vecState (i : Nat) : Nat := 0x611101 + i
def drlState (i : Nat) : Nat := 0x611201 + i
def casLostKill : Nat := 0x612001
def casState (i : Nat) : Nat := 0x612101 + i
def memBinMax : Nat := 0x500001
def memBinMin : Nat := 0x500002
def memCapacity : Nat := 0x500003
def memPortsLive : Nat := 0x500004
def memStacks : Nat := 0x500005
def memPortCap : Nat := 0x500006
def thermHoldC : Nat := 0x501001
def holdWindowUs : Nat := 0x501002
def reducedUs : Nat := 0x501003
def reducedShare : Nat := 0x501004
def trueMargin : Nat := 0x502001
def truePeriodUs : Nat := 0x502002
def trainLoadPct : Nat := 0x502003
def mirrorReserve : Nat := 0x502004
def scrubHours : Nat := 0x503001
def cacheStreamMru : Nat := 0x503002
def regionBase (i : Nat) : Nat := 0x510001 + 0x100 * i
def regionSize (i : Nat) : Nat := 0x510002 + 0x100 * i
def regionMirror (i : Nat) : Nat := 0x510003 + 0x100 * i
def regionState (i : Nat) : Nat := 0x510004 + 0x100 * i
def regionCmd (i : Nat) : Nat := 0x510005 + 0x100 * i
def regionFenceDpa (i : Nat) : Nat := 0x510006 + 0x100 * i
def regionMirrorOk (i : Nat) : Nat := 0x510007 + 0x100 * i
def snoopTimeoutUs : Nat := 0x540001
def cohDirEntries : Nat := 0x540002
def cohAgentsLive : Nat := 0x540003
def agentState (i : Nat) : Nat := 0x541001 + i
def syncWdogMs : Nat := 0x620001
def syncWdogKill : Nat := 0x620002
def syncCtxWaiters : Nat := 0x620003
def syncFastPost : Nat := 0x620004
def syncAudit : Nat := 0x620005
def syncSemsFree : Nat := 0x620006
def syncWaitersUsed : Nat := 0x620007
def syncBarriersActive : Nat := 0x620008
def spkTrueMs : Nat := 0x310001
def spkMargin : Nat := 0x310002
def spkLaneCe : Nat := 0x310003
def spkState (i : Nat) : Nat := 0x403001 + 0x4000 * i
def spkWidth (i : Nat) : Nat := 0x403002 + 0x4000 * i
def spkSpares (i : Nat) : Nat := 0x403003 + 0x4000 * i
def siteState (i : Nat) : Nat := 0x400001 + 0x4000 * i
def siteVendor (i : Nat) : Nat := 0x400002 + 0x4000 * i
def siteProduct (i : Nat) : Nat := 0x400003 + 0x4000 * i
def siteVerified (i : Nat) : Nat := 0x400004 + 0x4000 * i
def siteReqSigned (i : Nat) : Nat := 0x400005 + 0x4000 * i
def siteExclusive (i : Nat) : Nat := 0x400006 + 0x4000 * i
def siteVioLimit (i : Nat) : Nat := 0x400007 + 0x4000 * i
def siteVioWindowMs (i : Nat) : Nat := 0x400008 + 0x4000 * i
def siteLossKill (i : Nat) : Nat := 0x400009 + 0x4000 * i
def siteAutoReadmit (i : Nat) : Nat := 0x40000a + 0x4000 * i
def siteLeaseDrainMs (i : Nat) : Nat := 0x40000b + 0x4000 * i
def siteSemOk (i : Nat) : Nat := 0x40000c + 0x4000 * i
def siteReduceOk (i : Nat) : Nat := 0x40000d + 0x4000 * i
def siteDescDigest (i : Nat) : Nat := 0x40000e + 0x4000 * i
def siteRefuse (i : Nat) : Nat := 0x40000f + 0x4000 * i
def guestKey (i : Nat) : Nat := 0x320001 + i
def uciRateMax : Nat := 0x488001
def uciLaneCe : Nat := 0x488002
def uciPolicy : Nat := 0x488003
def uciState (i : Nat) : Nat := 0x480101 + 0x4000 * i
def uciRate (i : Nat) : Nat := 0x480102 + 0x4000 * i
def uciX32 (i : Nat) : Nat := 0x480103 + 0x4000 * i
def rimRetryLimit : Nat := 0x330001
def rimCeTotal : Nat := 0x330002
def rimRetryTotal : Nat := 0x330003
def ctxActive : Nat := 0x601001
def atcCtxMax : Nat := 0x601002
def atcUsed : Nat := 0x601003
def regPreset : Nat := 0x210001
def regTest : Nat := 0x210002
def regMapEn : Nat := 0x340001
def regMap (i : Nat) : Nat := 0x340002 + i
def urgCapPct : Nat := 0x340006
def guestRdSite : Nat := 0x340007
def guestWrSite : Nat := 0x340008
def guestCohAgent : Nat := 0x340009
def guestSem : Nat := 0x34000a
def podRole : Nat := 0x900001
def podId : Nat := 0x900002
def podHub : Nat := 0x900003
def podManager : Nat := 0x900004
def podEthertype : Nat := 0x900005
def podVlan : Nat := 0x900006
def podWdogMs : Nat := 0x900007
def podBeatMs : Nat := 0x900008
def podRoster : Nat := 0x900101
def podBarrier (i : Nat) : Nat := 0x900201 + i
def podRtoUs : Nat := 0x901001
def podUnreachMs : Nat := 0x901002
def pcieGts : Nat := 0x220001
def pcieWidth : Nat := 0x220002
def pcieVfs : Nat := 0x220003
def pcieBar4Gib : Nat := 0x220004
def pcieMaxGts : Nat := 0x350001
def pcieRdTags : Nat := 0x350002
def pcieWrBacklogKib : Nat := 0x350003
def lcState : Nat := 0x800001
def lcCells : Nat := 0x800002
def lcIncomplete : Nat := 0x800003
def lcScrap : Nat := 0x800004
def lcResult : Nat := 0x800005
def deviceId : Nat := 0x801001
def idPubkey : Nat := 0x801002
def idCert : Nat := 0x801003
def bindPubkey : Nat := 0x801004
def bindCert : Nat := 0x801005
def attestNonce : Nat := 0x801006
def attest : Nat := 0x801007
def dbgNonce : Nat := 0x802001
def dbgResponse : Nat := 0x802002
def dbgOpen : Nat := 0x802003
def dbgFails : Nat := 0x802004
def opdbg : Nat := 0x803001
def opdbgCount : Nat := 0x803002
def bindQueued : Nat := 0x804001
def bindActive : Nat := 0x804002
def bindEn (i : Nat) : Nat := 0x808001 + 0x100 * i
def bindSrcCtx (i : Nat) : Nat := 0x808002 + 0x100 * i
def bindSrcVa (i : Nat) : Nat := 0x808003 + 0x100 * i
def bindPkgLen (i : Nat) : Nat := 0x808004 + 0x100 * i
def bindUsers (i : Nat) : Nat := 0x808005 + 0x100 * i
def bindCmd (i : Nat) : Nat := 0x808006 + 0x100 * i
def bindStatus (i : Nat) : Nat := 0x808007 + 0x100 * i
def bindFailChunk (i : Nat) : Nat := 0x808008 + 0x100 * i
def bindPkgDigest (i : Nat) : Nat := 0x808009 + 0x100 * i
def part : Nat := 0x100001
def stepping : Nat := 0x100002
def fwVersion : Nat := 0x100003
def subsysVendor : Nat := 0x100004
def subsysId : Nat := 0x100005
def label : Nat := 0x100006
def mgmtWdogMs : Nat := 0x100101
def ctlRestarts : Nat := 0x100102
def ctlUptimeS : Nat := 0x100103
def epoch : Nat := 0x100104
def sramCe : Nat := 0x100105
def storeGen : Nat := 0x101001
def storePending : Nat := 0x101002
def storeOk : Nat := 0x101003
def storeCmd : Nat := 0x101004
def mbxRights : Nat := 0x110001
def fieldEnable : Nat := 0x110002
def sbWriteOk : Nat := 0x110003
def segmentKey : Nat := 0x120001
def expertKey : Nat := 0x120002
def keysSet : Nat := 0x120003
def expertNonce : Nat := 0x121001
def expertProof : Nat := 0x121002
def expertActive : Nat := 0x121003
def expertIdleS : Nat := 0x121004
def sbAddr : Nat := 0x104001
def drvResetOk : Nat := 0x200001
def mac : Nat := 0x102001
def plcaEn : Nat := 0x102002
def plcaNode : Nat := 0x102003
def plcaCount : Nat := 0x102004
def plcaTo : Nat := 0x102005
def plcaBurst : Nat := 0x102006
def plcaBurstTmr : Nat := 0x102007
def kmpPort : Nat := 0x102008
def notifyDest : Nat := 0x102009
def phyAddr : Nat := 0x10200a
def dadFailed : Nat := 0x10200b
def rxFrames : Nat := 0x102101
def txFrames : Nat := 0x102102
def fcsErr : Nat := 0x102103
def rxEr : Nat := 0x102104
def collisions : Nat := 0x102105
def lateColl : Nat := 0x102106
def beaconLoss : Nat := 0x102107
def strangers : Nat := 0x102108
def replays : Nat := 0x102109
def notifyResent : Nat := 0x10210a
def notifyDropped : Nat := 0x10210b
def txAbort : Nat := 0x10210c
def rxOther : Nat := 0x10210d
def ovlActive : Nat := 0xb00001
def ovlCount : Nat := 0xb00002
def ovlList : Nat := 0xb00003
def ovlEditName : Nat := 0xb01001
def ovlEditCmd : Nat := 0xb01002
def ovlEditEntry : Nat := 0xb01003
def ovlEditValue : Nat := 0xb01004
def ovlEditResult : Nat := 0xb01005
def coastIdleUs : Nat := 0x700001
def parkAfterMs : Nat := 0x700002
def kickEn : Nat := 0x700003
def kickRetain : Nat := 0x700004
def expertHold : Nat := 0x700005
def powerLimitW : Nat := 0x700006
def tjLimitC : Nat := 0x700007
def pwrState : Nat := 0x700008
def vddLevel : Nat := 0x700009
def rtc : Nat := 0x70000a
def rtcAlarm : Nat := 0x70000b
def powerW : Nat := 0x70000c
def wakeReq : Nat := 0x70000d
def avsTimeoutUs : Nat := 0x70000e
def vddMaxLevel : Nat := 0x70000f
def refusals (i : Nat) : Nat := 0x701001 + i
def lastRefuser : Nat := 0x701008
def siteRefusals (i : Nat) : Nat := 0x701101 + i
def wakeSource : Nat := 0x702001
def wakeFrom : Nat := 0x702002
def wakeRtc : Nat := 0x702003
def wakeCount : Nat := 0x702004
def sitePolicy (i : Nat) : Nat := 0x401001 + 0x4000 * i
def fwStatus (i : Nat) : Nat := 0x401002 + 0x4000 * i
def fwRounds (i : Nat) : Nat := 0x401003 + 0x4000 * i
def fwMissed (i : Nat) : Nat := 0x401004 + 0x4000 * i
def fwuState : Nat := 0x130001
def fwuTarget : Nat := 0x130002
def fwuGuest : Nat := 0x130003
def fwuLength : Nat := 0x130004
def fwuCmd : Nat := 0x130005
def fwuOffset : Nat := 0x130006
def fwuData : Nat := 0x130007
def fwuResult : Nat := 0x130008
def slotState : Nat := 0x130009
def slotVerA : Nat := 0x13000a
def slotVerB : Nat := 0x13000b
def autoConfirmS : Nat := 0x13000c
def storeVer : Nat := 0x13000d
def guestDir : Nat := 0x13000e
def fallback : Nat := 0x13000f
def fatalAutoReset : Nat := 0xa00001
def fatalLast : Nat := 0xa00002
def fatalCount : Nat := 0xa00003
def faultLost : Nat := 0xa00004
def traceBuf : Nat := 0xa00101
def traceClasses : Nat := 0xa00102
def traceEn : Nat := 0xa00103
def dbgMemDpa : Nat := 0xa04001
def dbgMemSectors : Nat := 0xa04002
def dbgMemCmd : Nat := 0xa04003
def dbgMemData : Nat := 0xa04004
def dbgMemPoison : Nat := 0xa04005
def dbgMemResult : Nat := 0xa04006
def siteVddMv (i : Nat) : Nat := 0x402001 + 0x4000 * i
def sitePmbusAddr (i : Nat) : Nat := 0x402002 + 0x4000 * i
def siteIoutA (i : Nat) : Nat := 0x402003 + 0x4000 * i
def sitePwrFaults (i : Nat) : Nat := 0x402004 + 0x4000 * i
def tjMax : Nat := 0x703001
def tjTrips : Nat := 0x703002
def tj (i : Nat) : Nat := 0x703101 + i

end OD

end Sys2Proof.Machine
end

