-- ==== Sys2Proof/Machine/Regs.lean ====
section
/-!
DEFINITION. Machine/Regs.lean: the BAR0 registers of the hub, one constructor of `Reg` per register of the spec's
register tables, with its block, offset, access masks (R11, R12, the access codes of the scope file) and reset value.
A register array (CTX.ROUTE_SLOT0 to 7, SYNC.BAR_MASK0 to 3, SYNC.BAR_ARR0 to 3, WHL.MAP0 to 3, WHL.SLOTS0 to 4) is one
constructor with a count. The rule that gives each table stands beside the row.
-/
namespace Sys2Proof.Machine

/-- The register blocks of the BAR0 map (R28) and of the chapters that place blocks inside it. -/
inductive Block where
  | hub | ctx | crank | vec | drl | red | cas | dec | mem | coh | tc | sync | spk | site | uci | rim | fault | reg | whl | pod | vf | mbx | pwr | boot | trc
deriving DecidableEq, Repr

/-- One constructor per register. -/
inductive Reg where
  | hubId | hubAlive | hubStatus | hubEvt | hubEvtCnt | hubEvtCnt2 | hubCtl | ctxQsel | ctxQsqBase | ctxQcqBase 
  | ctxQcfg | ctxQctl | ctxQstat | ctxQpos | ctxSevt | ctxSevtCnt | ctxSevtCnt2 | ctxRouteWin | ctxRouteSel 
  | ctxRouteSlot0 | ctxRouteCtl | crankStatus | crankEvt | crankEvtCnt | crankEvtCnt2 | crankCtl | crankOps 
  | crankMacs | crankBusyCyc | crankLoadStall | crankInStall | vecStatus | vecEvt | vecEvtCnt | vecEvtCnt2 
  | vecCtl | vecOps | vecRows | vecBusyCyc | drlStatus | drlEvt | drlEvtCnt | drlEvtCnt2 | drlCtl | drlOps 
  | drlBytes | redEvt | redEvtCnt | redSectors | redWaitCyc | casStatus | casEvt | casEvtCnt | casEvtCnt2 
  | casCtl | casPoolSel | casPoolBase | casPoolGeom | casPoolSize | casPoolOwn | casPoolCtl | casPoolStat 
  | casPoolStat2 | casBytes | decEvt | decEvtCnt | decPages | decInBytes | decOutBytes | memStatus | memEvt 
  | memEvtCnt | memEvtCnt2 | memEvtCnt3 | memUeAddr | memCtl | memRdBytes | memWrBytes | memCacheHit 
  | memCacheMiss | memAct | memHoldUs | memStallUs | memScrubLines | cohStatus | cohEvt | cohEvtCnt | cohEvtCnt2 
  | cohLastTo | cohDirSel | cohDirLo | cohDirHi | cohReqs | cohSnoops | tcStatus | tcEvt | tcEvtCnt | tcCtl 
  | tcHit | tcMiss | tcRangeOps | tcRangeCyc | syncSemSel | syncSemVal | syncSemGrant | syncSemCtl | syncBarSel 
  | syncBarCfg | syncBarMask0 | syncBarCtl | syncBarStat | syncBarArr0 | syncPartSel | syncPart | syncCtxSel 
  | syncCtxCfg | syncCtxStat | syncCtxCtl | syncEvt | syncEvtCnt | syncEvtCnt2 | syncOps | spkStatus | spkEvt 
  | spkEvtCnt | spkEvtCnt2 | spkCtl | spkLaneSel | spkLaneStat | spkCellsTx | spkCellsRx | spkStallCyc 
  | siteStatus | siteEvt | siteEvtCnt | siteEvtCnt2 | siteCtl | siteClasses | siteLimits | siteVioTotal 
  | siteVlogSel | siteVlogA | siteVlogB | siteLeaseSel | siteLease | siteWinBase | siteWinSize | siteLeaseCtl 
  | uciStatus | uciEvt | uciEvtCnt | uciEvtCnt2 | uciEvtCnt3 | uciLaneSel | uciLaneStat | uciCellsTx 
  | uciCellsRx | uciStallCyc | rimId | rimStatus | rimEvt | rimEvtCnt | rimEvtCnt2 | rimPortSel | rimPortFlits 
  | rimPortStall | rimPortErr | rimCtl | ctxFunc | ctxPasid | ctxCfg | ctxCtl | ctxStatus | ctxEvt | ctxEvtCnt 
  | ctxFaultVa | ctxFaultInfo | ctxAtcHit | ctxAtcMiss | faultTail | faultHead | faultCfg | regCfg | regLimit 
  | regStatus | regEvt | regEvtCnt | regUrgCyc | whlStatus | whlMap0 | whlCtl | whlGap | whlEvt | whlEvtCnt 
  | whlSlots0 | whlLent | podStatus | podEvt | podEvtCnt | podEvtCnt2 | podChSel | podChCfg | podChRing 
  | podChWin | podChWinsz | podChVec | podChCtl | podChStat | podTxBytes | podRxBytes | vfId | vfAlive 
  | vfStatus | vfSlotSel | vfSlot | vfEvt | vfEvtCnt | mbxStatus | mbxCmd | mbxOffset | mbxCtl | mbxEvt 
  | mbxEvtCnt | mbxCfg | mbxNote0 | mbxNote1 | pwrStatus | pwrEvt | pwrEvtCnt | pwrCoastExits | pwrParkMs 
  | bootFuse | bootStatus | bootTime0 | bootTime1 | bootEvt | bootEvtCnt | bootEvtCnt2 | bootResult 
  | bootResult2 | faultEvt | faultLostCount | trcCtl | trcMask | trcTrig | trcStatus | trcWritten | trcEvt 
  | trcEvtCnt | trcDcount | trcCcount 
deriving DecidableEq, Repr, Inhabited

/-- What the register tables give one register: its block, its offset in the block, how many consecutive
registers the row stands for, the bits of each access code, and the reset value. -/
structure RegInfo where
  block : Block
  off   : Nat
  cnt   : Nat
  rw    : Nat
  w1c   : Nat
  w1s   : Nat
  reset : Nat
deriving DecidableEq, Repr

/-- The register tables. A reset value that the table does not write as a number (by fuse, by die, by position) is 0
here and is given by `regReset` (Ops.lean). -/
def Reg.info : Reg → RegInfo
  | .hubId => ⟨.hub, 0x0, 1, 0x0, 0x0, 0x0, 0x4b000000⟩ -- HUB.ID R30
  | .hubAlive => ⟨.hub, 0x10, 1, 0x0, 0x0, 0x0, 0x4b414c45⟩ -- HUB.ALIVE R30
  | .hubStatus => ⟨.hub, 0x18, 1, 0x0, 0x0, 0x0, 0x0⟩ -- HUB.STATUS R30
  | .hubEvt => ⟨.hub, 0x20, 1, 0x0, 0x1f, 0x0, 0x0⟩ -- HUB.EVT R30
  | .hubEvtCnt => ⟨.hub, 0x28, 1, 0x0, 0x0, 0x0, 0x0⟩ -- HUB.EVT_CNT R30
  | .hubEvtCnt2 => ⟨.hub, 0x30, 1, 0x0, 0x0, 0x0, 0x0⟩ -- HUB.EVT_CNT2 R30
  | .hubCtl => ⟨.hub, 0x38, 1, 0x4, 0x0, 0x3, 0x0⟩ -- HUB.CTL R30
  | .ctxQsel => ⟨.ctx, 0x400, 1, 0x3f, 0x0, 0x0, 0x0⟩ -- CTX.QSEL R62
  | .ctxQsqBase => ⟨.ctx, 0x408, 1, 0xffffffffffffffff, 0x0, 0x0, 0x0⟩ -- CTX.QSQ_BASE R62
  | .ctxQcqBase => ⟨.ctx, 0x410, 1, 0xffffffffffffffff, 0x0, 0x0, 0x0⟩ -- CTX.QCQ_BASE R62
  | .ctxQcfg => ⟨.ctx, 0x418, 1, 0x7ff1f1f, 0x0, 0x0, 0x0⟩ -- CTX.QCFG R62
  | .ctxQctl => ⟨.ctx, 0x420, 1, 0x0, 0x0, 0x7, 0x0⟩ -- CTX.QCTL R62
  | .ctxQstat => ⟨.ctx, 0x428, 1, 0x0, 0x0, 0x0, 0x0⟩ -- CTX.QSTAT R62
  | .ctxQpos => ⟨.ctx, 0x430, 1, 0xffffffff00000000, 0x0, 0x0, 0x0⟩ -- CTX.QPOS R62
  | .ctxSevt => ⟨.ctx, 0x438, 1, 0x0, 0x1f, 0x0, 0x0⟩ -- CTX.SEVT R62
  | .ctxSevtCnt => ⟨.ctx, 0x440, 1, 0x0, 0x0, 0x0, 0x0⟩ -- CTX.SEVT_CNT R62
  | .ctxSevtCnt2 => ⟨.ctx, 0x448, 1, 0x0, 0x0, 0x0, 0x0⟩ -- CTX.SEVT_CNT2 R62
  | .ctxRouteWin => ⟨.ctx, 0x450, 1, 0x1ffffffff, 0x0, 0x0, 0x0⟩ -- CTX.ROUTE_WIN R62
  | .ctxRouteSel => ⟨.ctx, 0x458, 1, 0xffff, 0x0, 0x0, 0x0⟩ -- CTX.ROUTE_SEL R62
  | .ctxRouteSlot0 => ⟨.ctx, 0x460, 8, 0xffffffffffffffff, 0x0, 0x0, 0x0⟩ -- CTX.ROUTE_SLOT0 R62
  | .ctxRouteCtl => ⟨.ctx, 0x4a0, 1, 0x0, 0x0, 0x3, 0x0⟩ -- CTX.ROUTE_CTL R62
  | .crankStatus => ⟨.crank, 0x0, 1, 0x0, 0x0, 0x0, 0x5⟩ -- CRANK.STATUS R101
  | .crankEvt => ⟨.crank, 0x8, 1, 0x0, 0xff, 0x0, 0x0⟩ -- CRANK.EVT R101
  | .crankEvtCnt => ⟨.crank, 0x10, 1, 0x0, 0x0, 0x0, 0x0⟩ -- CRANK.EVT_CNT R101
  | .crankEvtCnt2 => ⟨.crank, 0x18, 1, 0x0, 0x0, 0x0, 0x0⟩ -- CRANK.EVT_CNT2 R101
  | .crankCtl => ⟨.crank, 0x20, 1, 0x0, 0x0, 0x1, 0x0⟩ -- CRANK.CTL R101
  | .crankOps => ⟨.crank, 0x28, 1, 0x0, 0x0, 0x0, 0x0⟩ -- CRANK.OPS R101
  | .crankMacs => ⟨.crank, 0x30, 1, 0x0, 0x0, 0x0, 0x0⟩ -- CRANK.MACS R101
  | .crankBusyCyc => ⟨.crank, 0x38, 1, 0x0, 0x0, 0x0, 0x0⟩ -- CRANK.BUSY_CYC R101
  | .crankLoadStall => ⟨.crank, 0x40, 1, 0x0, 0x0, 0x0, 0x0⟩ -- CRANK.LOAD_STALL R101
  | .crankInStall => ⟨.crank, 0x48, 1, 0x0, 0x0, 0x0, 0x0⟩ -- CRANK.IN_STALL R101
  | .vecStatus => ⟨.vec, 0x0, 1, 0x0, 0x0, 0x0, 0x1⟩ -- VEC.STATUS R126
  | .vecEvt => ⟨.vec, 0x8, 1, 0x0, 0x1f, 0x0, 0x0⟩ -- VEC.EVT R126
  | .vecEvtCnt => ⟨.vec, 0x10, 1, 0x0, 0x0, 0x0, 0x0⟩ -- VEC.EVT_CNT R126
  | .vecEvtCnt2 => ⟨.vec, 0x18, 1, 0x0, 0x0, 0x0, 0x0⟩ -- VEC.EVT_CNT2 R126
  | .vecCtl => ⟨.vec, 0x20, 1, 0x0, 0x0, 0x1, 0x0⟩ -- VEC.CTL R126
  | .vecOps => ⟨.vec, 0x28, 1, 0x0, 0x0, 0x0, 0x0⟩ -- VEC.OPS R126
  | .vecRows => ⟨.vec, 0x30, 1, 0x0, 0x0, 0x0, 0x0⟩ -- VEC.ROWS R126
  | .vecBusyCyc => ⟨.vec, 0x38, 1, 0x0, 0x0, 0x0, 0x0⟩ -- VEC.BUSY_CYC R126
  | .drlStatus => ⟨.drl, 0x0, 1, 0x0, 0x0, 0x0, 0x1⟩ -- DRL.STATUS R126
  | .drlEvt => ⟨.drl, 0x8, 1, 0x0, 0x7f, 0x0, 0x0⟩ -- DRL.EVT R126
  | .drlEvtCnt => ⟨.drl, 0x10, 1, 0x0, 0x0, 0x0, 0x0⟩ -- DRL.EVT_CNT R126
  | .drlEvtCnt2 => ⟨.drl, 0x18, 1, 0x0, 0x0, 0x0, 0x0⟩ -- DRL.EVT_CNT2 R126
  | .drlCtl => ⟨.drl, 0x20, 1, 0x0, 0x0, 0x1, 0x0⟩ -- DRL.CTL R126
  | .drlOps => ⟨.drl, 0x28, 1, 0x0, 0x0, 0x0, 0x0⟩ -- DRL.OPS R126
  | .drlBytes => ⟨.drl, 0x30, 1, 0x0, 0x0, 0x0, 0x0⟩ -- DRL.BYTES R126
  | .redEvt => ⟨.red, 0x0, 1, 0x0, 0xf, 0x0, 0x0⟩ -- RED.EVT R126
  | .redEvtCnt => ⟨.red, 0x8, 1, 0x0, 0x0, 0x0, 0x0⟩ -- RED.EVT_CNT R126
  | .redSectors => ⟨.red, 0x10, 1, 0x0, 0x0, 0x0, 0x0⟩ -- RED.SECTORS R126
  | .redWaitCyc => ⟨.red, 0x18, 1, 0x0, 0x0, 0x0, 0x0⟩ -- RED.WAIT_CYC R126
  | .casStatus => ⟨.cas, 0x0, 1, 0x0, 0x0, 0x0, 0x1⟩ -- CAS.STATUS R151
  | .casEvt => ⟨.cas, 0x8, 1, 0x0, 0x7f, 0x0, 0x0⟩ -- CAS.EVT R151
  | .casEvtCnt => ⟨.cas, 0x10, 1, 0x0, 0x0, 0x0, 0x0⟩ -- CAS.EVT_CNT R151
  | .casEvtCnt2 => ⟨.cas, 0x18, 1, 0x0, 0x0, 0x0, 0x0⟩ -- CAS.EVT_CNT2 R151
  | .casCtl => ⟨.cas, 0x20, 1, 0x0, 0x0, 0x1, 0x0⟩ -- CAS.CTL R151
  | .casPoolSel => ⟨.cas, 0x28, 1, 0x1f, 0x0, 0x0, 0x0⟩ -- CAS.POOL_SEL R151
  | .casPoolBase => ⟨.cas, 0x30, 1, 0xffffffffffffffff, 0x0, 0x0, 0x0⟩ -- CAS.POOL_BASE R151
  | .casPoolGeom => ⟨.cas, 0x38, 1, 0x7ff7fffff07, 0x0, 0x0, 0x0⟩ -- CAS.POOL_GEOM R151
  | .casPoolSize => ⟨.cas, 0x40, 1, 0x3ffff001fffff, 0x0, 0x0, 0x0⟩ -- CAS.POOL_SIZE R151
  | .casPoolOwn => ⟨.cas, 0x48, 1, 0x3ff01ff1fff, 0x0, 0x0, 0x0⟩ -- CAS.POOL_OWN R151
  | .casPoolCtl => ⟨.cas, 0x50, 1, 0x0, 0x0, 0x3, 0x0⟩ -- CAS.POOL_CTL R151
  | .casPoolStat => ⟨.cas, 0x58, 1, 0x0, 0x0, 0x0, 0x0⟩ -- CAS.POOL_STAT R151
  | .casPoolStat2 => ⟨.cas, 0x60, 1, 0x0, 0x0, 0x0, 0x0⟩ -- CAS.POOL_STAT2 R151
  | .casBytes => ⟨.cas, 0x68, 1, 0x0, 0x0, 0x0, 0x0⟩ -- CAS.BYTES R151
  | .decEvt => ⟨.dec, 0x0, 1, 0x0, 0x7, 0x0, 0x0⟩ -- DEC.EVT R151
  | .decEvtCnt => ⟨.dec, 0x8, 1, 0x0, 0x0, 0x0, 0x0⟩ -- DEC.EVT_CNT R151
  | .decPages => ⟨.dec, 0x10, 1, 0x0, 0x0, 0x0, 0x0⟩ -- DEC.PAGES R151
  | .decInBytes => ⟨.dec, 0x18, 1, 0x0, 0x0, 0x0, 0x0⟩ -- DEC.IN_BYTES R151
  | .decOutBytes => ⟨.dec, 0x20, 1, 0x0, 0x0, 0x0, 0x0⟩ -- DEC.OUT_BYTES R151
  | .memStatus => ⟨.mem, 0x0, 1, 0x0, 0x0, 0x0, 0x2⟩ -- MEM.STATUS R185
  | .memEvt => ⟨.mem, 0x8, 1, 0x0, 0xfff, 0x0, 0x0⟩ -- MEM.EVT R185
  | .memEvtCnt => ⟨.mem, 0x10, 1, 0x0, 0x0, 0x0, 0x0⟩ -- MEM.EVT_CNT R185
  | .memEvtCnt2 => ⟨.mem, 0x18, 1, 0x0, 0x0, 0x0, 0x0⟩ -- MEM.EVT_CNT2 R185
  | .memEvtCnt3 => ⟨.mem, 0x20, 1, 0x0, 0x0, 0x0, 0x0⟩ -- MEM.EVT_CNT3 R185
  | .memUeAddr => ⟨.mem, 0x28, 1, 0x0, 0x0, 0x0, 0x0⟩ -- MEM.UE_ADDR R185
  | .memCtl => ⟨.mem, 0x30, 1, 0x0, 0x0, 0x3, 0x0⟩ -- MEM.CTL R185
  | .memRdBytes => ⟨.mem, 0x38, 1, 0x0, 0x0, 0x0, 0x0⟩ -- MEM.RD_BYTES R185
  | .memWrBytes => ⟨.mem, 0x40, 1, 0x0, 0x0, 0x0, 0x0⟩ -- MEM.WR_BYTES R185
  | .memCacheHit => ⟨.mem, 0x48, 1, 0x0, 0x0, 0x0, 0x0⟩ -- MEM.CACHE_HIT R185
  | .memCacheMiss => ⟨.mem, 0x50, 1, 0x0, 0x0, 0x0, 0x0⟩ -- MEM.CACHE_MISS R185
  | .memAct => ⟨.mem, 0x58, 1, 0x0, 0x0, 0x0, 0x0⟩ -- MEM.ACT R185
  | .memHoldUs => ⟨.mem, 0x60, 1, 0x0, 0x0, 0x0, 0x0⟩ -- MEM.HOLD_US R185
  | .memStallUs => ⟨.mem, 0x68, 1, 0x0, 0x0, 0x0, 0x0⟩ -- MEM.STALL_US R185
  | .memScrubLines => ⟨.mem, 0x70, 1, 0x0, 0x0, 0x0, 0x0⟩ -- MEM.SCRUB_LINES R185
  | .cohStatus => ⟨.coh, 0x0, 1, 0x0, 0x0, 0x0, 0x0⟩ -- COH.STATUS R211
  | .cohEvt => ⟨.coh, 0x8, 1, 0x0, 0x7f, 0x0, 0x0⟩ -- COH.EVT R211
  | .cohEvtCnt => ⟨.coh, 0x10, 1, 0x0, 0x0, 0x0, 0x0⟩ -- COH.EVT_CNT R211
  | .cohEvtCnt2 => ⟨.coh, 0x18, 1, 0x0, 0x0, 0x0, 0x0⟩ -- COH.EVT_CNT2 R211
  | .cohLastTo => ⟨.coh, 0x20, 1, 0x0, 0x0, 0x0, 0x0⟩ -- COH.LAST_TO R211
  | .cohDirSel => ⟨.coh, 0x28, 1, 0xffff, 0x0, 0x10000, 0x0⟩ -- COH.DIR_SEL R211
  | .cohDirLo => ⟨.coh, 0x30, 1, 0x0, 0x0, 0x0, 0x0⟩ -- COH.DIR_LO R211
  | .cohDirHi => ⟨.coh, 0x38, 1, 0x0, 0x0, 0x0, 0x0⟩ -- COH.DIR_HI R211
  | .cohReqs => ⟨.coh, 0x40, 1, 0x0, 0x0, 0x0, 0x0⟩ -- COH.REQS R211
  | .cohSnoops => ⟨.coh, 0x48, 1, 0x0, 0x0, 0x0, 0x0⟩ -- COH.SNOOPS R211
  | .tcStatus => ⟨.tc, 0x0, 1, 0x0, 0x0, 0x0, 0x0⟩ -- TC.STATUS R231
  | .tcEvt => ⟨.tc, 0x8, 1, 0x0, 0x3, 0x0, 0x0⟩ -- TC.EVT R231
  | .tcEvtCnt => ⟨.tc, 0x10, 1, 0x0, 0x0, 0x0, 0x0⟩ -- TC.EVT_CNT R231
  | .tcCtl => ⟨.tc, 0x18, 1, 0x0, 0x0, 0x1, 0x0⟩ -- TC.CTL R231
  | .tcHit => ⟨.tc, 0x20, 1, 0x0, 0x0, 0x0, 0x0⟩ -- TC.HIT R231
  | .tcMiss => ⟨.tc, 0x28, 1, 0x0, 0x0, 0x0, 0x0⟩ -- TC.MISS R231
  | .tcRangeOps => ⟨.tc, 0x30, 1, 0x0, 0x0, 0x0, 0x0⟩ -- TC.RANGE_OPS R231
  | .tcRangeCyc => ⟨.tc, 0x38, 1, 0x0, 0x0, 0x0, 0x0⟩ -- TC.RANGE_CYC R231
  | .syncSemSel => ⟨.sync, 0x0, 1, 0x1fff0001ffff, 0x0, 0x0, 0x0⟩ -- SYNC.SEM_SEL R255
  | .syncSemVal => ⟨.sync, 0x8, 1, 0xffffffffffffffff, 0x0, 0x0, 0x0⟩ -- SYNC.SEM_VAL R255
  | .syncSemGrant => ⟨.sync, 0x10, 1, 0x31fff, 0x0, 0x0, 0x0⟩ -- SYNC.SEM_GRANT R255
  | .syncSemCtl => ⟨.sync, 0x18, 1, 0x0, 0x0, 0xf, 0x0⟩ -- SYNC.SEM_CTL R255
  | .syncBarSel => ⟨.sync, 0x20, 1, 0x1ff, 0x0, 0x0, 0x0⟩ -- SYNC.BAR_SEL R255
  | .syncBarCfg => ⟨.sync, 0x28, 1, 0x7fffffffffff, 0x0, 0x0, 0x0⟩ -- SYNC.BAR_CFG R255
  | .syncBarMask0 => ⟨.sync, 0x30, 4, 0xffffffffffffffff, 0x0, 0x0, 0x0⟩ -- SYNC.BAR_MASK0 R255
  | .syncBarCtl => ⟨.sync, 0x50, 1, 0x0, 0x0, 0x7, 0x0⟩ -- SYNC.BAR_CTL R255
  | .syncBarStat => ⟨.sync, 0x58, 1, 0x0, 0x0, 0x0, 0x0⟩ -- SYNC.BAR_STAT R255
  | .syncBarArr0 => ⟨.sync, 0x60, 4, 0x0, 0x0, 0x0, 0x0⟩ -- SYNC.BAR_ARR0 R255
  | .syncPartSel => ⟨.sync, 0x80, 1, 0xff1fff, 0x0, 0x0, 0x0⟩ -- SYNC.PART_SEL R255
  | .syncPart => ⟨.sync, 0x88, 1, 0xffff0003, 0x0, 0x0, 0x0⟩ -- SYNC.PART R255
  | .syncCtxSel => ⟨.sync, 0x90, 1, 0x1fff, 0x0, 0x0, 0x0⟩ -- SYNC.CTX_SEL R255
  | .syncCtxCfg => ⟨.sync, 0x98, 1, 0x7fffffff, 0x0, 0x0, 0x0⟩ -- SYNC.CTX_CFG R255
  | .syncCtxStat => ⟨.sync, 0xa0, 1, 0x0, 0x0, 0x0, 0x0⟩ -- SYNC.CTX_STAT R255
  | .syncCtxCtl => ⟨.sync, 0xa8, 1, 0x0, 0x0, 0x1, 0x0⟩ -- SYNC.CTX_CTL R255
  | .syncEvt => ⟨.sync, 0xb0, 1, 0x0, 0xff, 0x0, 0x0⟩ -- SYNC.EVT R255
  | .syncEvtCnt => ⟨.sync, 0xb8, 1, 0x0, 0x0, 0x0, 0x0⟩ -- SYNC.EVT_CNT R255
  | .syncEvtCnt2 => ⟨.sync, 0xc0, 1, 0x0, 0x0, 0x0, 0x0⟩ -- SYNC.EVT_CNT2 R255
  | .syncOps => ⟨.sync, 0xc8, 1, 0x0, 0x0, 0x0, 0x0⟩ -- SYNC.OPS R255
  | .spkStatus => ⟨.spk, 0x0, 1, 0x0, 0x0, 0x0, 0x19⟩ -- SPK.STATUS R289
  | .spkEvt => ⟨.spk, 0x8, 1, 0x0, 0xff, 0x0, 0x0⟩ -- SPK.EVT R289
  | .spkEvtCnt => ⟨.spk, 0x10, 1, 0x0, 0x0, 0x0, 0x0⟩ -- SPK.EVT_CNT R289
  | .spkEvtCnt2 => ⟨.spk, 0x18, 1, 0x0, 0x0, 0x0, 0x0⟩ -- SPK.EVT_CNT2 R289
  | .spkCtl => ⟨.spk, 0x20, 1, 0x0, 0x0, 0x1, 0x0⟩ -- SPK.CTL R289
  | .spkLaneSel => ⟨.spk, 0x28, 1, 0x3fff, 0x0, 0x0, 0x0⟩ -- SPK.LANE_SEL R289
  | .spkLaneStat => ⟨.spk, 0x30, 1, 0x0, 0x0, 0x0, 0x0⟩ -- SPK.LANE_STAT R289
  | .spkCellsTx => ⟨.spk, 0x38, 1, 0x0, 0x0, 0x0, 0x0⟩ -- SPK.CELLS_TX R289
  | .spkCellsRx => ⟨.spk, 0x40, 1, 0x0, 0x0, 0x0, 0x0⟩ -- SPK.CELLS_RX R289
  | .spkStallCyc => ⟨.spk, 0x48, 1, 0x0, 0x0, 0x0, 0x0⟩ -- SPK.STALL_CYC R289
  | .siteStatus => ⟨.site, 0x100, 1, 0x0, 0x0, 0x0, 0x1⟩ -- SITE.STATUS R318
  | .siteEvt => ⟨.site, 0x108, 1, 0x0, 0x7f, 0x0, 0x0⟩ -- SITE.EVT R318
  | .siteEvtCnt => ⟨.site, 0x110, 1, 0x0, 0x0, 0x0, 0x0⟩ -- SITE.EVT_CNT R318
  | .siteEvtCnt2 => ⟨.site, 0x118, 1, 0x0, 0x0, 0x0, 0x0⟩ -- SITE.EVT_CNT2 R318
  | .siteCtl => ⟨.site, 0x120, 1, 0x0, 0x0, 0x3, 0x0⟩ -- SITE.CTL R318
  | .siteClasses => ⟨.site, 0x128, 1, 0x0, 0x0, 0x0, 0x0⟩ -- SITE.CLASSES R318
  | .siteLimits => ⟨.site, 0x130, 1, 0x0, 0x0, 0x0, 0x0⟩ -- SITE.LIMITS R318
  | .siteVioTotal => ⟨.site, 0x138, 1, 0x0, 0x0, 0x0, 0x0⟩ -- SITE.VIO_TOTAL R318
  | .siteVlogSel => ⟨.site, 0x140, 1, 0xf, 0x0, 0x0, 0x0⟩ -- SITE.VLOG_SEL R318
  | .siteVlogA => ⟨.site, 0x148, 1, 0x0, 0x0, 0x0, 0x0⟩ -- SITE.VLOG_A R318
  | .siteVlogB => ⟨.site, 0x150, 1, 0x0, 0x0, 0x0, 0x0⟩ -- SITE.VLOG_B R318
  | .siteLeaseSel => ⟨.site, 0x158, 1, 0x7f, 0x0, 0x0, 0x0⟩ -- SITE.LEASE_SEL R318
  | .siteLease => ⟨.site, 0x160, 1, 0x1fff, 0x0, 0x0, 0x0⟩ -- SITE.LEASE R318
  | .siteWinBase => ⟨.site, 0x168, 1, 0x1fffffffffff003, 0x0, 0x0, 0x0⟩ -- SITE.WIN_BASE R318
  | .siteWinSize => ⟨.site, 0x170, 1, 0x1fffffffffff, 0x0, 0x0, 0x0⟩ -- SITE.WIN_SIZE R318
  | .siteLeaseCtl => ⟨.site, 0x178, 1, 0x0, 0x0, 0x3, 0x0⟩ -- SITE.LEASE_CTL R318
  | .uciStatus => ⟨.uci, 0x0, 1, 0x0, 0x0, 0x0, 0x0⟩ -- UCI.STATUS R335
  | .uciEvt => ⟨.uci, 0x8, 1, 0x0, 0x3ff, 0x0, 0x0⟩ -- UCI.EVT R335
  | .uciEvtCnt => ⟨.uci, 0x10, 1, 0x0, 0x0, 0x0, 0x0⟩ -- UCI.EVT_CNT R335
  | .uciEvtCnt2 => ⟨.uci, 0x18, 1, 0x0, 0x0, 0x0, 0x0⟩ -- UCI.EVT_CNT2 R335
  | .uciEvtCnt3 => ⟨.uci, 0x20, 1, 0x0, 0x0, 0x0, 0x0⟩ -- UCI.EVT_CNT3 R335
  | .uciLaneSel => ⟨.uci, 0x28, 1, 0x3ff, 0x0, 0x0, 0x0⟩ -- UCI.LANE_SEL R335
  | .uciLaneStat => ⟨.uci, 0x30, 1, 0x0, 0x0, 0x0, 0x0⟩ -- UCI.LANE_STAT R335
  | .uciCellsTx => ⟨.uci, 0x38, 1, 0x0, 0x0, 0x0, 0x0⟩ -- UCI.CELLS_TX R335
  | .uciCellsRx => ⟨.uci, 0x40, 1, 0x0, 0x0, 0x0, 0x0⟩ -- UCI.CELLS_RX R335
  | .uciStallCyc => ⟨.uci, 0x48, 1, 0x0, 0x0, 0x0, 0x0⟩ -- UCI.STALL_CYC R335
  | .rimId => ⟨.rim, 0x0, 1, 0x0, 0x0, 0x0, 0x0⟩ -- RIM.ID R353
  | .rimStatus => ⟨.rim, 0x8, 1, 0x0, 0x0, 0x0, 0x0⟩ -- RIM.STATUS R353
  | .rimEvt => ⟨.rim, 0x10, 1, 0x0, 0x1f, 0x0, 0x0⟩ -- RIM.EVT R353
  | .rimEvtCnt => ⟨.rim, 0x18, 1, 0x0, 0x0, 0x0, 0x0⟩ -- RIM.EVT_CNT R353
  | .rimEvtCnt2 => ⟨.rim, 0x20, 1, 0x0, 0x0, 0x0, 0x0⟩ -- RIM.EVT_CNT2 R353
  | .rimPortSel => ⟨.rim, 0x28, 1, 0x1f, 0x0, 0x0, 0x0⟩ -- RIM.PORT_SEL R353
  | .rimPortFlits => ⟨.rim, 0x30, 1, 0x0, 0x0, 0x0, 0x0⟩ -- RIM.PORT_FLITS R353
  | .rimPortStall => ⟨.rim, 0x38, 1, 0x0, 0x0, 0x0, 0x0⟩ -- RIM.PORT_STALL R353
  | .rimPortErr => ⟨.rim, 0x40, 1, 0x0, 0x0, 0x0, 0x0⟩ -- RIM.PORT_ERR R353
  | .rimCtl => ⟨.rim, 0x48, 1, 0x0, 0x0, 0x1, 0x0⟩ -- RIM.CTL R353
  | .ctxFunc => ⟨.ctx, 0x0, 1, 0x7f, 0x0, 0x0, 0x0⟩ -- CTX.FUNC R371
  | .ctxPasid => ⟨.ctx, 0x8, 1, 0xfffff, 0x0, 0x0, 0x0⟩ -- CTX.PASID R371
  | .ctxCfg => ⟨.ctx, 0x10, 1, 0xfff, 0x0, 0x0, 0x0⟩ -- CTX.CFG R371
  | .ctxCtl => ⟨.ctx, 0x18, 1, 0x0, 0x0, 0x1f, 0x0⟩ -- CTX.CTL R371
  | .ctxStatus => ⟨.ctx, 0x20, 1, 0x0, 0x0, 0x0, 0x0⟩ -- CTX.STATUS R371
  | .ctxEvt => ⟨.ctx, 0x28, 1, 0x0, 0xf, 0x0, 0x0⟩ -- CTX.EVT R371
  | .ctxEvtCnt => ⟨.ctx, 0x30, 1, 0x0, 0x0, 0x0, 0x0⟩ -- CTX.EVT_CNT R371
  | .ctxFaultVa => ⟨.ctx, 0x38, 1, 0x0, 0x0, 0x0, 0x0⟩ -- CTX.FAULT_VA R371
  | .ctxFaultInfo => ⟨.ctx, 0x40, 1, 0x0, 0x0, 0x0, 0x0⟩ -- CTX.FAULT_INFO R371
  | .ctxAtcHit => ⟨.ctx, 0x48, 1, 0x0, 0x0, 0x0, 0x0⟩ -- CTX.ATC_HIT R371
  | .ctxAtcMiss => ⟨.ctx, 0x50, 1, 0x0, 0x0, 0x0, 0x0⟩ -- CTX.ATC_MISS R371
  | .faultTail => ⟨.fault, 0x0, 1, 0x0, 0x0, 0x0, 0x0⟩ -- FAULT.TAIL R372
  | .faultHead => ⟨.fault, 0x8, 1, 0xffffffff, 0x0, 0x0, 0x0⟩ -- FAULT.HEAD R372
  | .faultCfg => ⟨.fault, 0x10, 1, 0xfff, 0x0, 0x0, 0x0⟩ -- FAULT.CFG R372
  | .regCfg => ⟨.reg, 0x0, 1, 0xfffffff3, 0x0, 0x0, 0x32190000⟩ -- REG.CFG R387
  | .regLimit => ⟨.reg, 0x8, 1, 0xffffffff, 0x0, 0x0, 0x0⟩ -- REG.LIMIT R387
  | .regStatus => ⟨.reg, 0x10, 1, 0x0, 0x0, 0x0, 0x0⟩ -- REG.STATUS R387
  | .regEvt => ⟨.reg, 0x18, 1, 0x0, 0x1, 0x0, 0x0⟩ -- REG.EVT R387
  | .regEvtCnt => ⟨.reg, 0x20, 1, 0x0, 0x0, 0x0, 0x0⟩ -- REG.EVT_CNT R387
  | .regUrgCyc => ⟨.reg, 0x28, 1, 0x0, 0x0, 0x0, 0x0⟩ -- REG.URG_CYC R387
  | .whlStatus => ⟨.whl, 0x0, 1, 0x0, 0x0, 0x0, 0x401⟩ -- WHL.STATUS R388
  | .whlMap0 => ⟨.whl, 0x8, 4, 0xffffffffffffffff, 0x0, 0x0, 0x0⟩ -- WHL.MAP0 R388
  | .whlCtl => ⟨.whl, 0x28, 1, 0x0, 0x0, 0x1, 0x0⟩ -- WHL.CTL R388
  | .whlGap => ⟨.whl, 0x30, 1, 0x0, 0x0, 0x0, 0x0⟩ -- WHL.GAP R388
  | .whlEvt => ⟨.whl, 0x38, 1, 0x0, 0x3, 0x0, 0x0⟩ -- WHL.EVT R388
  | .whlEvtCnt => ⟨.whl, 0x40, 1, 0x0, 0x0, 0x0, 0x0⟩ -- WHL.EVT_CNT R388
  | .whlSlots0 => ⟨.whl, 0x48, 5, 0x0, 0x0, 0x0, 0x0⟩ -- WHL.SLOTS0 R388
  | .whlLent => ⟨.whl, 0x70, 1, 0x0, 0x0, 0x0, 0x0⟩ -- WHL.LENT R388
  | .podStatus => ⟨.pod, 0x0, 1, 0x0, 0x0, 0x0, 0x0⟩ -- POD.STATUS R407
  | .podEvt => ⟨.pod, 0x8, 1, 0x0, 0x7f, 0x0, 0x0⟩ -- POD.EVT R407
  | .podEvtCnt => ⟨.pod, 0x10, 1, 0x0, 0x0, 0x0, 0x0⟩ -- POD.EVT_CNT R407
  | .podEvtCnt2 => ⟨.pod, 0x18, 1, 0x0, 0x0, 0x0, 0x0⟩ -- POD.EVT_CNT2 R407
  | .podChSel => ⟨.pod, 0x20, 1, 0xff, 0x0, 0x0, 0x0⟩ -- POD.CH_SEL R407
  | .podChCfg => ⟨.pod, 0x28, 1, 0x3fffffffff1fff, 0x0, 0x0, 0x0⟩ -- POD.CH_CFG R407
  | .podChRing => ⟨.pod, 0x30, 1, 0xffffffffffffffff, 0x0, 0x0, 0x0⟩ -- POD.CH_RING R407
  | .podChWin => ⟨.pod, 0x38, 1, 0x1fffffffffff000, 0x0, 0x0, 0x0⟩ -- POD.CH_WIN R407
  | .podChWinsz => ⟨.pod, 0x40, 1, 0x1fffffffffff, 0x0, 0x0, 0x0⟩ -- POD.CH_WINSZ R407
  | .podChVec => ⟨.pod, 0x48, 1, 0x7ff, 0x0, 0x0, 0x0⟩ -- POD.CH_VEC R407
  | .podChCtl => ⟨.pod, 0x50, 1, 0x0, 0x0, 0x7, 0x0⟩ -- POD.CH_CTL R407
  | .podChStat => ⟨.pod, 0x58, 1, 0x0, 0x0, 0x0, 0x0⟩ -- POD.CH_STAT R407
  | .podTxBytes => ⟨.pod, 0x60, 1, 0x0, 0x0, 0x0, 0x0⟩ -- POD.TX_BYTES R407
  | .podRxBytes => ⟨.pod, 0x68, 1, 0x0, 0x0, 0x0, 0x0⟩ -- POD.RX_BYTES R407
  | .vfId => ⟨.vf, 0x0, 1, 0x0, 0x0, 0x0, 0x0⟩ -- VF.ID R432
  | .vfAlive => ⟨.vf, 0x10, 1, 0x0, 0x0, 0x0, 0x4b414c45⟩ -- VF.ALIVE R432
  | .vfStatus => ⟨.vf, 0x18, 1, 0x0, 0x0, 0x0, 0x0⟩ -- VF.STATUS R432
  | .vfSlotSel => ⟨.vf, 0x20, 1, 0x3f, 0x0, 0x0, 0x0⟩ -- VF.SLOT_SEL R432
  | .vfSlot => ⟨.vf, 0x28, 1, 0x0, 0x0, 0x0, 0x0⟩ -- VF.SLOT R432
  | .vfEvt => ⟨.vf, 0x30, 1, 0x0, 0x3, 0x0, 0x0⟩ -- VF.EVT R432
  | .vfEvtCnt => ⟨.vf, 0x38, 1, 0x0, 0x0, 0x0, 0x0⟩ -- VF.EVT_CNT R432
  | .mbxStatus => ⟨.mbx, 0x0, 1, 0x0, 0x0, 0x0, 0x1⟩ -- MBX.STATUS R469
  | .mbxCmd => ⟨.mbx, 0x8, 1, 0x1fffffffff07, 0x0, 0x0, 0x0⟩ -- MBX.CMD R469
  | .mbxOffset => ⟨.mbx, 0x10, 1, 0xfffff, 0x0, 0x0, 0x0⟩ -- MBX.OFFSET R469
  | .mbxCtl => ⟨.mbx, 0x18, 1, 0x0, 0x0, 0x3, 0x0⟩ -- MBX.CTL R469
  | .mbxEvt => ⟨.mbx, 0x20, 1, 0x0, 0x7, 0x0, 0x0⟩ -- MBX.EVT R469
  | .mbxEvtCnt => ⟨.mbx, 0x28, 1, 0x0, 0x0, 0x0, 0x0⟩ -- MBX.EVT_CNT R469
  | .mbxCfg => ⟨.mbx, 0x30, 1, 0xfff, 0x0, 0x0, 0x0⟩ -- MBX.CFG R469
  | .mbxNote0 => ⟨.mbx, 0x38, 1, 0x0, 0x0, 0x0, 0x0⟩ -- MBX.NOTE0 R469
  | .mbxNote1 => ⟨.mbx, 0x40, 1, 0x0, 0x0, 0x0, 0x0⟩ -- MBX.NOTE1 R469
  | .pwrStatus => ⟨.pwr, 0x0, 1, 0x0, 0x0, 0x0, 0x0⟩ -- PWR.STATUS R506
  | .pwrEvt => ⟨.pwr, 0x8, 1, 0x0, 0xf, 0x0, 0x0⟩ -- PWR.EVT R506
  | .pwrEvtCnt => ⟨.pwr, 0x10, 1, 0x0, 0x0, 0x0, 0x0⟩ -- PWR.EVT_CNT R506
  | .pwrCoastExits => ⟨.pwr, 0x18, 1, 0x0, 0x0, 0x0, 0x0⟩ -- PWR.COAST_EXITS R506
  | .pwrParkMs => ⟨.pwr, 0x20, 1, 0x0, 0x0, 0x0, 0x0⟩ -- PWR.PARK_MS R506
  | .bootFuse => ⟨.boot, 0x0, 1, 0x0, 0x0, 0x0, 0x0⟩ -- BOOT.FUSE R523
  | .bootStatus => ⟨.boot, 0x8, 1, 0x0, 0x0, 0x0, 0x0⟩ -- BOOT.STATUS R523
  | .bootTime0 => ⟨.boot, 0x10, 1, 0x0, 0x0, 0x0, 0x0⟩ -- BOOT.TIME0 R523
  | .bootTime1 => ⟨.boot, 0x18, 1, 0x0, 0x0, 0x0, 0x0⟩ -- BOOT.TIME1 R523
  | .bootEvt => ⟨.boot, 0x20, 1, 0x0, 0x1f, 0x0, 0x0⟩ -- BOOT.EVT R523
  | .bootEvtCnt => ⟨.boot, 0x28, 1, 0x0, 0x0, 0x0, 0x0⟩ -- BOOT.EVT_CNT R523
  | .bootEvtCnt2 => ⟨.boot, 0x30, 1, 0x0, 0x0, 0x0, 0x0⟩ -- BOOT.EVT_CNT2 R523
  | .bootResult => ⟨.boot, 0x38, 1, 0x0, 0x0, 0x0, 0x0⟩ -- BOOT.RESULT R523
  | .bootResult2 => ⟨.boot, 0x40, 1, 0x0, 0x0, 0x0, 0x0⟩ -- BOOT.RESULT2 R523
  | .faultEvt => ⟨.fault, 0x18, 1, 0x0, 0x1, 0x0, 0x0⟩ -- FAULT.EVT R545
  | .faultLostCount => ⟨.fault, 0x20, 1, 0x0, 0x0, 0x0, 0x0⟩ -- FAULT.LOST_COUNT R545
  | .trcCtl => ⟨.trc, 0x0, 1, 0x3, 0x0, 0x4, 0x0⟩ -- TRC.CTL R552
  | .trcMask => ⟨.trc, 0x8, 1, 0x3fff01fe, 0x0, 0x0, 0x0⟩ -- TRC.MASK R552
  | .trcTrig => ⟨.trc, 0x10, 1, 0x1fff00ff, 0x0, 0x0, 0x0⟩ -- TRC.TRIG R552
  | .trcStatus => ⟨.trc, 0x18, 1, 0x0, 0x0, 0x0, 0x0⟩ -- TRC.STATUS R552
  | .trcWritten => ⟨.trc, 0x20, 1, 0x0, 0x0, 0x0, 0x0⟩ -- TRC.WRITTEN R552
  | .trcEvt => ⟨.trc, 0x28, 1, 0x0, 0x3, 0x0, 0x0⟩ -- TRC.EVT R552
  | .trcEvtCnt => ⟨.trc, 0x30, 1, 0x0, 0x0, 0x0, 0x0⟩ -- TRC.EVT_CNT R552
  | .trcDcount => ⟨.trc, 0x38, 1, 0x0, 0x0, 0x0, 0x0⟩ -- TRC.DCOUNT R552
  | .trcCcount => ⟨.trc, 0x40, 1, 0x0, 0x0, 0x0, 0x0⟩ -- TRC.CCOUNT R552

/-- The registers, part 1. -/
def Reg.part1 : List Reg := [
  .hubId, .hubAlive, .hubStatus, .hubEvt, .hubEvtCnt, .hubEvtCnt2, .hubCtl, .ctxQsel, .ctxQsqBase, .ctxQcqBase, 
  .ctxQcfg, .ctxQctl, .ctxQstat, .ctxQpos, .ctxSevt, .ctxSevtCnt, .ctxSevtCnt2, .ctxRouteWin, .ctxRouteSel, 
  .ctxRouteSlot0, .ctxRouteCtl, .crankStatus, .crankEvt, .crankEvtCnt, .crankEvtCnt2, .crankCtl, .crankOps, 
  .crankMacs, .crankBusyCyc, .crankLoadStall, .crankInStall, .vecStatus, .vecEvt, .vecEvtCnt, .vecEvtCnt2, 
  .vecCtl, .vecOps, .vecRows, .vecBusyCyc, .drlStatus, .drlEvt, .drlEvtCnt, .drlEvtCnt2, .drlCtl, .drlOps, 
  .drlBytes, .redEvt, .redEvtCnt, .redSectors, .redWaitCyc, .casStatus, .casEvt, .casEvtCnt, .casEvtCnt2, 
  .casCtl, .casPoolSel, .casPoolBase, .casPoolGeom, .casPoolSize, .casPoolOwn, .casPoolCtl, .casPoolStat, 
  .casPoolStat2, .casBytes, .decEvt, .decEvtCnt, .decPages, .decInBytes, .decOutBytes, .memStatus, .memEvt, 
  .memEvtCnt, .memEvtCnt2, .memEvtCnt3, .memUeAddr, .memCtl, .memRdBytes, .memWrBytes, .memCacheHit, 
  .memCacheMiss, .memAct, .memHoldUs, .memStallUs, .memScrubLines]

/-- The registers, part 2. -/
def Reg.part2 : List Reg := [
  .cohStatus, .cohEvt, .cohEvtCnt, .cohEvtCnt2, .cohLastTo, .cohDirSel, .cohDirLo, .cohDirHi, .cohReqs, 
  .cohSnoops, .tcStatus, .tcEvt, .tcEvtCnt, .tcCtl, .tcHit, .tcMiss, .tcRangeOps, .tcRangeCyc, .syncSemSel, 
  .syncSemVal, .syncSemGrant, .syncSemCtl, .syncBarSel, .syncBarCfg, .syncBarMask0, .syncBarCtl, .syncBarStat, 
  .syncBarArr0, .syncPartSel, .syncPart, .syncCtxSel, .syncCtxCfg, .syncCtxStat, .syncCtxCtl, .syncEvt, 
  .syncEvtCnt, .syncEvtCnt2, .syncOps, .spkStatus, .spkEvt, .spkEvtCnt, .spkEvtCnt2, .spkCtl, .spkLaneSel, 
  .spkLaneStat, .spkCellsTx, .spkCellsRx, .spkStallCyc, .siteStatus, .siteEvt, .siteEvtCnt, .siteEvtCnt2, 
  .siteCtl, .siteClasses, .siteLimits, .siteVioTotal, .siteVlogSel, .siteVlogA, .siteVlogB, .siteLeaseSel, 
  .siteLease, .siteWinBase, .siteWinSize, .siteLeaseCtl, .uciStatus, .uciEvt, .uciEvtCnt, .uciEvtCnt2, 
  .uciEvtCnt3, .uciLaneSel, .uciLaneStat, .uciCellsTx, .uciCellsRx, .uciStallCyc, .rimId, .rimStatus, .rimEvt, 
  .rimEvtCnt, .rimEvtCnt2, .rimPortSel, .rimPortFlits, .rimPortStall, .rimPortErr, .rimCtl]

/-- The registers, part 3. -/
def Reg.part3 : List Reg := [
  .ctxFunc, .ctxPasid, .ctxCfg, .ctxCtl, .ctxStatus, .ctxEvt, .ctxEvtCnt, .ctxFaultVa, .ctxFaultInfo, 
  .ctxAtcHit, .ctxAtcMiss, .faultTail, .faultHead, .faultCfg, .regCfg, .regLimit, .regStatus, .regEvt, 
  .regEvtCnt, .regUrgCyc, .whlStatus, .whlMap0, .whlCtl, .whlGap, .whlEvt, .whlEvtCnt, .whlSlots0, .whlLent, 
  .podStatus, .podEvt, .podEvtCnt, .podEvtCnt2, .podChSel, .podChCfg, .podChRing, .podChWin, .podChWinsz, 
  .podChVec, .podChCtl, .podChStat, .podTxBytes, .podRxBytes, .vfId, .vfAlive, .vfStatus, .vfSlotSel, .vfSlot, 
  .vfEvt, .vfEvtCnt, .mbxStatus, .mbxCmd, .mbxOffset, .mbxCtl, .mbxEvt, .mbxEvtCnt, .mbxCfg, .mbxNote0, 
  .mbxNote1, .pwrStatus, .pwrEvt, .pwrEvtCnt, .pwrCoastExits, .pwrParkMs, .bootFuse, .bootStatus, .bootTime0, 
  .bootTime1, .bootEvt, .bootEvtCnt, .bootEvtCnt2, .bootResult, .bootResult2, .faultEvt, .faultLostCount, 
  .trcCtl, .trcMask, .trcTrig, .trcStatus, .trcWritten, .trcEvt, .trcEvtCnt, .trcDcount, .trcCcount]

/-- Every register. -/
def Reg.all : List Reg := Reg.part1 ++ Reg.part2 ++ Reg.part3

/-- The register of block `b` at byte offset `o` (a multiple of 8) and its place in its array; none where the
offset is reserved (R12). -/
def regAt (b : Block) (o : Nat) : Option (Reg × Nat) :=
  (Reg.all.find? fun r =>
    let i := r.info
    decide (i.block = b) && decide (i.off ≤ o) && decide (o < i.off + 8 * i.cnt)).map fun r => (r, (o - r.info.off) / 8)

/-- A field of a register: the register, its lowest bit and its width in bits. -/
structure Fld where
  reg : Reg
  lo  : Nat
  w   : Nat
deriving DecidableEq, Repr

/-- A W1C flag and its companion event counter (R33). -/
structure Evt where
  flag : Fld
  cnt  : Fld
deriving DecidableEq, Repr

namespace F

def hubIdPart : Fld := ⟨.hubId, 0, 16⟩
def hubIdStep : Fld := ⟨.hubId, 16, 8⟩
def hubIdFamily : Fld := ⟨.hubId, 24, 8⟩
def hubAliveSentinel : Fld := ⟨.hubAlive, 0, 32⟩
def hubStatusCtlUp : Fld := ⟨.hubStatus, 0, 1⟩
def hubStatusDataUp : Fld := ⟨.hubStatus, 1, 1⟩
def hubStatusRideThrough : Fld := ⟨.hubStatus, 2, 1⟩
def hubStatusFrozen : Fld := ⟨.hubStatus, 3, 1⟩
def hubStatusDataResetting : Fld := ⟨.hubStatus, 4, 1⟩
def hubStatusReady : Fld := ⟨.hubStatus, 5, 1⟩
def hubStatusRideMs : Fld := ⟨.hubStatus, 16, 16⟩
def hubEvtCtlRestarted : Fld := ⟨.hubEvt, 0, 1⟩
def hubEvtFroze : Fld := ⟨.hubEvt, 1, 1⟩
def hubEvtDataResetDone : Fld := ⟨.hubEvt, 2, 1⟩
def hubEvtStemResync : Fld := ⟨.hubEvt, 3, 1⟩
def hubEvtRegDropped : Fld := ⟨.hubEvt, 4, 1⟩
def hubEvtCntCtlRestartedCnt : Fld := ⟨.hubEvtCnt, 0, 16⟩
def hubEvtCntFrozeCnt : Fld := ⟨.hubEvtCnt, 16, 16⟩
def hubEvtCntDataResetDoneCnt : Fld := ⟨.hubEvtCnt, 32, 16⟩
def hubEvtCntStemResyncCnt : Fld := ⟨.hubEvtCnt, 48, 16⟩
def hubEvtCnt2RegDroppedCnt : Fld := ⟨.hubEvtCnt2, 0, 16⟩
def hubCtlDataReset : Fld := ⟨.hubCtl, 0, 1⟩
def hubCtlCtlRestart : Fld := ⟨.hubCtl, 1, 1⟩
def hubCtlEvtIntEn : Fld := ⟨.hubCtl, 2, 1⟩
def ctxQselSlot : Fld := ⟨.ctxQsel, 0, 6⟩
def ctxQsqBaseSqBase : Fld := ⟨.ctxQsqBase, 0, 64⟩
def ctxQcqBaseCqBase : Fld := ⟨.ctxQcqBase, 0, 64⟩
def ctxQcfgSqLog2 : Fld := ⟨.ctxQcfg, 0, 5⟩
def ctxQcfgCqLog2 : Fld := ⟨.ctxQcfg, 8, 5⟩
def ctxQcfgVector : Fld := ⟨.ctxQcfg, 16, 11⟩
def ctxQctlCreate : Fld := ⟨.ctxQctl, 0, 1⟩
def ctxQctlDestroy : Fld := ⟨.ctxQctl, 1, 1⟩
def ctxQctlResume : Fld := ⟨.ctxQctl, 2, 1⟩
def ctxQstatState : Fld := ⟨.ctxQstat, 0, 2⟩
def ctxQstatHaltStatus : Fld := ⟨.ctxQstat, 2, 8⟩
def ctxQstatQnum : Fld := ⟨.ctxQstat, 10, 18⟩
def ctxQstatHead : Fld := ⟨.ctxQstat, 32, 32⟩
def ctxQposHaltAt : Fld := ⟨.ctxQpos, 0, 32⟩
def ctxQposResumeAt : Fld := ⟨.ctxQpos, 32, 32⟩
def ctxSevtHalted : Fld := ⟨.ctxSevt, 0, 1⟩
def ctxSevtDbStale : Fld := ⟨.ctxSevt, 1, 1⟩
def ctxSevtDbDropped : Fld := ⟨.ctxSevt, 2, 1⟩
def ctxSevtCfgRefused : Fld := ⟨.ctxSevt, 3, 1⟩
def ctxSevtRouteRefused : Fld := ⟨.ctxSevt, 4, 1⟩
def ctxSevtCntHaltedCnt : Fld := ⟨.ctxSevtCnt, 0, 16⟩
def ctxSevtCntDbStaleCnt : Fld := ⟨.ctxSevtCnt, 16, 16⟩
def ctxSevtCntDbDroppedCnt : Fld := ⟨.ctxSevtCnt, 32, 16⟩
def ctxSevtCntCfgRefusedCnt : Fld := ⟨.ctxSevtCnt, 48, 16⟩
def ctxSevtCnt2RouteRefusedCnt : Fld := ⟨.ctxSevtCnt2, 0, 16⟩
def ctxSevtCnt2LastSlot : Fld := ⟨.ctxSevtCnt2, 16, 6⟩
def ctxRouteWinBase : Fld := ⟨.ctxRouteWin, 0, 16⟩
def ctxRouteWinCount : Fld := ⟨.ctxRouteWin, 16, 17⟩
def ctxRouteSelIndex : Fld := ⟨.ctxRouteSel, 0, 16⟩
def ctxRouteCtlWrite : Fld := ⟨.ctxRouteCtl, 0, 1⟩
def ctxRouteCtlRead : Fld := ⟨.ctxRouteCtl, 1, 1⟩
def ctxRouteCtlResult : Fld := ⟨.ctxRouteCtl, 8, 8⟩
def crankStatusState : Fld := ⟨.crankStatus, 0, 2⟩
def crankStatusShape : Fld := ⟨.crankStatus, 2, 3⟩
def crankStatusResident : Fld := ⟨.crankStatus, 5, 2⟩
def crankStatusBist : Fld := ⟨.crankStatus, 8, 2⟩
def crankStatusClkMhz : Fld := ⟨.crankStatus, 16, 16⟩
def crankEvtPoisonOut : Fld := ⟨.crankEvt, 0, 1⟩
def crankEvtWregParity : Fld := ⟨.crankEvt, 1, 1⟩
def crankEvtEccCorr : Fld := ⟨.crankEvt, 2, 1⟩
def crankEvtEccUncorr : Fld := ⟨.crankEvt, 3, 1⟩
def crankEvtShapeDemoted : Fld := ⟨.crankEvt, 4, 1⟩
def crankEvtLost : Fld := ⟨.crankEvt, 5, 1⟩
def crankEvtIntSat : Fld := ⟨.crankEvt, 6, 1⟩
def crankEvtFpOvf : Fld := ⟨.crankEvt, 7, 1⟩
def crankEvtCntPoisonOutCnt : Fld := ⟨.crankEvtCnt, 0, 16⟩
def crankEvtCntWregParityCnt : Fld := ⟨.crankEvtCnt, 16, 16⟩
def crankEvtCntEccCorrCnt : Fld := ⟨.crankEvtCnt, 32, 16⟩
def crankEvtCntEccUncorrCnt : Fld := ⟨.crankEvtCnt, 48, 16⟩
def crankEvtCnt2ShapeDemotedCnt : Fld := ⟨.crankEvtCnt2, 0, 16⟩
def crankEvtCnt2LostCnt : Fld := ⟨.crankEvtCnt2, 16, 16⟩
def crankEvtCnt2IntSatCnt : Fld := ⟨.crankEvtCnt2, 32, 16⟩
def crankEvtCnt2FpOvfCnt : Fld := ⟨.crankEvtCnt2, 48, 16⟩
def crankCtlSelftest : Fld := ⟨.crankCtl, 0, 1⟩
def crankOpsOps : Fld := ⟨.crankOps, 0, 64⟩
def crankMacsMacs : Fld := ⟨.crankMacs, 0, 64⟩
def crankBusyCycBusy : Fld := ⟨.crankBusyCyc, 0, 64⟩
def crankLoadStallLoad : Fld := ⟨.crankLoadStall, 0, 64⟩
def crankInStallIn : Fld := ⟨.crankInStall, 0, 64⟩
def vecStatusState : Fld := ⟨.vecStatus, 0, 2⟩
def vecStatusBist : Fld := ⟨.vecStatus, 8, 2⟩
def vecEvtPoisonOut : Fld := ⟨.vecEvt, 0, 1⟩
def vecEvtEccCorr : Fld := ⟨.vecEvt, 1, 1⟩
def vecEvtEccUncorr : Fld := ⟨.vecEvt, 2, 1⟩
def vecEvtLost : Fld := ⟨.vecEvt, 3, 1⟩
def vecEvtFpOvf : Fld := ⟨.vecEvt, 4, 1⟩
def vecEvtCntPoisonOutCnt : Fld := ⟨.vecEvtCnt, 0, 16⟩
def vecEvtCntEccCorrCnt : Fld := ⟨.vecEvtCnt, 16, 16⟩
def vecEvtCntEccUncorrCnt : Fld := ⟨.vecEvtCnt, 32, 16⟩
def vecEvtCntLostCnt : Fld := ⟨.vecEvtCnt, 48, 16⟩
def vecEvtCnt2FpOvfCnt : Fld := ⟨.vecEvtCnt2, 0, 16⟩
def vecCtlSelftest : Fld := ⟨.vecCtl, 0, 1⟩
def vecOpsOps : Fld := ⟨.vecOps, 0, 64⟩
def vecRowsRows : Fld := ⟨.vecRows, 0, 64⟩
def vecBusyCycBusy : Fld := ⟨.vecBusyCyc, 0, 64⟩
def drlStatusState : Fld := ⟨.drlStatus, 0, 2⟩
def drlStatusBist : Fld := ⟨.drlStatus, 8, 2⟩
def drlEvtPoisonOut : Fld := ⟨.drlEvt, 0, 1⟩
def drlEvtEccCorr : Fld := ⟨.drlEvt, 1, 1⟩
def drlEvtEccUncorr : Fld := ⟨.drlEvt, 2, 1⟩
def drlEvtLost : Fld := ⟨.drlEvt, 3, 1⟩
def drlEvtSatClip : Fld := ⟨.drlEvt, 4, 1⟩
def drlEvtNonfinite : Fld := ⟨.drlEvt, 5, 1⟩
def drlEvtIdxRange : Fld := ⟨.drlEvt, 6, 1⟩
def drlEvtCntPoisonOutCnt : Fld := ⟨.drlEvtCnt, 0, 16⟩
def drlEvtCntEccCorrCnt : Fld := ⟨.drlEvtCnt, 16, 16⟩
def drlEvtCntEccUncorrCnt : Fld := ⟨.drlEvtCnt, 32, 16⟩
def drlEvtCntLostCnt : Fld := ⟨.drlEvtCnt, 48, 16⟩
def drlEvtCnt2SatClipCnt : Fld := ⟨.drlEvtCnt2, 0, 16⟩
def drlEvtCnt2NonfiniteCnt : Fld := ⟨.drlEvtCnt2, 16, 16⟩
def drlEvtCnt2IdxRangeCnt : Fld := ⟨.drlEvtCnt2, 32, 16⟩
def drlCtlSelftest : Fld := ⟨.drlCtl, 0, 1⟩
def drlOpsOps : Fld := ⟨.drlOps, 0, 64⟩
def drlBytesBytes : Fld := ⟨.drlBytes, 0, 64⟩
def redEvtPoisonHit : Fld := ⟨.redEvt, 0, 1⟩
def redEvtCodeErr : Fld := ⟨.redEvt, 1, 1⟩
def redEvtFpOvf : Fld := ⟨.redEvt, 2, 1⟩
def redEvtIntWrap : Fld := ⟨.redEvt, 3, 1⟩
def redEvtCntPoisonHitCnt : Fld := ⟨.redEvtCnt, 0, 16⟩
def redEvtCntCodeErrCnt : Fld := ⟨.redEvtCnt, 16, 16⟩
def redEvtCntFpOvfCnt : Fld := ⟨.redEvtCnt, 32, 16⟩
def redEvtCntIntWrapCnt : Fld := ⟨.redEvtCnt, 48, 16⟩
def redSectorsSectors : Fld := ⟨.redSectors, 0, 64⟩
def redWaitCycWait : Fld := ⟨.redWaitCyc, 0, 64⟩
def casStatusState : Fld := ⟨.casStatus, 0, 2⟩
def casStatusBist : Fld := ⟨.casStatus, 8, 2⟩
def casStatusOpenSlots : Fld := ⟨.casStatus, 16, 10⟩
def casEvtPoisonOut : Fld := ⟨.casEvt, 0, 1⟩
def casEvtEccCorr : Fld := ⟨.casEvt, 1, 1⟩
def casEvtEccUncorr : Fld := ⟨.casEvt, 2, 1⟩
def casEvtLost : Fld := ⟨.casEvt, 3, 1⟩
def casEvtListBad : Fld := ⟨.casEvt, 4, 1⟩
def casEvtPoolBroken : Fld := ⟨.casEvt, 5, 1⟩
def casEvtCow : Fld := ⟨.casEvt, 6, 1⟩
def casEvtCntPoisonOutCnt : Fld := ⟨.casEvtCnt, 0, 16⟩
def casEvtCntEccCorrCnt : Fld := ⟨.casEvtCnt, 16, 16⟩
def casEvtCntEccUncorrCnt : Fld := ⟨.casEvtCnt, 32, 16⟩
def casEvtCntLostCnt : Fld := ⟨.casEvtCnt, 48, 16⟩
def casEvtCnt2ListBadCnt : Fld := ⟨.casEvtCnt2, 0, 16⟩
def casEvtCnt2PoolBrokenCnt : Fld := ⟨.casEvtCnt2, 16, 16⟩
def casEvtCnt2CowCnt : Fld := ⟨.casEvtCnt2, 32, 16⟩
def casCtlSelftest : Fld := ⟨.casCtl, 0, 1⟩
def casPoolSelPool : Fld := ⟨.casPoolSel, 0, 5⟩
def casPoolBaseBase : Fld := ⟨.casPoolBase, 0, 64⟩
def casPoolGeomPageLog : Fld := ⟨.casPoolGeom, 0, 3⟩
def casPoolGeomFormat : Fld := ⟨.casPoolGeom, 8, 8⟩
def casPoolGeomLayers : Fld := ⟨.casPoolGeom, 16, 8⟩
def casPoolGeomHeads : Fld := ⟨.casPoolGeom, 24, 7⟩
def casPoolGeomHeadDim : Fld := ⟨.casPoolGeom, 32, 11⟩
def casPoolSizeFrames : Fld := ⟨.casPoolSize, 0, 21⟩
def casPoolSizeLists : Fld := ⟨.casPoolSize, 32, 18⟩
def casPoolOwnContext : Fld := ⟨.casPoolOwn, 0, 13⟩
def casPoolOwnSlotBase : Fld := ⟨.casPoolOwn, 16, 9⟩
def casPoolOwnSlotCount : Fld := ⟨.casPoolOwn, 32, 10⟩
def casPoolCtlBind : Fld := ⟨.casPoolCtl, 0, 1⟩
def casPoolCtlUnbind : Fld := ⟨.casPoolCtl, 1, 1⟩
def casPoolCtlResult : Fld := ⟨.casPoolCtl, 8, 8⟩
def casPoolStatState : Fld := ⟨.casPoolStat, 0, 2⟩
def casPoolStatFreeFrames : Fld := ⟨.casPoolStat, 32, 21⟩
def casPoolStat2FreeLists : Fld := ⟨.casPoolStat2, 0, 18⟩
def casBytesBytes : Fld := ⟨.casBytes, 0, 64⟩
def decEvtHdrBad : Fld := ⟨.decEvt, 0, 1⟩
def decEvtStreamBad : Fld := ⟨.decEvt, 1, 1⟩
def decEvtPoisonIn : Fld := ⟨.decEvt, 2, 1⟩
def decEvtCntHdrBadCnt : Fld := ⟨.decEvtCnt, 0, 16⟩
def decEvtCntStreamBadCnt : Fld := ⟨.decEvtCnt, 16, 16⟩
def decEvtCntPoisonInCnt : Fld := ⟨.decEvtCnt, 32, 16⟩
def decPagesPages : Fld := ⟨.decPages, 0, 64⟩
def decInBytesIn : Fld := ⟨.decInBytes, 0, 64⟩
def decOutBytesOut : Fld := ⟨.decOutBytes, 0, 64⟩
def memStatusState : Fld := ⟨.memStatus, 0, 3⟩
def memStatusTherm : Fld := ⟨.memStatus, 3, 3⟩
def memStatusBin : Fld := ⟨.memStatus, 6, 3⟩
def memStatusLightTrained : Fld := ⟨.memStatus, 9, 1⟩
def memStatusTemp : Fld := ⟨.memStatus, 16, 8⟩
def memStatusMargin : Fld := ⟨.memStatus, 24, 6⟩
def memStatusLoadPct : Fld := ⟨.memStatus, 32, 7⟩
def memEvtCe : Fld := ⟨.memEvt, 0, 1⟩
def memEvtUe : Fld := ⟨.memEvt, 1, 1⟩
def memEvtPoisonRd : Fld := ⟨.memEvt, 2, 1⟩
def memEvtRetrain : Fld := ⟨.memEvt, 3, 1⟩
def memEvtStepDown : Fld := ⟨.memEvt, 4, 1⟩
def memEvtHold : Fld := ⟨.memEvt, 5, 1⟩
def memEvtMirrorFix : Fld := ⟨.memEvt, 6, 1⟩
def memEvtFenceHit : Fld := ⟨.memEvt, 7, 1⟩
def memEvtRoWrite : Fld := ⟨.memEvt, 8, 1⟩
def memEvtCacheCe : Fld := ⟨.memEvt, 9, 1⟩
def memEvtCacheUe : Fld := ⟨.memEvt, 10, 1⟩
def memEvtFailed : Fld := ⟨.memEvt, 11, 1⟩
def memEvtCntCeCnt : Fld := ⟨.memEvtCnt, 0, 16⟩
def memEvtCntUeCnt : Fld := ⟨.memEvtCnt, 16, 16⟩
def memEvtCntPoisonRdCnt : Fld := ⟨.memEvtCnt, 32, 16⟩
def memEvtCntRetrainCnt : Fld := ⟨.memEvtCnt, 48, 16⟩
def memEvtCnt2StepDownCnt : Fld := ⟨.memEvtCnt2, 0, 16⟩
def memEvtCnt2HoldCnt : Fld := ⟨.memEvtCnt2, 16, 16⟩
def memEvtCnt2MirrorFixCnt : Fld := ⟨.memEvtCnt2, 32, 16⟩
def memEvtCnt2FenceHitCnt : Fld := ⟨.memEvtCnt2, 48, 16⟩
def memEvtCnt3RoWriteCnt : Fld := ⟨.memEvtCnt3, 0, 16⟩
def memEvtCnt3CacheCeCnt : Fld := ⟨.memEvtCnt3, 16, 16⟩
def memEvtCnt3CacheUeCnt : Fld := ⟨.memEvtCnt3, 32, 16⟩
def memEvtCnt3FailedCnt : Fld := ⟨.memEvtCnt3, 48, 16⟩
def memUeAddrDpa : Fld := ⟨.memUeAddr, 0, 39⟩
def memUeAddrMirror : Fld := ⟨.memUeAddr, 39, 1⟩
def memUeAddrValid : Fld := ⟨.memUeAddr, 40, 1⟩
def memCtlScrubNow : Fld := ⟨.memCtl, 0, 1⟩
def memCtlRetrain : Fld := ⟨.memCtl, 1, 1⟩
def memRdBytesRd : Fld := ⟨.memRdBytes, 0, 64⟩
def memWrBytesWr : Fld := ⟨.memWrBytes, 0, 64⟩
def memCacheHitHit : Fld := ⟨.memCacheHit, 0, 64⟩
def memCacheMissMiss : Fld := ⟨.memCacheMiss, 0, 64⟩
def memActAct : Fld := ⟨.memAct, 0, 64⟩
def memHoldUsHold : Fld := ⟨.memHoldUs, 0, 64⟩
def memStallUsStall : Fld := ⟨.memStallUs, 0, 64⟩
def memScrubLinesScrub : Fld := ⟨.memScrubLines, 0, 64⟩
def cohStatusUsed : Fld := ⟨.cohStatus, 0, 17⟩
def cohStatusBcast : Fld := ⟨.cohStatus, 32, 17⟩
def cohEvtTimeout : Fld := ⟨.cohEvt, 0, 1⟩
def cohEvtPoisonWr : Fld := ⟨.cohEvt, 1, 1⟩
def cohEvtBackInval : Fld := ⟨.cohEvt, 2, 1⟩
def cohEvtDirCe : Fld := ⟨.cohEvt, 3, 1⟩
def cohEvtProto : Fld := ⟨.cohEvt, 4, 1⟩
def cohEvtNack : Fld := ⟨.cohEvt, 5, 1⟩
def cohEvtDirUe : Fld := ⟨.cohEvt, 6, 1⟩
def cohEvtCntTimeoutCnt : Fld := ⟨.cohEvtCnt, 0, 16⟩
def cohEvtCntPoisonWrCnt : Fld := ⟨.cohEvtCnt, 16, 16⟩
def cohEvtCntBackInvalCnt : Fld := ⟨.cohEvtCnt, 32, 16⟩
def cohEvtCntDirCeCnt : Fld := ⟨.cohEvtCnt, 48, 16⟩
def cohEvtCnt2ProtoCnt : Fld := ⟨.cohEvtCnt2, 0, 16⟩
def cohEvtCnt2NackCnt : Fld := ⟨.cohEvtCnt2, 16, 16⟩
def cohEvtCnt2DirUeCnt : Fld := ⟨.cohEvtCnt2, 32, 16⟩
def cohLastToAgent : Fld := ⟨.cohLastTo, 0, 8⟩
def cohLastToOwner : Fld := ⟨.cohLastTo, 8, 1⟩
def cohLastToValid : Fld := ⟨.cohLastTo, 9, 1⟩
def cohLastToDpa : Fld := ⟨.cohLastTo, 16, 33⟩
def cohDirSelIndex : Fld := ⟨.cohDirSel, 0, 16⟩
def cohDirSelRead : Fld := ⟨.cohDirSel, 16, 1⟩
def cohDirLoLo : Fld := ⟨.cohDirLo, 0, 64⟩
def cohDirHiHi : Fld := ⟨.cohDirHi, 0, 64⟩
def cohReqsReqs : Fld := ⟨.cohReqs, 0, 64⟩
def cohSnoopsSnoops : Fld := ⟨.cohSnoops, 0, 64⟩
def tcStatusLines : Fld := ⟨.tcStatus, 0, 17⟩
def tcEvtEccCorr : Fld := ⟨.tcEvt, 0, 1⟩
def tcEvtEccUncorr : Fld := ⟨.tcEvt, 1, 1⟩
def tcEvtCntEccCorrCnt : Fld := ⟨.tcEvtCnt, 0, 16⟩
def tcEvtCntEccUncorrCnt : Fld := ⟨.tcEvtCnt, 16, 16⟩
def tcCtlInvalAll : Fld := ⟨.tcCtl, 0, 1⟩
def tcHitHit : Fld := ⟨.tcHit, 0, 64⟩
def tcMissMiss : Fld := ⟨.tcMiss, 0, 64⟩
def tcRangeOpsOps : Fld := ⟨.tcRangeOps, 0, 64⟩
def tcRangeCycCyc : Fld := ⟨.tcRangeCyc, 0, 64⟩
def syncSemSelSem : Fld := ⟨.syncSemSel, 0, 17⟩
def syncSemSelCtx : Fld := ⟨.syncSemSel, 32, 13⟩
def syncSemValValue : Fld := ⟨.syncSemVal, 0, 64⟩
def syncSemGrantGrantee : Fld := ⟨.syncSemGrant, 0, 13⟩
def syncSemGrantWait : Fld := ⟨.syncSemGrant, 16, 1⟩
def syncSemGrantPost : Fld := ⟨.syncSemGrant, 17, 1⟩
def syncSemCtlInit : Fld := ⟨.syncSemCtl, 0, 1⟩
def syncSemCtlFree : Fld := ⟨.syncSemCtl, 1, 1⟩
def syncSemCtlGrant : Fld := ⟨.syncSemCtl, 2, 1⟩
def syncSemCtlRevoke : Fld := ⟨.syncSemCtl, 3, 1⟩
def syncSemCtlResult : Fld := ⟨.syncSemCtl, 8, 8⟩
def syncBarSelBarrier : Fld := ⟨.syncBarSel, 0, 9⟩
def syncBarCfgArriveSem : Fld := ⟨.syncBarCfg, 0, 17⟩
def syncBarCfgReleaseSem : Fld := ⟨.syncBarCfg, 17, 17⟩
def syncBarCfgCtx : Fld := ⟨.syncBarCfg, 34, 13⟩
def syncBarMask0Mask : Fld := ⟨.syncBarMask0, 0, 64⟩
def syncBarCtlCreate : Fld := ⟨.syncBarCtl, 0, 1⟩
def syncBarCtlDestroy : Fld := ⟨.syncBarCtl, 1, 1⟩
def syncBarCtlForce : Fld := ⟨.syncBarCtl, 2, 1⟩
def syncBarCtlResult : Fld := ⟨.syncBarCtl, 8, 8⟩
def syncBarStatState : Fld := ⟨.syncBarStat, 0, 2⟩
def syncBarStatArrived : Fld := ⟨.syncBarStat, 2, 9⟩
def syncBarStatGen : Fld := ⟨.syncBarStat, 32, 32⟩
def syncBarArr0Arr : Fld := ⟨.syncBarArr0, 0, 64⟩
def syncPartSelCtx : Fld := ⟨.syncPartSel, 0, 13⟩
def syncPartSelPart : Fld := ⟨.syncPartSel, 16, 8⟩
def syncPartKind : Fld := ⟨.syncPart, 0, 2⟩
def syncPartId : Fld := ⟨.syncPart, 16, 16⟩
def syncCtxSelCtx : Fld := ⟨.syncCtxSel, 0, 13⟩
def syncCtxCfgWdogMs : Fld := ⟨.syncCtxCfg, 0, 20⟩
def syncCtxCfgVector : Fld := ⟨.syncCtxCfg, 20, 11⟩
def syncCtxStatWaiters : Fld := ⟨.syncCtxStat, 0, 15⟩
def syncCtxStatWdogWhat : Fld := ⟨.syncCtxStat, 16, 18⟩
def syncCtxStatAuditDiff : Fld := ⟨.syncCtxStat, 34, 1⟩
def syncCtxStatAuditSem : Fld := ⟨.syncCtxStat, 35, 17⟩
def syncCtxStatAuditN : Fld := ⟨.syncCtxStat, 52, 12⟩
def syncCtxCtlAudit : Fld := ⟨.syncCtxCtl, 0, 1⟩
def syncEvtWdog : Fld := ⟨.syncEvt, 0, 1⟩
def syncEvtAbandon : Fld := ⟨.syncEvt, 1, 1⟩
def syncEvtAuditDiff : Fld := ⟨.syncEvt, 2, 1⟩
def syncEvtBarStray : Fld := ⟨.syncEvt, 3, 1⟩
def syncEvtSat : Fld := ⟨.syncEvt, 4, 1⟩
def syncEvtRights : Fld := ⟨.syncEvt, 5, 1⟩
def syncEvtHandSet : Fld := ⟨.syncEvt, 6, 1⟩
def syncEvtCfgRefused : Fld := ⟨.syncEvt, 7, 1⟩
def syncEvtCntWdogCnt : Fld := ⟨.syncEvtCnt, 0, 16⟩
def syncEvtCntAbandonCnt : Fld := ⟨.syncEvtCnt, 16, 16⟩
def syncEvtCntAuditDiffCnt : Fld := ⟨.syncEvtCnt, 32, 16⟩
def syncEvtCntBarStrayCnt : Fld := ⟨.syncEvtCnt, 48, 16⟩
def syncEvtCnt2SatCnt : Fld := ⟨.syncEvtCnt2, 0, 16⟩
def syncEvtCnt2RightsCnt : Fld := ⟨.syncEvtCnt2, 16, 16⟩
def syncEvtCnt2HandSetCnt : Fld := ⟨.syncEvtCnt2, 32, 16⟩
def syncEvtCnt2CfgRefusedCnt : Fld := ⟨.syncEvtCnt2, 48, 16⟩
def syncOpsOps : Fld := ⟨.syncOps, 0, 64⟩
def spkStatusState : Fld := ⟨.spkStatus, 0, 3⟩
def spkStatusWidth : Fld := ⟨.spkStatus, 3, 2⟩
def spkStatusClass : Fld := ⟨.spkStatus, 5, 2⟩
def spkStatusDnSpares : Fld := ⟨.spkStatus, 8, 8⟩
def spkStatusUpSpares : Fld := ⟨.spkStatus, 16, 8⟩
def spkStatusMargin : Fld := ⟨.spkStatus, 24, 6⟩
def spkEvtLaneRepair : Fld := ⟨.spkEvt, 0, 1⟩
def spkEvtWidthDown : Fld := ⟨.spkEvt, 1, 1⟩
def spkEvtHbLost : Fld := ⟨.spkEvt, 2, 1⟩
def spkEvtRstReq : Fld := ⟨.spkEvt, 3, 1⟩
def spkEvtGuestErr : Fld := ⟨.spkEvt, 4, 1⟩
def spkEvtCellCe : Fld := ⟨.spkEvt, 5, 1⟩
def spkEvtCellUe : Fld := ⟨.spkEvt, 6, 1⟩
def spkEvtCreditViol : Fld := ⟨.spkEvt, 7, 1⟩
def spkEvtCntLaneRepairCnt : Fld := ⟨.spkEvtCnt, 0, 16⟩
def spkEvtCntWidthDownCnt : Fld := ⟨.spkEvtCnt, 16, 16⟩
def spkEvtCntHbLostCnt : Fld := ⟨.spkEvtCnt, 32, 16⟩
def spkEvtCntRstReqCnt : Fld := ⟨.spkEvtCnt, 48, 16⟩
def spkEvtCnt2GuestErrCnt : Fld := ⟨.spkEvtCnt2, 0, 16⟩
def spkEvtCnt2CellCeCnt : Fld := ⟨.spkEvtCnt2, 16, 16⟩
def spkEvtCnt2CellUeCnt : Fld := ⟨.spkEvtCnt2, 32, 16⟩
def spkEvtCnt2CreditViolCnt : Fld := ⟨.spkEvtCnt2, 48, 16⟩
def spkCtlTrueNow : Fld := ⟨.spkCtl, 0, 1⟩
def spkLaneSelGroup : Fld := ⟨.spkLaneSel, 0, 5⟩
def spkLaneSelDir : Fld := ⟨.spkLaneSel, 5, 1⟩
def spkLaneSelLane : Fld := ⟨.spkLaneSel, 6, 8⟩
def spkLaneStatMargin : Fld := ⟨.spkLaneStat, 0, 6⟩
def spkLaneStatFailed : Fld := ⟨.spkLaneStat, 6, 1⟩
def spkLaneStatSubst : Fld := ⟨.spkLaneStat, 7, 1⟩
def spkLaneStatForLane : Fld := ⟨.spkLaneStat, 8, 7⟩
def spkLaneStatCe : Fld := ⟨.spkLaneStat, 16, 16⟩
def spkLaneStatCodeFail : Fld := ⟨.spkLaneStat, 32, 16⟩
def spkCellsTxTx : Fld := ⟨.spkCellsTx, 0, 64⟩
def spkCellsRxRx : Fld := ⟨.spkCellsRx, 0, 64⟩
def spkStallCycStall : Fld := ⟨.spkStallCyc, 0, 64⟩
def siteStatusState : Fld := ⟨.siteStatus, 0, 3⟩
def siteStatusAnchor : Fld := ⟨.siteStatus, 3, 6⟩
def siteStatusVerified : Fld := ⟨.siteStatus, 9, 1⟩
def siteStatusShared : Fld := ⟨.siteStatus, 10, 1⟩
def siteStatusCause : Fld := ⟨.siteStatus, 16, 4⟩
def siteStatusRefuse : Fld := ⟨.siteStatus, 20, 4⟩
def siteStatusLeases : Fld := ⟨.siteStatus, 24, 5⟩
def siteEvtAdmitted : Fld := ⟨.siteEvt, 0, 1⟩
def siteEvtIsolated : Fld := ⟨.siteEvt, 1, 1⟩
def siteEvtRefused : Fld := ⟨.siteEvt, 2, 1⟩
def siteEvtViolation : Fld := ⟨.siteEvt, 3, 1⟩
def siteEvtLeaseEnded : Fld := ⟨.siteEvt, 4, 1⟩
def siteEvtStnErr : Fld := ⟨.siteEvt, 5, 1⟩
def siteEvtSigFail : Fld := ⟨.siteEvt, 6, 1⟩
def siteEvtCntAdmittedCnt : Fld := ⟨.siteEvtCnt, 0, 16⟩
def siteEvtCntIsolatedCnt : Fld := ⟨.siteEvtCnt, 16, 16⟩
def siteEvtCntRefusedCnt : Fld := ⟨.siteEvtCnt, 32, 16⟩
def siteEvtCntViolationCnt : Fld := ⟨.siteEvtCnt, 48, 16⟩
def siteEvtCnt2LeaseEndedCnt : Fld := ⟨.siteEvtCnt2, 0, 16⟩
def siteEvtCnt2StnErrCnt : Fld := ⟨.siteEvtCnt2, 16, 16⟩
def siteEvtCnt2SigFailCnt : Fld := ⟨.siteEvtCnt2, 32, 16⟩
def siteCtlIsolate : Fld := ⟨.siteCtl, 0, 1⟩
def siteCtlReadmit : Fld := ⟨.siteCtl, 1, 1⟩
def siteCtlResult : Fld := ⟨.siteCtl, 8, 8⟩
def siteClassesClasses : Fld := ⟨.siteClasses, 0, 6⟩
def siteLimitsRdMax : Fld := ⟨.siteLimits, 0, 16⟩
def siteLimitsWrMax : Fld := ⟨.siteLimits, 16, 16⟩
def siteLimitsCohMax : Fld := ⟨.siteLimits, 32, 16⟩
def siteLimitsSemMax : Fld := ⟨.siteLimits, 48, 16⟩
def siteVioTotalTotal : Fld := ⟨.siteVioTotal, 0, 64⟩
def siteVlogSelEntry : Fld := ⟨.siteVlogSel, 0, 4⟩
def siteVlogAKind : Fld := ⟨.siteVlogA, 0, 4⟩
def siteVlogACtx : Fld := ⟨.siteVlogA, 4, 13⟩
def siteVlogASrc : Fld := ⟨.siteVlogA, 17, 8⟩
def siteVlogASrcAgent : Fld := ⟨.siteVlogA, 25, 1⟩
def siteVlogASeq : Fld := ⟨.siteVlogA, 32, 32⟩
def siteVlogBVa : Fld := ⟨.siteVlogB, 0, 57⟩
def siteLeaseSelSlot : Fld := ⟨.siteLeaseSel, 0, 4⟩
def siteLeaseSelWin : Fld := ⟨.siteLeaseSel, 4, 3⟩
def siteLeaseCtx : Fld := ⟨.siteLease, 0, 13⟩
def siteLeaseState : Fld := ⟨.siteLease, 16, 2⟩
def siteWinBaseR : Fld := ⟨.siteWinBase, 0, 1⟩
def siteWinBaseW : Fld := ⟨.siteWinBase, 1, 1⟩
def siteWinBaseBase : Fld := ⟨.siteWinBase, 12, 45⟩
def siteWinSizePages : Fld := ⟨.siteWinSize, 0, 45⟩
def siteLeaseCtlGrant : Fld := ⟨.siteLeaseCtl, 0, 1⟩
def siteLeaseCtlEnd : Fld := ⟨.siteLeaseCtl, 1, 1⟩
def siteLeaseCtlResult : Fld := ⟨.siteLeaseCtl, 8, 8⟩
def uciStatusState : Fld := ⟨.uciStatus, 0, 3⟩
def uciStatusRate : Fld := ⟨.uciStatus, 3, 2⟩
def uciStatusX32 : Fld := ⟨.uciStatus, 5, 1⟩
def uciStatusHalf : Fld := ⟨.uciStatus, 6, 4⟩
def uciStatusTxSpares : Fld := ⟨.uciStatus, 16, 8⟩
def uciStatusRxSpares : Fld := ⟨.uciStatus, 24, 8⟩
def uciEvtLaneRepair : Fld := ⟨.uciEvt, 0, 1⟩
def uciEvtWidthDown : Fld := ⟨.uciEvt, 1, 1⟩
def uciEvtHbLost : Fld := ⟨.uciEvt, 2, 1⟩
def uciEvtRstReq : Fld := ⟨.uciEvt, 3, 1⟩
def uciEvtGuestErr : Fld := ⟨.uciEvt, 4, 1⟩
def uciEvtCellCe : Fld := ⟨.uciEvt, 5, 1⟩
def uciEvtCellUe : Fld := ⟨.uciEvt, 6, 1⟩
def uciEvtCreditViol : Fld := ⟨.uciEvt, 7, 1⟩
def uciEvtLinkDown : Fld := ⟨.uciEvt, 8, 1⟩
def uciEvtSbErr : Fld := ⟨.uciEvt, 9, 1⟩
def uciEvtCntLaneRepairCnt : Fld := ⟨.uciEvtCnt, 0, 16⟩
def uciEvtCntWidthDownCnt : Fld := ⟨.uciEvtCnt, 16, 16⟩
def uciEvtCntHbLostCnt : Fld := ⟨.uciEvtCnt, 32, 16⟩
def uciEvtCntRstReqCnt : Fld := ⟨.uciEvtCnt, 48, 16⟩
def uciEvtCnt2GuestErrCnt : Fld := ⟨.uciEvtCnt2, 0, 16⟩
def uciEvtCnt2CellCeCnt : Fld := ⟨.uciEvtCnt2, 16, 16⟩
def uciEvtCnt2CellUeCnt : Fld := ⟨.uciEvtCnt2, 32, 16⟩
def uciEvtCnt2CreditViolCnt : Fld := ⟨.uciEvtCnt2, 48, 16⟩
def uciEvtCnt3LinkDownCnt : Fld := ⟨.uciEvtCnt3, 0, 16⟩
def uciEvtCnt3SbErrCnt : Fld := ⟨.uciEvtCnt3, 16, 16⟩
def uciLaneSelModule : Fld := ⟨.uciLaneSel, 0, 2⟩
def uciLaneSelDir : Fld := ⟨.uciLaneSel, 2, 1⟩
def uciLaneSelLane : Fld := ⟨.uciLaneSel, 3, 7⟩
def uciLaneStatFailed : Fld := ⟨.uciLaneStat, 0, 1⟩
def uciLaneStatSubst : Fld := ⟨.uciLaneStat, 1, 1⟩
def uciLaneStatForLane : Fld := ⟨.uciLaneStat, 2, 7⟩
def uciLaneStatCe : Fld := ⟨.uciLaneStat, 16, 16⟩
def uciCellsTxTx : Fld := ⟨.uciCellsTx, 0, 64⟩
def uciCellsRxRx : Fld := ⟨.uciCellsRx, 0, 64⟩
def uciStallCycStall : Fld := ⟨.uciStallCyc, 0, 64⟩
def rimIdRouter : Fld := ⟨.rimId, 0, 6⟩
def rimIdX : Fld := ⟨.rimId, 8, 3⟩
def rimIdY : Fld := ⟨.rimId, 12, 3⟩
def rimIdEpKind : Fld := ⟨.rimId, 16, 4⟩
def rimIdEpIndex : Fld := ⟨.rimId, 24, 6⟩
def rimIdFused : Fld := ⟨.rimId, 30, 1⟩
def rimStatusLinkFailed : Fld := ⟨.rimStatus, 0, 4⟩
def rimStatusHome : Fld := ⟨.rimStatus, 4, 1⟩
def rimEvtFlitCe : Fld := ⟨.rimEvt, 0, 1⟩
def rimEvtRetry : Fld := ⟨.rimEvt, 1, 1⟩
def rimEvtLinkFail : Fld := ⟨.rimEvt, 2, 1⟩
def rimEvtFlitUe : Fld := ⟨.rimEvt, 3, 1⟩
def rimEvtRouteErr : Fld := ⟨.rimEvt, 4, 1⟩
def rimEvtCntFlitCeCnt : Fld := ⟨.rimEvtCnt, 0, 16⟩
def rimEvtCntRetryCnt : Fld := ⟨.rimEvtCnt, 16, 16⟩
def rimEvtCntLinkFailCnt : Fld := ⟨.rimEvtCnt, 32, 16⟩
def rimEvtCntFlitUeCnt : Fld := ⟨.rimEvtCnt, 48, 16⟩
def rimEvtCnt2RouteErrCnt : Fld := ⟨.rimEvtCnt2, 0, 16⟩
def rimPortSelPort : Fld := ⟨.rimPortSel, 0, 3⟩
def rimPortSelNet : Fld := ⟨.rimPortSel, 3, 2⟩
def rimPortFlitsFlits : Fld := ⟨.rimPortFlits, 0, 64⟩
def rimPortStallStall : Fld := ⟨.rimPortStall, 0, 64⟩
def rimPortErrCe : Fld := ⟨.rimPortErr, 0, 32⟩
def rimPortErrRetry : Fld := ⟨.rimPortErr, 32, 32⟩
def rimCtlCntClear : Fld := ⟨.rimCtl, 0, 1⟩
def ctxFuncFunc : Fld := ⟨.ctxFunc, 0, 6⟩
def ctxFuncAssigned : Fld := ⟨.ctxFunc, 6, 1⟩
def ctxPasidPasid : Fld := ⟨.ctxPasid, 0, 20⟩
def ctxCfgVector : Fld := ⟨.ctxCfg, 0, 11⟩
def ctxCfgIntEn : Fld := ⟨.ctxCfg, 11, 1⟩
def ctxCtlCreate : Fld := ⟨.ctxCtl, 0, 1⟩
def ctxCtlSuspend : Fld := ⟨.ctxCtl, 1, 1⟩
def ctxCtlResume : Fld := ⟨.ctxCtl, 2, 1⟩
def ctxCtlKill : Fld := ⟨.ctxCtl, 3, 1⟩
def ctxCtlTeardown : Fld := ⟨.ctxCtl, 4, 1⟩
def ctxCtlResult : Fld := ⟨.ctxCtl, 8, 8⟩
def ctxStatusState : Fld := ⟨.ctxStatus, 0, 3⟩
def ctxStatusKillCause : Fld := ⟨.ctxStatus, 8, 8⟩
def ctxStatusAtcEntries : Fld := ⟨.ctxStatus, 32, 17⟩
def ctxEvtKilled : Fld := ⟨.ctxEvt, 0, 1⟩
def ctxEvtTornDown : Fld := ⟨.ctxEvt, 1, 1⟩
def ctxEvtAtsInval : Fld := ⟨.ctxEvt, 2, 1⟩
def ctxEvtCfgRefused : Fld := ⟨.ctxEvt, 3, 1⟩
def ctxEvtCntKilledCnt : Fld := ⟨.ctxEvtCnt, 0, 16⟩
def ctxEvtCntTornDownCnt : Fld := ⟨.ctxEvtCnt, 16, 16⟩
def ctxEvtCntAtsInvalCnt : Fld := ⟨.ctxEvtCnt, 32, 16⟩
def ctxEvtCntCfgRefusedCnt : Fld := ⟨.ctxEvtCnt, 48, 16⟩
def ctxFaultVaVa : Fld := ⟨.ctxFaultVa, 0, 64⟩
def ctxFaultInfoKind : Fld := ⟨.ctxFaultInfo, 0, 8⟩
def ctxFaultInfoWrite : Fld := ⟨.ctxFaultInfo, 8, 1⟩
def ctxFaultInfoRequester : Fld := ⟨.ctxFaultInfo, 16, 16⟩
def ctxAtcHitHit : Fld := ⟨.ctxAtcHit, 0, 64⟩
def ctxAtcMissMiss : Fld := ⟨.ctxAtcMiss, 0, 64⟩
def faultTailTail : Fld := ⟨.faultTail, 0, 32⟩
def faultHeadHead : Fld := ⟨.faultHead, 0, 32⟩
def faultCfgVector : Fld := ⟨.faultCfg, 0, 11⟩
def faultCfgIntEn : Fld := ⟨.faultCfg, 11, 1⟩
def regCfgMode : Fld := ⟨.regCfg, 0, 2⟩
def regCfgBudget : Fld := ⟨.regCfg, 4, 12⟩
def regCfgLowPct : Fld := ⟨.regCfg, 16, 8⟩
def regCfgHighPct : Fld := ⟨.regCfg, 24, 8⟩
def regLimitRdMax : Fld := ⟨.regLimit, 0, 16⟩
def regLimitWrMax : Fld := ⟨.regLimit, 16, 16⟩
def regStatusUrgent : Fld := ⟨.regStatus, 0, 1⟩
def regStatusRdOut : Fld := ⟨.regStatus, 16, 16⟩
def regStatusWrOut : Fld := ⟨.regStatus, 32, 16⟩
def regEvtCfgRefused : Fld := ⟨.regEvt, 0, 1⟩
def regEvtCntCfgRefusedCnt : Fld := ⟨.regEvtCnt, 0, 16⟩
def regUrgCycUrg : Fld := ⟨.regUrgCyc, 0, 64⟩
def whlStatusPhase : Fld := ⟨.whlStatus, 0, 2⟩
def whlStatusMode : Fld := ⟨.whlStatus, 2, 2⟩
def whlStatusServed : Fld := ⟨.whlStatus, 4, 7⟩
def whlStatusPos : Fld := ⟨.whlStatus, 11, 6⟩
def whlMap0Map : Fld := ⟨.whlMap0, 0, 64⟩
def whlCtlApply : Fld := ⟨.whlCtl, 0, 1⟩
def whlCtlResult : Fld := ⟨.whlCtl, 8, 8⟩
def whlGapGap : Fld := ⟨.whlGap, 0, 35⟩
def whlEvtDeadlineMiss : Fld := ⟨.whlEvt, 0, 1⟩
def whlEvtUrgCap : Fld := ⟨.whlEvt, 1, 1⟩
def whlEvtCntDeadlineMissCnt : Fld := ⟨.whlEvtCnt, 0, 16⟩
def whlEvtCntUrgCapCnt : Fld := ⟨.whlEvtCnt, 16, 16⟩
def whlSlots0Slots : Fld := ⟨.whlSlots0, 0, 64⟩
def whlLentLent : Fld := ⟨.whlLent, 0, 64⟩
def podStatusPortUp : Fld := ⟨.podStatus, 0, 2⟩
def podStatusRole : Fld := ⟨.podStatus, 2, 2⟩
def podStatusHub : Fld := ⟨.podStatus, 4, 12⟩
def podStatusMgr : Fld := ⟨.podStatus, 16, 2⟩
def podEvtPortDown : Fld := ⟨.podEvt, 0, 1⟩
def podEvtStranger : Fld := ⟨.podEvt, 1, 1⟩
def podEvtRetx : Fld := ⟨.podEvt, 2, 1⟩
def podEvtUnreach : Fld := ⟨.podEvt, 3, 1⟩
def podEvtNotice : Fld := ⟨.podEvt, 4, 1⟩
def podEvtMgrLost : Fld := ⟨.podEvt, 5, 1⟩
def podEvtHalt : Fld := ⟨.podEvt, 6, 1⟩
def podEvtCntPortDownCnt : Fld := ⟨.podEvtCnt, 0, 16⟩
def podEvtCntStrangerCnt : Fld := ⟨.podEvtCnt, 16, 16⟩
def podEvtCntRetxCnt : Fld := ⟨.podEvtCnt, 32, 16⟩
def podEvtCntUnreachCnt : Fld := ⟨.podEvtCnt, 48, 16⟩
def podEvtCnt2NoticeCnt : Fld := ⟨.podEvtCnt2, 0, 16⟩
def podEvtCnt2MgrLostCnt : Fld := ⟨.podEvtCnt2, 16, 16⟩
def podEvtCnt2HaltCnt : Fld := ⟨.podEvtCnt2, 32, 16⟩
def podChSelCh : Fld := ⟨.podChSel, 0, 8⟩
def podChCfgCtx : Fld := ⟨.podChCfg, 0, 13⟩
def podChCfgJob : Fld := ⟨.podChCfg, 16, 16⟩
def podChCfgRingLog2 : Fld := ⟨.podChCfg, 32, 5⟩
def podChCfgFeedSem : Fld := ⟨.podChCfg, 37, 17⟩
def podChRingRing : Fld := ⟨.podChRing, 0, 64⟩
def podChWinBase : Fld := ⟨.podChWin, 12, 45⟩
def podChWinszPages : Fld := ⟨.podChWinsz, 0, 45⟩
def podChVecVector : Fld := ⟨.podChVec, 0, 11⟩
def podChCtlOpen : Fld := ⟨.podChCtl, 0, 1⟩
def podChCtlClose : Fld := ⟨.podChCtl, 1, 1⟩
def podChCtlResume : Fld := ⟨.podChCtl, 2, 1⟩
def podChCtlResult : Fld := ⟨.podChCtl, 8, 8⟩
def podChStatState : Fld := ⟨.podChStat, 0, 2⟩
def podChStatHaltStatus : Fld := ⟨.podChStat, 2, 4⟩
def podChStatDoneAt : Fld := ⟨.podChStat, 32, 32⟩
def podTxBytesTx : Fld := ⟨.podTxBytes, 0, 64⟩
def podRxBytesRx : Fld := ⟨.podRxBytes, 0, 64⟩
def vfIdPart : Fld := ⟨.vfId, 0, 16⟩
def vfIdVf : Fld := ⟨.vfId, 16, 6⟩
def vfAliveSentinel : Fld := ⟨.vfAlive, 0, 32⟩
def vfStatusHub : Fld := ⟨.vfStatus, 0, 6⟩
def vfStatusContexts : Fld := ⟨.vfStatus, 16, 7⟩
def vfSlotSelSlot : Fld := ⟨.vfSlotSel, 0, 6⟩
def vfSlotCtx : Fld := ⟨.vfSlot, 0, 13⟩
def vfSlotValid : Fld := ⟨.vfSlot, 13, 1⟩
def vfEvtAssigned : Fld := ⟨.vfEvt, 0, 1⟩
def vfEvtUnassigned : Fld := ⟨.vfEvt, 1, 1⟩
def vfEvtCntAssignedCnt : Fld := ⟨.vfEvtCnt, 0, 16⟩
def vfEvtCntUnassignedCnt : Fld := ⟨.vfEvtCnt, 16, 16⟩
def mbxStatusReady : Fld := ⟨.mbxStatus, 0, 1⟩
def mbxStatusBusy : Fld := ⟨.mbxStatus, 1, 1⟩
def mbxStatusExpert : Fld := ⟨.mbxStatus, 2, 1⟩
def mbxStatusResult : Fld := ⟨.mbxStatus, 8, 8⟩
def mbxStatusRetLen : Fld := ⟨.mbxStatus, 16, 13⟩
def mbxStatusNotes : Fld := ⟨.mbxStatus, 32, 7⟩
def mbxCmdOp : Fld := ⟨.mbxCmd, 0, 3⟩
def mbxCmdIndex : Fld := ⟨.mbxCmd, 8, 16⟩
def mbxCmdSub : Fld := ⟨.mbxCmd, 24, 8⟩
def mbxCmdLength : Fld := ⟨.mbxCmd, 32, 13⟩
def mbxOffsetOffset : Fld := ⟨.mbxOffset, 0, 20⟩
def mbxCtlGo : Fld := ⟨.mbxCtl, 0, 1⟩
def mbxCtlNotePop : Fld := ⟨.mbxCtl, 1, 1⟩
def mbxEvtDone : Fld := ⟨.mbxEvt, 0, 1⟩
def mbxEvtNotice : Fld := ⟨.mbxEvt, 1, 1⟩
def mbxEvtNoteLost : Fld := ⟨.mbxEvt, 2, 1⟩
def mbxEvtCntDoneCnt : Fld := ⟨.mbxEvtCnt, 0, 16⟩
def mbxEvtCntNoticeCnt : Fld := ⟨.mbxEvtCnt, 16, 16⟩
def mbxEvtCntNoteLostCnt : Fld := ⟨.mbxEvtCnt, 32, 16⟩
def mbxCfgVector : Fld := ⟨.mbxCfg, 0, 11⟩
def mbxCfgIntEn : Fld := ⟨.mbxCfg, 11, 1⟩
def mbxNote0Note0 : Fld := ⟨.mbxNote0, 0, 64⟩
def mbxNote1Note1 : Fld := ⟨.mbxNote1, 0, 64⟩
def pwrStatusState : Fld := ⟨.pwrStatus, 0, 2⟩
def pwrStatusLevel : Fld := ⟨.pwrStatus, 2, 3⟩
def pwrStatusLimiting : Fld := ⟨.pwrStatus, 5, 1⟩
def pwrStatusClkMhz : Fld := ⟨.pwrStatus, 16, 16⟩
def pwrStatusPowerW : Fld := ⟨.pwrStatus, 32, 16⟩
def pwrEvtWake : Fld := ⟨.pwrEvt, 0, 1⟩
def pwrEvtRefused : Fld := ⟨.pwrEvt, 1, 1⟩
def pwrEvtVfRefused : Fld := ⟨.pwrEvt, 2, 1⟩
def pwrEvtAvsFail : Fld := ⟨.pwrEvt, 3, 1⟩
def pwrEvtCntWakeCnt : Fld := ⟨.pwrEvtCnt, 0, 16⟩
def pwrEvtCntRefusedCnt : Fld := ⟨.pwrEvtCnt, 16, 16⟩
def pwrEvtCntVfRefusedCnt : Fld := ⟨.pwrEvtCnt, 32, 16⟩
def pwrEvtCntAvsFailCnt : Fld := ⟨.pwrEvtCnt, 48, 16⟩
def pwrCoastExitsExits : Fld := ⟨.pwrCoastExits, 0, 64⟩
def pwrParkMsPark : Fld := ⟨.pwrParkMs, 0, 64⟩
def bootFuseSites : Fld := ⟨.bootFuse, 0, 32⟩
def bootFuseStacks : Fld := ⟨.bootFuse, 32, 8⟩
def bootFuseCranks : Fld := ⟨.bootFuse, 40, 8⟩
def bootStatusPhase : Fld := ⟨.bootStatus, 0, 4⟩
def bootStatusFailPhase : Fld := ⟨.bootStatus, 4, 4⟩
def bootStatusFailCode : Fld := ⟨.bootStatus, 8, 8⟩
def bootStatusWarm : Fld := ⟨.bootStatus, 16, 1⟩
def bootStatusFuseOdd : Fld := ⟨.bootStatus, 17, 1⟩
def bootStatusAttempts : Fld := ⟨.bootStatus, 24, 8⟩
def bootStatusTotalMs : Fld := ⟨.bootStatus, 32, 32⟩
def bootTime0T0 : Fld := ⟨.bootTime0, 0, 64⟩
def bootTime1T1 : Fld := ⟨.bootTime1, 0, 64⟩
def bootEvtReady : Fld := ⟨.bootEvt, 0, 1⟩
def bootEvtFailed : Fld := ⟨.bootEvt, 1, 1⟩
def bootEvtPhaseOver : Fld := ⟨.bootEvt, 2, 1⟩
def bootEvtFwRefused : Fld := ⟨.bootEvt, 3, 1⟩
def bootEvtDegraded : Fld := ⟨.bootEvt, 4, 1⟩
def bootEvtCntReadyCnt : Fld := ⟨.bootEvtCnt, 0, 16⟩
def bootEvtCntFailedCnt : Fld := ⟨.bootEvtCnt, 16, 16⟩
def bootEvtCntPhaseOverCnt : Fld := ⟨.bootEvtCnt, 32, 16⟩
def bootEvtCntFwRefusedCnt : Fld := ⟨.bootEvtCnt, 48, 16⟩
def bootEvtCnt2DegradedCnt : Fld := ⟨.bootEvtCnt2, 0, 16⟩
def bootResultSitesUp : Fld := ⟨.bootResult, 0, 32⟩
def bootResultSitesNarrow : Fld := ⟨.bootResult, 32, 32⟩
def bootResult2UciUp : Fld := ⟨.bootResult2, 0, 2⟩
def bootResult2UciX32 : Fld := ⟨.bootResult2, 2, 2⟩
def bootResult2CrankFail : Fld := ⟨.bootResult2, 8, 8⟩
def bootResult2VecFail : Fld := ⟨.bootResult2, 16, 8⟩
def bootResult2DrlFail : Fld := ⟨.bootResult2, 24, 4⟩
def bootResult2CasFail : Fld := ⟨.bootResult2, 28, 2⟩
def bootResult2PortsRemoved : Fld := ⟨.bootResult2, 32, 7⟩
def faultEvtLost : Fld := ⟨.faultEvt, 0, 1⟩
def faultLostCountLostCnt : Fld := ⟨.faultLostCount, 0, 32⟩
def trcCtlEn : Fld := ⟨.trcCtl, 0, 1⟩
def trcCtlStopFull : Fld := ⟨.trcCtl, 1, 1⟩
def trcCtlClear : Fld := ⟨.trcCtl, 2, 1⟩
def trcMaskClass : Fld := ⟨.trcMask, 1, 8⟩
def trcMaskCtx : Fld := ⟨.trcMask, 16, 13⟩
def trcMaskCtxEn : Fld := ⟨.trcMask, 29, 1⟩
def trcTrigEvent : Fld := ⟨.trcTrig, 0, 8⟩
def trcTrigAfter : Fld := ⟨.trcTrig, 16, 13⟩
def trcStatusRunning : Fld := ⟨.trcStatus, 0, 1⟩
def trcStatusTriggered : Fld := ⟨.trcStatus, 1, 1⟩
def trcWrittenWritten : Fld := ⟨.trcWritten, 0, 32⟩
def trcEvtLost : Fld := ⟨.trcEvt, 0, 1⟩
def trcEvtTrigger : Fld := ⟨.trcEvt, 1, 1⟩
def trcEvtCntLostCnt : Fld := ⟨.trcEvtCnt, 0, 32⟩
def trcEvtCntTriggerCnt : Fld := ⟨.trcEvtCnt, 32, 16⟩
def trcDcountDcount : Fld := ⟨.trcDcount, 0, 64⟩
def trcCcountCcount : Fld := ⟨.trcCcount, 0, 64⟩

end F

namespace E

def hubCtlRestarted : Evt := ⟨F.hubEvtCtlRestarted, F.hubEvtCntCtlRestartedCnt⟩
def hubFroze : Evt := ⟨F.hubEvtFroze, F.hubEvtCntFrozeCnt⟩
def hubDataResetDone : Evt := ⟨F.hubEvtDataResetDone, F.hubEvtCntDataResetDoneCnt⟩
def hubStemResync : Evt := ⟨F.hubEvtStemResync, F.hubEvtCntStemResyncCnt⟩
def hubRegDropped : Evt := ⟨F.hubEvtRegDropped, F.hubEvtCnt2RegDroppedCnt⟩
def ctxSevtHalted : Evt := ⟨F.ctxSevtHalted, F.ctxSevtCntHaltedCnt⟩
def ctxSevtDbStale : Evt := ⟨F.ctxSevtDbStale, F.ctxSevtCntDbStaleCnt⟩
def ctxSevtDbDropped : Evt := ⟨F.ctxSevtDbDropped, F.ctxSevtCntDbDroppedCnt⟩
def ctxSevtCfgRefused : Evt := ⟨F.ctxSevtCfgRefused, F.ctxSevtCntCfgRefusedCnt⟩
def ctxSevtRouteRefused : Evt := ⟨F.ctxSevtRouteRefused, F.ctxSevtCnt2RouteRefusedCnt⟩
def crankPoisonOut : Evt := ⟨F.crankEvtPoisonOut, F.crankEvtCntPoisonOutCnt⟩
def crankWregParity : Evt := ⟨F.crankEvtWregParity, F.crankEvtCntWregParityCnt⟩
def crankEccCorr : Evt := ⟨F.crankEvtEccCorr, F.crankEvtCntEccCorrCnt⟩
def crankEccUncorr : Evt := ⟨F.crankEvtEccUncorr, F.crankEvtCntEccUncorrCnt⟩
def crankShapeDemoted : Evt := ⟨F.crankEvtShapeDemoted, F.crankEvtCnt2ShapeDemotedCnt⟩
def crankLost : Evt := ⟨F.crankEvtLost, F.crankEvtCnt2LostCnt⟩
def crankIntSat : Evt := ⟨F.crankEvtIntSat, F.crankEvtCnt2IntSatCnt⟩
def crankFpOvf : Evt := ⟨F.crankEvtFpOvf, F.crankEvtCnt2FpOvfCnt⟩
def vecPoisonOut : Evt := ⟨F.vecEvtPoisonOut, F.vecEvtCntPoisonOutCnt⟩
def vecEccCorr : Evt := ⟨F.vecEvtEccCorr, F.vecEvtCntEccCorrCnt⟩
def vecEccUncorr : Evt := ⟨F.vecEvtEccUncorr, F.vecEvtCntEccUncorrCnt⟩
def vecLost : Evt := ⟨F.vecEvtLost, F.vecEvtCntLostCnt⟩
def vecFpOvf : Evt := ⟨F.vecEvtFpOvf, F.vecEvtCnt2FpOvfCnt⟩
def drlPoisonOut : Evt := ⟨F.drlEvtPoisonOut, F.drlEvtCntPoisonOutCnt⟩
def drlEccCorr : Evt := ⟨F.drlEvtEccCorr, F.drlEvtCntEccCorrCnt⟩
def drlEccUncorr : Evt := ⟨F.drlEvtEccUncorr, F.drlEvtCntEccUncorrCnt⟩
def drlLost : Evt := ⟨F.drlEvtLost, F.drlEvtCntLostCnt⟩
def drlSatClip : Evt := ⟨F.drlEvtSatClip, F.drlEvtCnt2SatClipCnt⟩
def drlNonfinite : Evt := ⟨F.drlEvtNonfinite, F.drlEvtCnt2NonfiniteCnt⟩
def drlIdxRange : Evt := ⟨F.drlEvtIdxRange, F.drlEvtCnt2IdxRangeCnt⟩
def redPoisonHit : Evt := ⟨F.redEvtPoisonHit, F.redEvtCntPoisonHitCnt⟩
def redCodeErr : Evt := ⟨F.redEvtCodeErr, F.redEvtCntCodeErrCnt⟩
def redFpOvf : Evt := ⟨F.redEvtFpOvf, F.redEvtCntFpOvfCnt⟩
def redIntWrap : Evt := ⟨F.redEvtIntWrap, F.redEvtCntIntWrapCnt⟩
def casPoisonOut : Evt := ⟨F.casEvtPoisonOut, F.casEvtCntPoisonOutCnt⟩
def casEccCorr : Evt := ⟨F.casEvtEccCorr, F.casEvtCntEccCorrCnt⟩
def casEccUncorr : Evt := ⟨F.casEvtEccUncorr, F.casEvtCntEccUncorrCnt⟩
def casLost : Evt := ⟨F.casEvtLost, F.casEvtCntLostCnt⟩
def casListBad : Evt := ⟨F.casEvtListBad, F.casEvtCnt2ListBadCnt⟩
def casPoolBroken : Evt := ⟨F.casEvtPoolBroken, F.casEvtCnt2PoolBrokenCnt⟩
def casCow : Evt := ⟨F.casEvtCow, F.casEvtCnt2CowCnt⟩
def decHdrBad : Evt := ⟨F.decEvtHdrBad, F.decEvtCntHdrBadCnt⟩
def decStreamBad : Evt := ⟨F.decEvtStreamBad, F.decEvtCntStreamBadCnt⟩
def decPoisonIn : Evt := ⟨F.decEvtPoisonIn, F.decEvtCntPoisonInCnt⟩
def memCe : Evt := ⟨F.memEvtCe, F.memEvtCntCeCnt⟩
def memUe : Evt := ⟨F.memEvtUe, F.memEvtCntUeCnt⟩
def memPoisonRd : Evt := ⟨F.memEvtPoisonRd, F.memEvtCntPoisonRdCnt⟩
def memRetrain : Evt := ⟨F.memEvtRetrain, F.memEvtCntRetrainCnt⟩
def memStepDown : Evt := ⟨F.memEvtStepDown, F.memEvtCnt2StepDownCnt⟩
def memHold : Evt := ⟨F.memEvtHold, F.memEvtCnt2HoldCnt⟩
def memMirrorFix : Evt := ⟨F.memEvtMirrorFix, F.memEvtCnt2MirrorFixCnt⟩
def memFenceHit : Evt := ⟨F.memEvtFenceHit, F.memEvtCnt2FenceHitCnt⟩
def memRoWrite : Evt := ⟨F.memEvtRoWrite, F.memEvtCnt3RoWriteCnt⟩
def memCacheCe : Evt := ⟨F.memEvtCacheCe, F.memEvtCnt3CacheCeCnt⟩
def memCacheUe : Evt := ⟨F.memEvtCacheUe, F.memEvtCnt3CacheUeCnt⟩
def memFailed : Evt := ⟨F.memEvtFailed, F.memEvtCnt3FailedCnt⟩
def cohTimeout : Evt := ⟨F.cohEvtTimeout, F.cohEvtCntTimeoutCnt⟩
def cohPoisonWr : Evt := ⟨F.cohEvtPoisonWr, F.cohEvtCntPoisonWrCnt⟩
def cohBackInval : Evt := ⟨F.cohEvtBackInval, F.cohEvtCntBackInvalCnt⟩
def cohDirCe : Evt := ⟨F.cohEvtDirCe, F.cohEvtCntDirCeCnt⟩
def cohProto : Evt := ⟨F.cohEvtProto, F.cohEvtCnt2ProtoCnt⟩
def cohNack : Evt := ⟨F.cohEvtNack, F.cohEvtCnt2NackCnt⟩
def cohDirUe : Evt := ⟨F.cohEvtDirUe, F.cohEvtCnt2DirUeCnt⟩
def tcEccCorr : Evt := ⟨F.tcEvtEccCorr, F.tcEvtCntEccCorrCnt⟩
def tcEccUncorr : Evt := ⟨F.tcEvtEccUncorr, F.tcEvtCntEccUncorrCnt⟩
def syncWdog : Evt := ⟨F.syncEvtWdog, F.syncEvtCntWdogCnt⟩
def syncAbandon : Evt := ⟨F.syncEvtAbandon, F.syncEvtCntAbandonCnt⟩
def syncAuditDiff : Evt := ⟨F.syncEvtAuditDiff, F.syncEvtCntAuditDiffCnt⟩
def syncBarStray : Evt := ⟨F.syncEvtBarStray, F.syncEvtCntBarStrayCnt⟩
def syncSat : Evt := ⟨F.syncEvtSat, F.syncEvtCnt2SatCnt⟩
def syncRights : Evt := ⟨F.syncEvtRights, F.syncEvtCnt2RightsCnt⟩
def syncHandSet : Evt := ⟨F.syncEvtHandSet, F.syncEvtCnt2HandSetCnt⟩
def syncCfgRefused : Evt := ⟨F.syncEvtCfgRefused, F.syncEvtCnt2CfgRefusedCnt⟩
def spkLaneRepair : Evt := ⟨F.spkEvtLaneRepair, F.spkEvtCntLaneRepairCnt⟩
def spkWidthDown : Evt := ⟨F.spkEvtWidthDown, F.spkEvtCntWidthDownCnt⟩
def spkHbLost : Evt := ⟨F.spkEvtHbLost, F.spkEvtCntHbLostCnt⟩
def spkRstReq : Evt := ⟨F.spkEvtRstReq, F.spkEvtCntRstReqCnt⟩
def spkGuestErr : Evt := ⟨F.spkEvtGuestErr, F.spkEvtCnt2GuestErrCnt⟩
def spkCellCe : Evt := ⟨F.spkEvtCellCe, F.spkEvtCnt2CellCeCnt⟩
def spkCellUe : Evt := ⟨F.spkEvtCellUe, F.spkEvtCnt2CellUeCnt⟩
def spkCreditViol : Evt := ⟨F.spkEvtCreditViol, F.spkEvtCnt2CreditViolCnt⟩
def siteAdmitted : Evt := ⟨F.siteEvtAdmitted, F.siteEvtCntAdmittedCnt⟩
def siteIsolated : Evt := ⟨F.siteEvtIsolated, F.siteEvtCntIsolatedCnt⟩
def siteRefused : Evt := ⟨F.siteEvtRefused, F.siteEvtCntRefusedCnt⟩
def siteViolation : Evt := ⟨F.siteEvtViolation, F.siteEvtCntViolationCnt⟩
def siteLeaseEnded : Evt := ⟨F.siteEvtLeaseEnded, F.siteEvtCnt2LeaseEndedCnt⟩
def siteStnErr : Evt := ⟨F.siteEvtStnErr, F.siteEvtCnt2StnErrCnt⟩
def siteSigFail : Evt := ⟨F.siteEvtSigFail, F.siteEvtCnt2SigFailCnt⟩
def uciLaneRepair : Evt := ⟨F.uciEvtLaneRepair, F.uciEvtCntLaneRepairCnt⟩
def uciWidthDown : Evt := ⟨F.uciEvtWidthDown, F.uciEvtCntWidthDownCnt⟩
def uciHbLost : Evt := ⟨F.uciEvtHbLost, F.uciEvtCntHbLostCnt⟩
def uciRstReq : Evt := ⟨F.uciEvtRstReq, F.uciEvtCntRstReqCnt⟩
def uciGuestErr : Evt := ⟨F.uciEvtGuestErr, F.uciEvtCnt2GuestErrCnt⟩
def uciCellCe : Evt := ⟨F.uciEvtCellCe, F.uciEvtCnt2CellCeCnt⟩
def uciCellUe : Evt := ⟨F.uciEvtCellUe, F.uciEvtCnt2CellUeCnt⟩
def uciCreditViol : Evt := ⟨F.uciEvtCreditViol, F.uciEvtCnt2CreditViolCnt⟩
def uciLinkDown : Evt := ⟨F.uciEvtLinkDown, F.uciEvtCnt3LinkDownCnt⟩
def uciSbErr : Evt := ⟨F.uciEvtSbErr, F.uciEvtCnt3SbErrCnt⟩
def rimFlitCe : Evt := ⟨F.rimEvtFlitCe, F.rimEvtCntFlitCeCnt⟩
def rimRetry : Evt := ⟨F.rimEvtRetry, F.rimEvtCntRetryCnt⟩
def rimLinkFail : Evt := ⟨F.rimEvtLinkFail, F.rimEvtCntLinkFailCnt⟩
def rimFlitUe : Evt := ⟨F.rimEvtFlitUe, F.rimEvtCntFlitUeCnt⟩
def rimRouteErr : Evt := ⟨F.rimEvtRouteErr, F.rimEvtCnt2RouteErrCnt⟩
def ctxKilled : Evt := ⟨F.ctxEvtKilled, F.ctxEvtCntKilledCnt⟩
def ctxTornDown : Evt := ⟨F.ctxEvtTornDown, F.ctxEvtCntTornDownCnt⟩
def ctxAtsInval : Evt := ⟨F.ctxEvtAtsInval, F.ctxEvtCntAtsInvalCnt⟩
def ctxCfgRefused : Evt := ⟨F.ctxEvtCfgRefused, F.ctxEvtCntCfgRefusedCnt⟩
def regCfgRefused : Evt := ⟨F.regEvtCfgRefused, F.regEvtCntCfgRefusedCnt⟩
def whlDeadlineMiss : Evt := ⟨F.whlEvtDeadlineMiss, F.whlEvtCntDeadlineMissCnt⟩
def whlUrgCap : Evt := ⟨F.whlEvtUrgCap, F.whlEvtCntUrgCapCnt⟩
def podPortDown : Evt := ⟨F.podEvtPortDown, F.podEvtCntPortDownCnt⟩
def podStranger : Evt := ⟨F.podEvtStranger, F.podEvtCntStrangerCnt⟩
def podRetx : Evt := ⟨F.podEvtRetx, F.podEvtCntRetxCnt⟩
def podUnreach : Evt := ⟨F.podEvtUnreach, F.podEvtCntUnreachCnt⟩
def podNotice : Evt := ⟨F.podEvtNotice, F.podEvtCnt2NoticeCnt⟩
def podMgrLost : Evt := ⟨F.podEvtMgrLost, F.podEvtCnt2MgrLostCnt⟩
def podHalt : Evt := ⟨F.podEvtHalt, F.podEvtCnt2HaltCnt⟩
def vfAssigned : Evt := ⟨F.vfEvtAssigned, F.vfEvtCntAssignedCnt⟩
def vfUnassigned : Evt := ⟨F.vfEvtUnassigned, F.vfEvtCntUnassignedCnt⟩
def mbxDone : Evt := ⟨F.mbxEvtDone, F.mbxEvtCntDoneCnt⟩
def mbxNotice : Evt := ⟨F.mbxEvtNotice, F.mbxEvtCntNoticeCnt⟩
def mbxNoteLost : Evt := ⟨F.mbxEvtNoteLost, F.mbxEvtCntNoteLostCnt⟩
def pwrWake : Evt := ⟨F.pwrEvtWake, F.pwrEvtCntWakeCnt⟩
def pwrRefused : Evt := ⟨F.pwrEvtRefused, F.pwrEvtCntRefusedCnt⟩
def pwrVfRefused : Evt := ⟨F.pwrEvtVfRefused, F.pwrEvtCntVfRefusedCnt⟩
def pwrAvsFail : Evt := ⟨F.pwrEvtAvsFail, F.pwrEvtCntAvsFailCnt⟩
def bootReady : Evt := ⟨F.bootEvtReady, F.bootEvtCntReadyCnt⟩
def bootFailed : Evt := ⟨F.bootEvtFailed, F.bootEvtCntFailedCnt⟩
def bootPhaseOver : Evt := ⟨F.bootEvtPhaseOver, F.bootEvtCntPhaseOverCnt⟩
def bootFwRefused : Evt := ⟨F.bootEvtFwRefused, F.bootEvtCntFwRefusedCnt⟩
def bootDegraded : Evt := ⟨F.bootEvtDegraded, F.bootEvtCnt2DegradedCnt⟩
def faultLost : Evt := ⟨F.faultEvtLost, F.faultLostCountLostCnt⟩
def trcLost : Evt := ⟨F.trcEvtLost, F.trcEvtCntLostCnt⟩
def trcTrigger : Evt := ⟨F.trcEvtTrigger, F.trcEvtCntTriggerCnt⟩

end E

end Sys2Proof.Machine
end

