-- ==== Sys2Proof/Machine/Types.lean ====
section
/-!
DEFINITION. Machine/Types.lean: the records of the hub's state that are no registers: what the queues, stations,
homes, agents, guests, links, sessions and engines hold between commands. Each docstring cites the rule of spec/.
-/
namespace Sys2Proof.Machine

/-- A message, pin change or record the hub sends to the world outside its own state. The name is the spec's. -/
inductive OutKind where
  | msix | msixPending | transReq | invalComplete | memRead | memWrite | cplD | cplUr | cplEp | cplRrs | cfgCpl | pme | pmeToAck | wakeN
  | topStart | topRow | topRange | topKilled | semResult | strRdata | strCmp | snpInv | snpShare | snpAll | cmp | nackPoison
  | snpAck | snpAckData | linkTrue | linkMap | linkCredit | linkReset | grstN | fclk | sbHeader | sbCmd | sbRead | gpower
  | stemBeat | stemFreeze | stemResume | stemReg | stemDict | stemNotice
  | podFrame | kmpResponse | kmpNotify | fieldFrame | sbAnswer | mbxAnswer | regRead
  | thermtripN | dataEn | pwrOn | fatalPin | jtagAnswer | avsRequest | contribution | linkRetry
deriving DecidableEq, Repr

/-- One thing sent: its kind, its addressee, its numbers, its bytes. -/
structure Output where
  kind : OutKind
  dst  : Nat
  args : List Nat
  data : List Byte
deriving DecidableEq, Repr

/-- The fuse variants of R4. -/
inductive Variant where
  | kh7364 | kh7348 | kh7332
deriving DecidableEq, Repr

/-- A tile descriptor (R40). -/
structure Tile where
  base : Nat
  rowLen : Nat
  rowCount : Nat
  planeCount : Nat
  format : Nat
  rowPitch : Nat
  planePitch : Nat
  scaleBase : Nat
  scalePitch : Nat
  scalePlanePitch : Nat
deriving DecidableEq, Repr

/-- A completion record still to be written (R59, R60): its fields, and the command it completes (none: a halt
record of R57 or R252, or a KILLED record of R71). -/
structure CplRec where
  tag    : Nat
  status : Nat
  detail : Nat
  cmd    : Option Nat
deriving DecidableEq, Repr

/-- What the dispatcher keeps of one queue slot beside its registers (R56, R57, R59, R61): the counts of the doorbell,
the next count to read, the records written, the commands completed above HEAD, the command that ended before any operation
of it was issued and so halted the queue, the records not yet written, and where the completion ring was found (1 HBM, 2 host
memory, R364). -/
structure QRec where
  sqTail  : Nat := 0
  cqHead  : Nat := 0
  nextRd  : Nat := 0
  written : Nat := 0
  doneSet : List Nat := []
  ended   : Option Nat := none
  recs    : List CplRec := []
  cqKind  : Nat := 0
deriving DecidableEq, Repr

/-- A stream command the dispatcher has read (R50, R53): the copy it read, the step it stands at, its route copy
(R49), its tiles, whether it is empty (R46), how many operations it has in all, has issued and has retired, the status
gathered so far, whether its wait is listed and was sent, the pages translated and the pages that faulted (page, kind, host, and where only
its reads or only its writes do, whether writes) (R363, R366),
its range operation under way (R222), whether its post went out fast (R241), what its record met (1 performed,
2 not, R53), its parameter block, and of a KPW input the decoded format, E, the rows of its first and of its last page. -/
structure Cmd where
  ctx    : Nat
  slot   : Nat
  count  : Nat
  raw    : List Byte
  step   : Nat
  route  : List Nat := []
  in0    : Option Tile := none
  in1    : Option Tile := none
  out    : Option Tile := none
  empty  : Bool := false
  total  : Nat := 0
  issued : Nat := 0
  retired : Nat := 0
  status : Nat := 0
  detail : Nat := 0
  waiting : Bool := false
  tried : Bool := false
  pages : List Nat := []
  faults : List (Nat × Nat × Bool × Option Bool) := []
  rangeOp : Option Nat := none
  fastPosted : Bool := false
  recAck : Nat := 0
  params : List Byte := []
  kpw0 : Option (Nat × Nat × Nat × Nat) := none
  kpw1 : Option (Nat × Nat × Nat × Nat) := none
deriving DecidableEq, Repr

/-- One row of an operation: input (0 A, 1 B, 2 output, each at the station; 4 A, 5 B, decoded or handed on and not yet
delivered), row, whether scale bytes, the bytes from the row's start, and the poisoned sector numbers. -/
structure RowBuf where
  input : Nat
  row   : Nat
  scale : Bool
  bytes : List Byte
  bad   : List Nat
deriving DecidableEq, Repr

/-- A scoreboard entry: a tile operation at one station of its route, or a range operation (R65, R68, R222). -/
structure TileOp where
  opid    : Nat
  ctx     : Nat
  slot    : Nat
  count   : Nat
  range   : Nat := 0
  stage   : Nat := 0
  k       : Nat := 0
  station : Nat
  func    : Nat := 0
  pull    : Bool := false
  plane   : Nat := 0
  row0    : Nat := 0
  rows    : Nat := 0
  rds     : List (Nat × Nat) := []
  wrs     : List (Nat × Nat) := []
  bufs    : List RowBuf := []
  posA    : Nat := 0
  computed : Bool := false
  dead     : Bool := false
  outPos  : Nat := 0
  acks    : Nat := 0
  bad     : Nat := 0
  badDetail : Nat := 0
  waitFor : List Nat := []
  doneSt  : Option Nat := none
  autoMax : Nat := 4
deriving DecidableEq, Repr

/-- A cached translation (R368). `size` is log2 of the page; the target is a DPA, or a host address. -/
structure AtcEntry where
  ctx  : Nat
  va   : Nat
  size : Nat
  r    : Bool
  w    : Bool
  u    : Bool
  host : Bool
  addr : Nat
deriving DecidableEq, Repr

/-- An outstanding ATS Translation Request (R363): who needs it (a station number, or 0xFFF0 + slice). -/
structure TransReq where
  ctx     : Nat
  va      : Nat
  write   : Bool
  who     : Nat
  retried : Bool := false
  stale   : Bool := false
deriving DecidableEq, Repr

/-- An ATS invalidation whose completion has not been sent (R369). -/
structure Inval where
  itag : Nat
  func : Nat
  busy : List (Nat × Nat)
deriving DecidableEq, Repr

/-- A host-memory read that has no completion yet (R422, R423); nobody waits for a `dead` one any more. -/
structure HostRead where
  tag  : Nat
  func : Nat
  ctx  : Nat
  addr : Nat
  len  : Nat
  dead : Bool := false
deriving DecidableEq, Repr

/-- A PCIe function's configuration state (R412 to R428). -/
structure Func where
  memEn      : Bool := false
  busMaster  : Bool := false
  flr        : Bool := false
  pm         : Nat := 0
  pmeEn      : Bool := false
  pmeStatus  : Bool := false
  atsEn      : Bool := false
  pasidEn    : Bool := false
  msixEn     : Bool := false
  msixMask   : Bool := false
  ariHier    : Bool := false
  vfEn       : Bool := false
  vfMse      : Bool := false
  numVfs     : Nat := 0
  ctoDisable : Bool := false
  ctoValue   : Nat := 0
  mps        : Nat := 0
  mrrs       : Nat := 2
  rcb        : Bool := false
  bar0       : Nat := 0
  bar2       : Nat := 0
  bar4       : Nat := 0
  bar4Log    : Nat := 36
  suspended  : List Nat := []
  slots      : List (Nat × Nat) := []
  errors     : List Nat := []
  config     : List (Nat × Nat) := []
deriving DecidableEq, Repr

/-- An MSI-X table entry and its pending bit (R421). -/
structure MsixEntry where
  addr    : Nat := 0
  data    : Nat := 0
  masked  : Bool := true
  pending : Bool := false
deriving DecidableEq, Repr

/-- A shared region (R172 to R175), entries OD 0x5100 + i: state 0 UNUSED, 1 LOADING, 2 ACTIVE, 3 FENCED; its mirror
slices (primary port, partner port, base granule in the partner's reserve, granules); whether the mirror was lost; whether it
is bound (R451). -/
structure Region where
  base   : Nat := 0
  size   : Nat := 0
  bound  : Bool := false
  mirror : Bool := false
  state  : Nat := 0
  cmd    : Nat := 0
  fence  : Nat := 0
  slices : List (Nat × Nat × Nat × Nat) := []
  lost   : Bool := false
deriving DecidableEq, Repr

/-- A stack's thermal and training state beside its ports' registers (R176 to R184). -/
structure Stack where
  holding   : Bool := false
  inWindow  : Bool := false
  gib       : Nat := 64
  stepPend  : Bool := false
  stepping  : Bool := false
  lastTemp  : Nat := 0
deriving DecidableEq, Repr

/-- A port's retrain state (R182, R185), and its patrol scrubber: the line it reads next, and how many of an extra pass are
left (R171). -/
structure PortRec where
  recent   : Bool := false
  wanted   : Bool := false
  scrubAt  : Nat := 0
  scrubLeft : Nat := 0
  margins  : List Nat := []
deriving DecidableEq, Repr

/-- A port's service wheel beside its registers (R377 to R386): the owners in force, a map loaded by APPLY and whether it is in
force, the round-robin pointer, the slot time of the turn, the last lent slots (an urgent request taken while a non-urgent one
waited), the classes of requests past their deadline, oldest first. -/
structure Wheel where
  owners : List Nat := []
  loaded : Option (List Nat) := none
  rr     : Nat := 0
  time   : Nat := 0
  lent   : List Bool := []
  late   : List Nat := []
deriving DecidableEq, Repr

/-- A directory entry (R190). `st` 1 S, 2 X; `ptr` the four pointer fields; `cnt` the broadcast count. -/
structure DirEntry where
  line  : Nat
  st    : Nat
  bcast : Bool
  ptr   : List (Option Nat)
  cnt   : Nat
  ctx   : Nat
  vline : Nat
deriving DecidableEq, Repr

/-- Whom the home's acknowledgement of a write concerns: nobody that waits, a tile operation (R70), a completion record
(none: a halt record, R53), a guest's streaming write (R276), or a pod message (R400). -/
inductive AckTo where
  | nobody
  | op (opid : Nat)
  | record (ctx slot : Nat) (count : Option Nat)
  | str (stn txn : Nat)
  | msg (key : Nat)
deriving DecidableEq, Repr

/-- A request at a home (R194), or an access by a non-agent (agent 0xFF, R208): operation 1 RD_SHARED, 2 RD_UNIQUE,
3 RD_ONCE, 4 UPGRADE, 5 WR_LINE, 6 EVICT_CLEAN, 7 EVICT_DIRTY. A write carries its bytes from byte `off` of the line; `bad` poisons them; `tag` says
whom its acknowledgement concerns; `seq` how many contributions had reached the homes before it (R121). -/
structure CohReq where
  op    : Nat
  agent : Nat
  txn   : Nat
  ctx   : Nat
  vline : Nat
  line  : Nat
  smask : Nat := 3
  off   : Nat := 0
  data  : List Byte := []
  bad   : Bool := false
  tag   : AckTo := .nobody
  seq   : Nat := 0
deriving DecidableEq, Repr

/-- A transaction in progress on a line (R198): its number (home port * 1024 + the number on the wire), the agents whose snoop answers are due, those whose crossing dirty
eviction is due (R201), whether the owner kept the line in S, and the agent and grant whose acknowledgement is due. A
back-invalidation (R192) or a sweep of a context (R209) is a transaction without a request of its own; a lease's sweep removes
only the holders in `drop`. -/
structure CohTxn where
  stxn   : Nat
  req    : CohReq
  waits  : List Nat
  evicts : List Nat := []
  held   : Bool := false
  share  : Bool := false
  dataless : Bool := false
  ack    : Option (Nat × Nat) := none
  plain  : Bool := false
  drop   : List Nat := []
deriving DecidableEq, Repr

/-- A contribution to one sector (R121): the DPA of the first element it covers, the reduction, the target format, the
format its bytes are in, the covered elements' bytes, its poison, the operation or the pod message it belongs to, and its
place in the order of arrival. -/
structure RedItem where
  dpa  : Nat
  func : Nat
  fmt  : Nat
  src  : Nat
  data : List Byte
  bad  : Bool
  tag  : AckTo
  seq  : Nat := 0
deriving DecidableEq, Repr

/-- A caching agent's copy of a line (R200): state 1 S, 2 E, 3 M. -/
structure AgentLine where
  st    : Nat
  ctx   : Nat
  vline : Nat
deriving DecidableEq, Repr

/-- A sector in a house tile cache (R214). -/
structure TcSector where
  stn   : Nat
  ctx   : Nat
  sec   : Nat
  bytes : List Byte
  bad   : Bool
deriving DecidableEq, Repr

/-- A pool bound, or being bound, to a context (R128, R129): its geometry, the pages translated so far, and where the
translation of its region stands (the next byte; none when bound). -/
structure Pool where
  ctx   : Nat
  base  : Nat
  page  : Nat
  layers : Nat
  heads : Nat
  dim   : Nat
  fmt   : Nat
  frames : Nat
  lists : Nat
  slot0 : Nat
  slots : Nat
  map   : List AtcEntry := []
  next  : Option Nat := none
deriving DecidableEq, Repr

/-- An open sequence slot (R132): committed tokens, tokens since the last ADVANCE, list-block index of the root. -/
structure CasSlot where
  len   : Nat := 0
  fresh : Nat := 0
  root  : Nat := 0
deriving DecidableEq, Repr

/-- A semaphore slot (R233) with its baseline. -/
structure Sem where
  count     : Int := 0
  owner     : Nat := 0
  alloc     : Bool := false
  abandoned : Bool := false
  barrier   : Bool := false
  handSet   : Bool := false
  baseline  : Int := 0
deriving DecidableEq, Repr

/-- Who waits (R242): a command (queue slot, count), a guest (anchor, TXN, station), or a pod channel's command (R399). -/
inductive Waiter where
  | cmd (slot count : Nat)
  | guest (anchor txn stn : Nat)
  | pod (ch : Nat)
deriving DecidableEq, Repr

/-- A wait-table entry (R242): its index, the semaphore, the threshold, the context, the acquire range of R244. -/
structure Wait where
  index : Nat
  sem   : Nat
  thr   : Int
  ctx   : Nat
  by_   : Waiter
  acq   : Option (Nat × Nat)
deriving DecidableEq, Repr

/-- A released guest wait whose acquire range the station has still to carry out (R244, R275): sent, or behind an
earlier one at its station; the result that then goes out. -/
structure AcqWait where
  anchor : Nat
  stn    : Nat
  txn    : Nat
  ctx    : Nat
  base   : Nat
  len    : Nat
  status : Nat
  count  : Nat
  sent   : Bool
deriving DecidableEq, Repr

/-- A grant (R235). -/
structure Grant where
  sem  : Nat
  ctx  : Nat
  wait : Bool
  post : Bool
deriving DecidableEq, Repr

/-- A barrier record (R246, R247). `early` and `arrived` list participant numbers. -/
structure Barrier where
  state   : Nat := 0
  ctx     : Nat := 0
  arrive  : Nat := 0
  release : Nat := 0
  mask    : List Nat := []
  arrived : List Nat := []
  early   : List Nat := []
  gen     : Nat := 0
deriving DecidableEq, Repr

/-- A guest's wait whose SEM.ACQ_RANGE flit has not come yet (R238). -/
structure PartWait where
  site : Nat
  stn  : Nat
  txn  : Nat
  ctx  : Nat
  sem  : Nat
  thr  : Int
deriving DecidableEq, Repr

/-- An ordered guest post held at the spoke entry, with the guest's earlier writes not yet acknowledged (R240). -/
structure HeldPost where
  anchor : Nat
  txn    : Nat
  ctx    : Nat
  sem    : Nat
  value  : Nat
  sub    : Bool
  stn    : Nat
  due    : List (AckTo × Nat)
deriving DecidableEq, Repr

/-- A streaming request of a guest under way (R276): its block address and sectors, the bytes and poison of a write once
its STR.WDATA came, the line writes not yet acknowledged, and whether one was refused. -/
structure StrReq where
  anchor : Nat
  stn    : Nat
  txn    : Nat
  ctx    : Nat
  write  : Bool
  va     : Nat
  smask  : Nat
  data   : Option (List Byte × Nat) := none
  left   : Nat := 0
  bad    : Bool := false
  sent   : Bool := false
deriving DecidableEq, Repr

/-- A descriptor's station record with its number (R295, R300). -/
structure StnRec where
  number : Nat
  site   : Nat
  push   : Bool
  pull   : Bool
  slots  : Nat
  window : Nat
  fmtIn  : Nat
  fmtOut : Nat
  credit : Nat
deriving DecidableEq, Repr

/-- A lease's steps (R310, R311): 0 none, 1 LEASE_START sent, 2 draining, 3 LEASE_END sent, 4 sweeping, 5 SCRUB sent,
6 the guest is being re-admitted, 7 the guest was isolated and its agents are being swept (R315). -/
structure LeaseRec where
  step   : Nat := 0
deriving DecidableEq, Repr

/-- A violation-log entry (R306, R318). -/
structure VioEntry where
  kind  : Nat
  ctx   : Nat
  src   : Nat
  agent : Bool
  seq   : Nat
  va    : Nat
deriving DecidableEq, Repr

/-- A guest by its anchor (0 to 31 a site, 32 + p a UCIe port): what admission, the permit and isolation keep beside
the registers (R291 to R317): the sites it covers, the admission step of R298 (0 none), the sideband transfer under way
(site, address, words; tries), what was read from each site (position, CRC), the descriptor with its stations and agent
IDs, the sideband command under way and those behind it (command, context, lease slot), the violations of this window,
automatic re-admissions in a row, contexts in grace (R306), the violation log, firmware delivery (round, blocks missing,
image), the gate's result, whether an exclusive lease end runs the re-admission, a wait whose second flit is due, the sites whose
TRAIN_CLR has not ended, what SITE.DESC shows, current readings above PEAK_A in a row by site (R559), and the refused STR.WR
(station, TXN) whose STR.WDATA is due. -/
structure Guest where
  covered   : List Nat := []
  step      : Nat := 0
  sbXfer    : Option (Nat × Nat × Nat) := none
  sbTries   : Nat := 0
  seen      : List (Nat × Nat × Nat) := []
  desc      : List Byte := []
  stations  : List StnRec := []
  agentIds  : List Nat := []
  sbCur     : Option (Nat × Nat × Nat) := none
  sbQ       : List (Nat × Nat × Nat) := []
  winCount  : Nat := 0
  autoTries : Nat := 0
  grace     : List Nat := []
  vlog      : List VioEntry := []
  fwRound   : Nat := 0
  fwMissing : List Nat := []
  fwImage   : List Byte := []
  trained   : List Nat := []
  gated     : List Nat := []
  readmit   : Bool := false
  part      : Option PartWait := none
  clearing  : List Nat := []
  shown     : List Byte := []
  overI      : List (Nat × Nat) := []
  dropW     : List (Nat × Nat) := []
deriving DecidableEq, Repr

/-- A guest image in the flash (R536): its place in the directory, its entry and its data. -/
structure GuestImg where
  entry  : Nat
  vendor : Nat
  fwId   : Nat
  offset : Nat
  seq    : Nat
  digest : List Byte
  data   : List Byte
deriving DecidableEq, Repr

/-- A spoke or UCIe link's own state (R268 to R286, R329 to R333): credits, lanes, stall, truing. -/
structure Link where
  hubCr    : List Nat := [512, 128, 0, 128, 0, 1024]
  owed     : List Nat := [0, 0, 0, 0, 0, 0]
  guestCr  : List Nat := [0, 0, 0, 0, 0, 0]
  outQ     : List (Nat × Nat × Output) := []
  stall    : Nat := 0
  mapKind  : Nat := 0
  mapDir   : Nat := 0
  mapGroup : Nat := 0
  mapLane  : Nat := 0
  mapSpare : Nat := 0
  mapB1    : Nat := 0
  newWidth : Nat := 0
  newClass : Nat := 0
  todo     : List (Nat × Nat × Nat) := []
  truing   : Option Nat := none
  trueLeft : List Nat := []
  failRun  : List (Nat × Nat) := []
  pins     : Nat := 0
  preq     : Bool := false
deriving DecidableEq, Repr

/-- Requests that admission, context creation and other control-half work must wait for (R17): carried out in arrival
order when the control half is back. -/
inductive HeldWork where
  | ctxCreate (ctx : Nat)
  | ctxTeardown (ctx : Nat)
  | admission (anchor : Nat)
  | readmit (anchor : Nat)
deriving DecidableEq, Repr

/-- Weight binding of a region beside its dictionary settings (R451, R452, R455): the status, the failing chunk and the digest
reported, the last command, the stage of its load (0 none, 1 queued or before its key, 2 decrypting), the header read, the
plaintext length, the loader's key register, the next chunk. -/
structure Bind where
  status : Nat := 0
  fail   : Nat := 0
  digest : List Byte := []
  cmd    : Nat := 0
  stage  : Nat := 0
  header : List Byte := []
  plain  : Nat := 0
  key    : List Byte := []
  chunk  : Nat := 0
deriving DecidableEq, Repr

/-- An overlay (R483): its name and the values it holds, by key. -/
structure Overlay where
  name : List Byte
  vals : List (Nat × List Byte) := []
deriving DecidableEq, Repr

/-- A committed generation of the dictionary store (R461, R488, R533): its number, the version of its format, the base, the
overlays in creation order, the name of the active one, whether a factory reset is pending. -/
structure Store where
  gen      : Nat := 0
  ver      : Nat := 0
  base     : List (Nat × List Byte) := []
  overlays : List Overlay := []
  active   : List Byte := []
  reset    : Bool := false
deriving DecidableEq, Repr

/-- A firmware slot (R525, R526): its state (0 EMPTY, 1 WRITING, 2 PENDING, 3 TRIAL, 4 GOOD, 5 BAD) and its image. The image a hub
is delivered with is `factory`: its bytes are not the spec's. -/
structure FwSlot where
  state   : Nat := 0
  bytes   : List Byte := []
  factory : Bool := false
deriving DecidableEq, Repr

/-- The xSPI flash (R525 to R535): the boot record, the slots, the newest valid store generation and the snapshot. As delivered, slot
A holds the image that runs and no store is written (DESIGN CHOICE, log entry 40). -/
structure Flash where
  seq      : Nat := 0
  slotA    : FwSlot := { state := 4, factory := true }
  slotB    : FwSlot := {}
  active   : Nat := 0
  fallback : Nat := 0
  store    : Option Store := none
  snapshot : Option Store := none
deriving DecidableEq, Repr

/-- A firmware update under way (R528): state (0 IDLE, 1 ERASING, 2 WRITING, 3 CHECKING), who drives it (path, peer), its target and
slot, vendor, firmware ID, length, the bytes programmed, the offset in the guest area, the result of the last command. -/
structure Fwu where
  state  : Nat := 0
  path   : Nat := 0
  peer   : Nat := 0
  target : Nat := 0
  slot   : Nat := 0
  guest  : Nat := 0
  len    : Nat := 0
  bytes  : List Byte := []
  unit   : Nat := 0
  result : Nat := 0
deriving DecidableEq, Repr

/-- What the hub keeps of a field-network peer (R476, R477): its IPv6 address, the highest SEQ accepted, the kept responses (SEQ,
request, response), newest first. -/
structure KmpPeer where
  addr : Nat
  seq  : Nat
  kept : List (Nat × List Byte × List Byte) := []
deriving DecidableEq, Repr

/-- The management core's own state (R456 to R490): the base values that differ from their defaults (effective ones stand in `od`), the
overlays, the active one's name, whether stored writes wait for their commit, whether the last commit ended well, a factory
reset asked for; expert sessions (the mailbox's, field peers), nonces (path, peer, bytes), mismatches by path, paths locked out, who
opened the operator debug session; the debug nonce, a response being verified, deep debug, failures; the attestation nonce; KMP
peers and the floor; the mailbox buffer; the I3C address; whether PLCA runs; whether the next sideband read answers FRAME; a read of the memory
window under way (DPA, sectors; R553). -/
structure Ctl where
  base     : List (Nat × List Byte) := []
  overlays : List Overlay := []
  active   : List Byte := []
  dirty    : Bool := false
  storeOk  : Bool := true
  reset    : Bool := false
  expMbx   : Bool := false
  expField : List Nat := []
  nonces   : List (Nat × Nat × List Byte) := []
  misses   : List (Nat × Nat) := []
  locked   : List Nat := []
  opHolder : Option (Nat × Nat) := none
  dbgNonce : Option (List Byte) := none
  dbgWait  : Option (List Byte × List Byte) := none
  dbgOpen  : Bool := false
  dbgFails : Nat := 0
  attNonce : Option (List Byte) := none
  peers    : List KmpPeer := []
  floor    : Nat := 0
  mbxBuf   : List (Nat × Byte) := []
  dynAddr  : Option Nat := none
  plca     : Bool := false
  sbBad    : Bool := false
  memRead  : Option (Nat × Nat) := none
deriving DecidableEq, Repr

/-- The AVSBus sequencer (R503, R504): a change under way with its level, failures in a row, whether it waits for its retry, and the
level of a waiting request. -/
structure Avs where
  busy  : Bool := false
  level : Nat := 0
  fails : Nat := 0
  retry : Bool := false
  next  : Option Nat := none
deriving DecidableEq, Repr

/-- A posted host write that the endpoint core holds in Park (R497). -/
inductive HeldWrite where
  | doorbell (fn page slot : Nat) (sq cq : Option Nat)
  | bar4 (addr : Nat) (data : List Byte) (ep : Bool)
deriving DecidableEq, Repr

/-- A BAR4 read that is not yet complete (R424, R497). -/
structure BarRead where
  tag  : Nat
  addr : Nat
  len  : Nat
deriving DecidableEq, Repr

/-- The life cycle, the flash and the firmware: blown cells (R434; a hub is delivered in Production, DESIGN CHOICE, log entry 40); the
count was odd at boot; the flash; the slot that runs; the update under way; the management core; the boot epoch and the thermal
trips, which the hub itself stores (R458, R566); duplicate address detection: 0 under way, 1 passed, 2 failed (R473); the
expert owner map in force (R389); what the control half found when it went down: 0 a running data half or none, 1 a cold bring-up,
2 a data-half reset or its warm restart, 3 a failed bring-up (R19, R519); the data half froze on a source it has not reported (R19);
the restart counts each half last heard from the other (R16); the reset phase of a warm restart runs (R520); the pod role that this
data-half start took from the dictionary (R408); a restart that follows an answer: 0 none, 1 of the control half, 2 of both halves. -/
structure Mg where
  cells : Nat := 4
  lcOdd : Bool := false
  flash : Flash := {}
  slot  : Option Nat := none
  fwu   : Fwu := {}
  ctl   : Ctl := {}
  epoch : Nat := 0
  trips : Nat := 0
  dad   : Nat := 0
  map   : Option (List Nat) := none
  resume : Nat := 0
  fatalNew : Bool := false
  seenCtl : Nat := 0
  seenData : Nat := 0
  warmReset : Bool := false
  podRole : Nat := 0
  restart : Nat := 0
deriving DecidableEq, Repr

/-- Power (R491 to R505): the state (0 Ride, 1 Coast, 2 Park, 3 Kickstand), the level of VDD_DATA, the clock limit in force in MHz, the
limiter's setting, the clock at a thermal hold's request, milliseconds for which both conditions were clear, the sequencer, the RTC
count, the lowest wake source that waits, writes held in Park, guests held in reset in Park, sensors whose last reading was 110 °C
or more, THERMTRIP_N low, WAKE# low, the PF's PME_En at its entry into D3cold, PWR_ON high (R429, R499, R563). -/
structure Pwr where
  state   : Nat := 0
  level   : Nat := 0
  clk     : Nat := 0
  limClk  : Nat := 1800
  holdClk : Option Nat := none
  clearMs : Nat := 0
  avs     : Avs := {}
  rtc     : Nat := 0
  want    : Option Nat := none
  held    : List HeldWrite := []
  guests  : List Nat := []
  hot     : List Nat := []
  tripLow : Bool := false
  wakeLow : Bool := false
  pmeSet  : Bool := false
  on      : Bool := false
deriving DecidableEq, Repr

/-- The PCIe link: PERST# asserted, trained, rate in GT/s, width; the D3cold sequence was taken (R430); a bring-up waits for the
link (R519); BAR4 reads not yet complete; tags of host reads dropped before their completion (R427). -/
structure Pcie where
  perst  : Bool := true
  up     : Bool := false
  gts    : Nat := 0
  width  : Nat := 0
  d3cold : Bool := false
  waits  : Bool := false
  reads  : List BarRead := []
  dead   : List Nat := []
deriving DecidableEq, Repr

/-- An entry of the stem's notice queue (R544): a notice (code, detail), or a fault record's bytes; how many notices
were lost between it and the entry before it. -/
structure Notice where
  code   : Nat
  detail : Nat
  record : Option (List Byte)
  lost   : Nat
deriving DecidableEq, Repr

/-- A NOTIFY that awaits its acknowledgement (R480). -/
structure NotifyOut where
  seq    : Nat
  code   : Nat
  nseq   : Nat
  detail : Nat
  dest   : Nat
  sends  : Nat
deriving DecidableEq, Repr

/-- A pod message (R396): type, whether a poison mask precedes its data, job, number, ARG, payload. -/
structure PodMsg where
  typ     : Nat
  pmask   : Bool
  job     : Nat
  msgId   : Nat
  arg     : Nat
  payload : List Byte
deriving DecidableEq, Repr

/-- The sending side of a stream (R394): the next SEQ, the frames not yet acknowledged, oldest first, the resend wait. -/
structure PodTx where
  next : Nat := 1
  sent : List (Nat × PodMsg) := []
  wait : Nat := 0
deriving DecidableEq, Repr

/-- A pod command under way in a channel (R399): its count k, its bytes, its step (1 checked, 2 its wait is over, 3 sent),
the messages sent so far and those whose DONE is due. -/
structure PodRun where
  k     : Nat
  raw   : List Byte
  step  : Nat
  pos   : Nat := 0
  due   : List Nat := []
deriving DecidableEq, Repr

/-- A channel beside its registers (R398): the count of the next command to take, the commands under way. -/
structure PodCh where
  next : Nat := 0
  runs : List PodRun := []
deriving DecidableEq, Repr

/-- A message accepted from a peer and being performed (R400): its key, sender, job, number, the sectors not yet
performed, and its status so far. -/
structure PodIn where
  key    : Nat
  src    : Nat
  job    : Nat
  msgId  : Nat
  left   : Nat
  status : Nat
deriving DecidableEq, Repr

/-- A pod barrier at the manager (R405): its generation, the hubs that arrived, those held for the next generation. -/
structure PodBar where
  gen     : Nat := 0
  arrived : List Nat := []
  early   : List (Nat × Nat × Nat) := []
deriving DecidableEq, Repr

/-- Consequences that a step's own operation starts in another unit; they are carried out before the step ends. -/
inductive Todo where
  | kill (ctx cause : Nat)
  | isolate (anchor cause : Nat)
  | violation (anchor kind ctx src : Nat) (agent : Bool) (va : Nat) (stn opid : Option Nat)
  | lost (station : Nat)
  | fatal (source : Nat)
  | suspect (agent : Nat)
  | hubFatal (cause : Nat)
  | teardown (ctx : Nat)
  | podNotice (kind arg : Nat)
  | podPump
  | podWaited (ch status : Nat)
  | run (ctx slot : Nat)
  | recBad (ctx slot : Nat)
deriving DecidableEq, Repr

end Sys2Proof.Machine
end

