-- ==== Sys2Proof/Machine/State.lean ====
section
/-!
DEFINITION. Machine/State.lean: the hub's whole state as plain data, the reasons a command can stop, and the state
right after power-up.
-/
namespace Sys2Proof.Machine

/-- Everything the spec gives the hub. Registers live in `regs`, dictionary values in `od`; the other fields are the
state the spec names that no register shows. The value after `:=` is the value right after power is applied. -/
structure Hub where
  /-- Fuses: the variant (R4, R5). DESIGN CHOICE (log entry 2): reset is a KH-7364; statements hold for every variant. -/
  variant  : Variant := .kh7364
  /-- Registers written since reset; another one holds its reset value: key = bank * 1024 + register number (R30 …). -/
  regs     : List (Nat × Word) := []
  /-- Dictionary values that differ from their default: key = index * 256 + subindex (R459, R461). -/
  od       : List (Nat × List Byte) := []
  /-- How many free values were drawn (the model's own field, log entry 4). -/
  freeN    : Nat := 0
  /-- What the hub sent, newest first. -/
  out      : List Output := []
  /-- HBM contents by DPA, as the homes hold them (R159, R162, R168). -/
  hbm      : Memory := []
  /-- Poisoned sectors (DPA / 32) (R168). -/
  poison   : List (Nat × Unit) := []
  /-- Host memory as the hub wrote it. -/
  hostMem  : Memory := []
  /-- Bytes of host memory that a completion delivered and no reader has taken (R423). -/
  hostBuf  : Memory := []
  /-- Which host bytes (address / 32) have arrived, and whether poisoned. -/
  hostHave : List (Nat × Bool) := []
  hostReads : List HostRead := []
  /-- The live port list L (R159, R160), the bytes per port C (R154) and the mirror reserve Z in bytes (R161). -/
  live     : List Nat := []
  portCap  : Nat := 0
  reserve  : Nat := 0
  hbms   : List (Nat × Stack) := []
  ports    : List (Nat × PortRec) := []
  regions  : List (Nat × Region) := []
  /-- Directory entries: key = port * 65536 + set * 16 + way (R190). -/
  dir      : List (Nat × DirEntry) := []
  cohTxns  : List CohTxn := []
  cohQ     : List CohReq := []
  /-- Coherent requests that wait for their translation (R367). -/
  cohPend  : List CohReq := []
  /-- Sweeps of R206 and R209 under way: (agent + 1, or 0; context; agents of a lease). -/
  sweeps   : List (Nat × Nat × List Nat) := []
  /-- Agent states (R189): 1 LIVE, 2 SUSPECT, 3 SWEEPING; unlisted FREE. -/
  agents   : List (Nat × Nat) := []
  /-- Agents' copies: key = agent * 2^33 + line (R200). -/
  agentLines : List (Nat × AgentLine) := []
  /-- Agents that a snoop made leave a line, keyed as `agentLines`: an eviction of the line may still be on its way (R201). -/
  snpOut   : List (Nat × Unit) := []
  tc       : List TcSector := []
  /-- Stations to which issue is held by TC.CTL.INVAL_ALL (R223). -/
  tcHold   : List Nat := []
  /-- Stem link (R16 to R19): restart counts, failed resynchronisations in a row, fatal source that froze the data
  half, held work, notices and counters. -/
  ctlStarts  : Nat := 0
  dataStarts : Nat := 0
  resyncFail : Nat := 0
  frozenBy   : Nat := 0
  fatalPend  : Nat := 0
  dataReset  : Bool := true
  ctlDown    : Bool := true
  held       : List HeldWork := []
  notices    : List Notice := []
  noticeLost : Nat := 0
  /-- The fault ring (R370): entry number to record bytes; the sequence number of the next record. -/
  faultRing  : List (Nat × List Byte) := []
  faultSeq   : Nat := 0
  /-- Queues: key = context * 64 + slot (R55 to R62). -/
  queues   : List (Nat × QRec) := []
  /-- Queue numbers in use (R62). -/
  qnums    : List Nat := []
  cmds     : List Cmd := []
  ops      : List TileOp := []
  /-- Route table (R47): entry number to eight slots. -/
  routes   : List (Nat × List Nat) := []
  /-- Contributions on their way to RED at their homes (R121). -/
  redQ     : List RedItem := []
  /-- Translation cache, most recently used first (R368). -/
  atc      : List AtcEntry := []
  trReqs   : List TransReq := []
  invals   : List Inval := []
  funcs    : List (Nat × Func) := []
  /-- MSI-X tables: key = function * 2048 + vector (R421). -/
  msix     : List (Nat × MsixEntry) := []
  /-- Teardown step each context stands at (R361). -/
  teardown : List (Nat × Nat) := []
  /-- VF contexts that become FREE when their teardown ends (R426). -/
  freeAfter : List Nat := []
  sems     : List (Nat × Sem) := []
  waits    : List Wait := []
  grants   : List Grant := []
  barriers : List (Nat × Barrier) := []
  /-- Participant bindings: key = context * 256 + participant to (kind, id) (R245). -/
  parts    : List (Nat × (Nat × Nat)) := []
  posts    : List HeldPost := []
  /-- Guest waits whose TXN must be followed by an acquire range, and releases waiting for its TOP.DONE (R238, R244). -/
  acqWait  : List AcqWait := []
  guests   : List (Nat × Guest) := []
  links    : List (Nat × Link) := []
  leases   : List (Nat × LeaseRec) := []
  strs     : List StrReq := []
  /-- The mailbox notice ring of 64 (code, number, detail), the next notice number (R478, R480), the NOTIFYs not yet
  acknowledged and the next NOTIFY sequence number. -/
  noteRing : List (Nat × Nat × Nat) := []
  nseq     : Nat := 0
  notifies : List NotifyOut := []
  notifySeq : Nat := 0
  /-- Consequences still to be carried out inside the present step; empty between steps. -/
  todo     : List Todo := []
  /-- Pod configuration in force since the last data-half start: POD_ID, manager, EtherType, VLAN (R408). -/
  podId    : Nat := 0
  podMgr   : Nat := 0
  podEther : Nat := 0x88B5
  podVlan  : Nat := 0
  /-- Streams to peers and from peers (the next SEQ expected), peers owed an acknowledgement (R394). -/
  podTx    : List (Nat × PodTx) := []
  podRx    : List (Nat × Nat) := []
  podAck   : List Nat := []
  podMsgId : Nat := 0
  /-- Channels (R398), messages accepted and not yet applied in stream order, messages being performed (R400), the
  manager's barriers (R405), whether a worker has a roster (R403). -/
  podCh    : List (Nat × PodCh) := []
  podRxQ   : List (Nat × PodMsg) := []
  podIn    : List PodIn := []
  podBar   : List (Nat × PodBar) := []
  podHas   : Bool := false
  /-- Cassette pools, key cassette * 32 + pool (R128), and open slots, key cassette * 512 + slot (R132). -/
  pools    : List (Nat × Pool) := []
  casSlots : List (Nat × CasSlot) := []
  /-- The generation this hub's next ARRIVE at a pod barrier is for (R405). -/
  podGen   : List (Nat × Nat) := []
  /-- The key of the next message performed (R400). -/
  podKey   : Nat := 0
  /-- The cause of a hub-fatal error, 0 none (R541): 1 endpoint core, 2 supply, 3 thermal trip. -/
  dead     : Nat := 0
  /-- A second try of phase 2 has been used (R511); the bring-up running is a warm one (R520); the milliseconds its phases
  took. -/
  retried  : Bool := false
  warmRun  : Bool := false
  bootMs   : Nat := 0
  /-- Sites and ports (32, 33) whose presence line is low: a guest is there (R262). -/
  present  : List Nat := []
  /-- The trace buffer, oldest record first (R551), the records entered since CLEAR, and, after the trigger, how many more
  it takes. -/
  trcBuf   : List (List Byte) := []
  trcN     : Nat := 0
  trcLeft  : Option Nat := none
  /-- How many contributions have reached the homes (R121). -/
  redN     : Nat := 0
  /-- The guest images in the flash (R536). -/
  guestImgs : List GuestImg := []
  /-- Retries in a row of the flit each link resends (R348): key = (router * 8 + port) * 4 + network. -/
  rimTries : List (Nat × Nat) := []
  /-- Service wheels by port (R377). -/
  wheels   : List (Nat × Wheel) := []
  /-- Weight binding by region, and the loads accepted, the one that runs first (R451). -/
  binds    : List (Nat × Bind) := []
  bindQ    : List Nat := []
  /-- The management core's side, the power side, the PCIe link. -/
  mg       : Mg := {}
  pwr      : Pwr := {}
  pcie     : Pcie := {}
deriving DecidableEq, Repr


/-- The machine: the hub and the queue of commands that wait, first in, first out. -/
structure State where
  pending : List Instr
  hub     : Hub
deriving DecidableEq, Repr

/-- Reasons to stop. -/
inductive Fault where
  /-- Raised by `onUnit` (Ops.lean) where a command names a unit (port, site, router, station, slot …) that the
  numbering of the spec does not have: no such unit exists to act on. Safe: the hardware has no such access. -/
  | noSuchUnit
deriving DecidableEq, Repr

/-- Reasons to refuse a command. -/
inductive Refusal where
  /-- Answered by an arm of `exec` whose command has no meaning yet. Safe. -/
  | notModelled (mnemonic : String)
deriving DecidableEq, Repr

/-- The hub right after power is applied. -/
def State.reset : State := { pending := [], hub := {} }

end Sys2Proof.Machine
end

