-- ==== Sys2Proof/Machine/Ops.lean ====
section
/-!
DEFINITION. Machine/Ops.lean: the named operations over the hub's registers, events, dictionary values, interrupts,
notices and fault ring, which every meaning uses.
-/
namespace Sys2Proof.Machine

/-! ### How a meaning answers -/

/-- The effect `f` on the hub, the queue untouched. -/
def onHub (s : State) (f : Hub → Hub) : Host.Outcome State Fault Refusal := .next { s with hub := f s.hub }

/-- The effect `f` where the command's unit exists; else the fault that says so. -/
def onUnit (ok : Bool) (s : State) (f : Hub → Hub) : Host.Outcome State Fault Refusal :=
  if ok then .next { s with hub := f s.hub } else .fault .noSuchUnit

/-- Apply `f` to each element in turn. -/
def each {α : Type} (xs : List α) (h : Hub) (f : Hub → α → Hub) : Hub := xs.foldl f h

/-- Drop the elements that satisfy `p`. -/
def dropIf {α : Type} (xs : List α) (p : α → Bool) : List α := xs.filter fun x => !p x

/-- Replace the elements that satisfy `p` by `f` of them. -/
def mapIf {α : Type} (xs : List α) (p : α → Bool) (f : α → α) : List α := xs.map fun x => if p x then f x else x

/-! ### Variants (R4, R5) -/

def Variant.part : Variant → Nat
  | .kh7364 => 0x7364 | .kh7348 => 0x7348 | .kh7332 => 0x7332

def Variant.sites : Variant → Nat
  | .kh7364 => 32 | .kh7348 => 24 | .kh7332 => 16

def Variant.cranks : Variant → Nat
  | .kh7364 => 8 | .kh7348 => 6 | .kh7332 => 4

def Variant.stackOn (v : Variant) (n : Nat) : Bool :=
  match v with
  | .kh7364 => decide (n < 8)
  | .kh7348 => [0, 1, 2, 4, 5, 6].contains n
  | .kh7332 => [0, 1, 4, 5].contains n

/-- Site `s` is enabled. -/
def Variant.siteOn (v : Variant) (s : Nat) : Bool := decide (s < v.sites)

/-- Memory port `p` is enabled: port 8n + k belongs to stack n (R157). -/
def Variant.portOn (v : Variant) (p : Nat) : Bool := decide (p < 64) && v.stackOn (p / 8)

def Variant.crankOn (v : Variant) (n : Nat) : Bool := decide (n < v.cranks)

/-! ### Endpoints on the rim (R339, R340) -/

/-- Router of site `s`. -/
def siteRouter (s : Nat) : Nat := 8 * (s / 8) + [0, 7, 1, 6, 2, 5, 3, 4].getD (s % 8) 0

/-- Endpoint kind and index at router `n` (R340, RIM.ID): 0 site, 1 crank, 2 VEC, 3 DRL, 4 CAS, 5 dispatcher slice,
6 barrier engine, 7 PCIe data path, 8 scale-out Ethernet, 9 UCIe port, 10 management bridge. -/
def endpointAt (n : Nat) : Nat × Nat :=
  if n < 32 then (0, 8 * (n / 8) + [0, 2, 4, 6, 7, 5, 3, 1].getD (n % 8) 0)
  else [(9, 0), (1, 0), (2, 0), (3, 0), (7, 0), (1, 1), (2, 1), (5, 0),
        (10, 0), (1, 2), (2, 2), (4, 0), (8, 0), (1, 3), (2, 3), (5, 1),
        (9, 1), (1, 4), (2, 4), (3, 1), (6, 0), (1, 5), (2, 5), (5, 2),
        (3, 2), (1, 6), (2, 6), (4, 1), (3, 3), (1, 7), (2, 7), (5, 3)].getD (n - 32) (0, 0)

/-- The endpoint at router `n` is fused: a fused site or crank. -/
def endpointFused (v : Variant) (n : Nat) : Bool :=
  match endpointAt n with
  | (0, i) => !v.siteOn i
  | (1, i) => !v.crankOn i
  | _ => false

/-! ### Registers -/

def Reg.num (r : Reg) : Nat := r.ctorIdx

/-- The slots of class c in the active preset (R378). -/
def presetSlots : Nat → List Nat
  | 0 => [48, 4, 6, 6, 0]
  | 1 => [52, 6, 2, 4, 0]
  | 2 => [40, 2, 6, 16, 0]
  | _ => [32, 4, 24, 4, 0]

/-- The lowest index of a largest element. -/
def argmax (xs : List Int) : Nat :=
  (xs.zipIdx.foldl (fun (b : Int × Nat) e => if e.1 > b.1 then e else b) (xs.headD 0, 0)).2

/-- The owner map of R378's procedure, slot 0 first. -/
def ownerMap (k : List Nat) : List Nat :=
  ((List.range 64).foldl (fun (a : List Int × List Nat) _ =>
    let cur := (a.1.zip k).map fun e => e.1 + (e.2 : Int)
    let c := argmax cur
    (cur.set c (cur.getD c 0 - 64), c :: a.2)) (k.map fun _ => 0, [])).2.reverse

/-- A map word: the owners of slots 16i to 16i + 15, a nibble each (R378). -/
def mapWord (m : List Nat) (i : Nat) : Nat :=
  (List.range 16).foldr (fun j a => a * 16 + m.getD (16 * i + j) 0) 0

/-- REG.CFG and REG.LIMIT defaults of the endpoint at router `n` (R375): mode, budget in 8 ns, RD_MAX, WR_MAX. A guest
endpoint's own registers start with mode none and no limit until admission (DESIGN CHOICE, log entry 7). -/
def regDefaults (n : Nat) : Nat × Nat × Nat × Nat :=
  match (endpointAt n).1 with
  | 1 => (1, 0, 2048, 512)
  | 2 => (1, 0, 2048, 2048)
  | 3 => (1, 0, 2048, 2048)
  | 4 => (2, 250, 4096, 4096)
  | 5 => (2, 125, 256, 256)
  | 6 => (0, 0, 64, 64)
  | 7 => (2, 500, 1024, 1024)
  | 8 => (1, 0, 2048, 2048)
  | 10 => (0, 0, 16, 16)
  | _ => (0, 250, 0, 0)

/-- The reset value of register `r` in bank `i`: the table's number, or what a register whose table says 'by fuse',
'by die', 'by position', 'R375' or 'preset' reads. -/
def regReset (v : Variant) (r : Reg) (i : Nat) : Nat :=
  match r with
  | .hubId => v.part + Config.dieStep % 256 * 2 ^ 16 + 0x4B * 2 ^ 24
  | .vfId => v.part + i % 64 * 2 ^ 16
  | .bootFuse => (2 ^ v.sites - 1) + ((List.range 8).foldl (fun a n => a + b2n (v.stackOn n) * 2 ^ n) 0) * 2 ^ 32
      + (2 ^ v.cranks - 1) * 2 ^ 40
  | .rimId => i + i % 8 * 2 ^ 8 + i / 8 * 2 ^ 12 + (endpointAt i).1 * 2 ^ 16 + (endpointAt i).2 * 2 ^ 24
      + b2n (endpointFused v i) * 2 ^ 30
  | .regCfg => (regDefaults i).1 + (regDefaults i).2.1 * 2 ^ 4 + 25 * 2 ^ 16 + 50 * 2 ^ 24
  | .regLimit => (regDefaults i).2.2.1 + (regDefaults i).2.2.2 * 2 ^ 16
  | .whlMap0 => mapWord (ownerMap (presetSlots 0)) (i % 4)
  | _ => r.info.reset

/-- Register `r` of bank `i`. -/
def getReg (h : Hub) (r : Reg) (i : Nat) : Nat :=
  match tget h.regs (i * 1024 + r.num) with
  | some w => w.toNat
  | none => regReset h.variant r i

/-- The hub with register `r` of bank `i` at `v` (64 bits). -/
def setReg (h : Hub) (r : Reg) (i v : Nat) : Hub := { h with regs := tset h.regs (i * 1024 + r.num) (BitVec.ofNat 64 v) }

/-- Field `f` of bank `i`. -/
def fld (h : Hub) (f : Fld) (i : Nat := 0) : Nat := getReg h f.reg i / 2 ^ f.lo % 2 ^ f.w

/-- A one-bit field. -/
def flag (h : Hub) (f : Fld) (i : Nat := 0) : Bool := fld h f i == 1

/-- The hub with field `f` of bank `i` at `v`, the register's other bits unchanged. -/
def setFld (h : Hub) (f : Fld) (i v : Nat) : Hub := setReg h f.reg i (setBits (getReg h f.reg i) f.lo f.w v)

/-- A field plus `n`, wrapping at its width. -/
def addFld (h : Hub) (f : Fld) (i n : Nat) : Hub := setFld h f i (fld h f i + n)

/-- Return every register that satisfies `p` to its reset value. -/
def resetRegs (h : Hub) (p : Reg → Nat → Bool) : Hub :=
  { h with regs := dropIf h.regs fun e =>
      match Reg.all[e.1 % 1024]? with
      | some r => p r (e.1 / 1024)
      | none => false }

/-! ### Free values and outputs -/

/-- A free value below 2^w, drawn fresh. -/
def drawFree (h : Hub) (w : Nat) : Nat × Hub := (Config.freeNat h.freeN % 2 ^ w, { h with freeN := h.freeN + 1 })

/-- Something sent. -/
def emit (h : Hub) (k : OutKind) (dst : Nat) (args : List Nat := []) (data : List Byte := []) : Hub :=
  { h with out := ⟨k, dst, args, data⟩ :: h.out }

/-! ### Dictionary values -/

/-- The bit of each present house station (OD 0x6001.01, R74). -/
def stationsPresent (v : Variant) : Nat := (2 ^ v.cranks - 1) + 0x7FFF00

/-- Default of a number entry that the table does not write as a number. -/
def odDefault (v : Variant) (k : Nat) : Nat :=
  if k = OD.houseStations then stationsPresent v
  else if decide (OD.regMap 0 ≤ k) && decide (k ≤ OD.regMap 3) then mapWord (ownerMap (presetSlots 0)) (k - OD.regMap 0)
  else if k = OD.part then v.part
  else if k = OD.stepping then Config.dieStep % 256
  else if k = OD.deviceId then Config.deviceId % 2 ^ 64
  else if k = OD.mac then 0x0A4B * 2 ^ 32 + Config.deviceId % 2 ^ 32
  else match odRow? k with
    | some r => r.dflt
    | none => 0

/-- A number entry's value. -/
def odNum (h : Hub) (k : Nat) : Nat :=
  match tget h.od k with
  | some b => leNat b
  | none => odDefault h.variant k

/-- A boolean entry. -/
def odOn (h : Hub) (k : Nat) : Bool := odNum h k == 1

/-- A byte-string entry's value, `n` bytes. -/
def odBytes (h : Hub) (k n : Nat) : List Byte := sliceB ((tget h.od k).getD []) 0 n

/-- The hub with number entry `k` at `v`, `n` bytes wide. -/
def setOdNum (h : Hub) (k n v : Nat) : Hub := { h with od := tset h.od k (leBytes n v) }

/-- The hub with byte-string entry `k` at `bs`. -/
def setOdBytes (h : Hub) (k : Nat) (bs : List Byte) : Hub := { h with od := tset h.od k bs }

/-- A counting entry plus one, wrapping at `n` bytes. -/
def bumpOd (h : Hub) (k n : Nat) : Hub := setOdNum h k n ((odNum h k + 1) % 2 ^ (8 * n))

/-- An operator debug session is open (R445). -/
def debugOpen (h : Hub) : Bool := odOn h OD.opdbg

/-! ### The halves (R15 to R20) -/

def ctlUp (h : Hub) : Bool := flag h F.hubStatusCtlUp
def dataUp (h : Hub) : Bool := flag h F.hubStatusDataUp
def frozen (h : Hub) : Bool := flag h F.hubStatusFrozen

/-! ### Functions and MSI-X (R421) -/

def func (h : Hub) (f : Nat) : Func := tgetD h.funcs f {}
def setFunc (h : Hub) (f : Nat) (v : Func) : Hub := { h with funcs := tset h.funcs f v }

/-- Table size of function `f`: 2,048 of the PF, 64 of a VF. -/
def vectors (f : Nat) : Nat := if f = 0 then 2048 else 64

/-- Send vector `vec` of function `f`: masked sets its pending bit; a function whose MSI-X is off or whose bus
mastering is off sends nothing. -/
def sendMsix (h : Hub) (f vec : Nat) : Hub :=
  let e : MsixEntry := tgetD h.msix (f * 2048 + vec) {}
  let fn := func h f
  if !fn.msixEn || !fn.busMaster || decide (vectors f ≤ vec) then h
  else if e.masked || fn.msixMask then { h with msix := tset h.msix (f * 2048 + vec) { e with pending := true } }
  else emit h .msix f [vec, e.addr, e.data]

/-! ### Events (R33, R34) -/

/-- An event of bank `i`: its flag is set and its companion counter goes up by one, wrapping. A HUB.EVT flag with
EVT_INT_EN also sends PF vector 0 (R30). -/
def raise (h : Hub) (e : Evt) (i : Nat := 0) : Hub :=
  let h := addFld (setFld h e.flag i 1) e.cnt i 1
  if e.flag.reg = .hubEvt then (if flag h F.hubCtlEvtIntEn then sendMsix h 0 0 else h) else h

/-- `n` events of one kind: nothing where `n` is 0. -/
def raiseN (h : Hub) (e : Evt) (i n : Nat) : Hub :=
  if n = 0 then h else addFld (raise h e i) e.cnt i (n - 1)

/-- Software clears the flags written with 1; counters keep their values (R34). -/
def w1cClear (v mask written : Nat) : Nat := v - (v &&& (mask &&& written))

/-! ### Contexts: the fields that everything asks for (R355, R371) -/

def ctxState (h : Hub) (c : Nat) : Nat := fld h F.ctxStatusState c
def ctxFunc (h : Hub) (c : Nat) : Nat := fld h F.ctxFuncFunc c
/-- The contexts whose status was written: every one that is not FREE is among them. -/
def usedCtx (h : Hub) : List Nat := (h.regs.filter fun e => e.1 % 1024 == Reg.ctxStatus.num).map fun e => e.1 / 1024
/-- Killed, and since then perhaps being torn down (R358, R361). -/
def wasKilled (h : Hub) (c : Nat) : Bool := ctxState h c == 5 || (ctxState h c == 6 && fld h F.ctxStatusKillCause c != 0)
/-- ACTIVE, SUSPENDING or SUSPENDED. -/
def ctxLive (h : Hub) (c : Nat) : Bool := [2, 3, 4].contains (ctxState h c)

/-! ### The field network's messages (R470 to R475) -/

/-- The hub sends over IPv6: a segment key is set and duplicate address detection has passed (R473). -/
def fieldUp (h : Hub) : Bool := (tget h.od OD.segmentKey).isSome && h.mg.dad == 1

/-- The link-local address: modified EUI-64 of the MAC address (R473). -/
def linkLocal (h : Hub) : List Byte :=
  let m := beBytes 6 (odNum h OD.mac)
  [0xFE, 0x80, 0, 0, 0, 0, 0, 0] ++ ((m.take 1).map (· ^^^ 2)) ++ sliceB m 1 2 ++ [0xFF, 0xFE] ++ sliceB m 3 3

/-- `TAG` (R475). -/
def kmpTag (key src dst payload : List Byte) : List Byte := sliceB (Config.hmac256 key (src ++ dst ++ payload)) 0 16

/-- A payload before its tag (R474). -/
def kmpBody (typ result epoch seq index sub offset : Nat) (value : List Byte) : List Byte :=
  [1, BitVec.ofNat 8 typ, 0, BitVec.ofNat 8 result] ++ leBytes 4 epoch ++ leBytes 4 seq ++ leBytes 2 index ++ leBytes 1 sub ++ [0]
    ++ leBytes 4 offset ++ leBytes 2 value.length ++ [0, 0] ++ value

/-- Send a payload with its tag to an address; the frame is counted (OD 0x1021.02). -/
def kmpSend (h : Hub) (k : OutKind) (key : List Byte) (dst : Nat) (body : List Byte) : Hub :=
  let h := setOdNum h OD.txFrames 8 ((odNum h OD.txFrames + 1) % 2 ^ 64)
  emit h k dst [] (body ++ kmpTag key (linkLocal h) (beBytes 16 dst) body)

/-- The segment key. -/
def segKey (h : Hub) : List Byte := odBytes h OD.segmentKey 32

/-! ### Notices (R478, R480, R542, R544) -/

/-- ff02::1. -/
def allNodes : Nat := 0xFF02 * 2 ^ 112 + 1

/-- NOTIFY listeners set in OD 0x1020.09: the addresses that are not all zero, else ff02::1. -/
def notifyDests (h : Hub) : List Nat :=
  let l := ((List.range 4).map fun i => beNat (sliceB (odBytes h OD.notifyDest 64) (16 * i) 16)).filter (· != 0)
  if l.isEmpty then [allNodes] else l

/-- The 16 bytes of a notice (R478). -/
def noticeBytes (code nseq detail : Nat) : List Byte := leBytes 2 code ++ leBytes 2 0 ++ leBytes 4 nseq ++ leBytes 8 detail

/-- A NOTIFY goes out. -/
def sendNotify (h : Hub) (n : NotifyOut) : Hub :=
  kmpSend h .kmpNotify (segKey h) n.dest (kmpBody 4 0 h.mg.epoch n.seq 0 0 0 (noticeBytes n.code n.nseq n.detail))

/-- A notice reaches the mailbox ring and the field network under the next number. While duplicate address detection runs, the
NOTIFYs wait for it (`sends` 0). -/
def deliverNotice (h : Hub) (code detail : Nat) : Hub :=
  let n := h.nseq
  let h := { h with nseq := n + 1 }
  let h := if h.noteRing.length < 64 then
      let h := raise { h with noteRing := h.noteRing ++ [(code, n, detail)] } E.mbxNotice
      let h := setFld h F.mbxStatusNotes 0 h.noteRing.length
      if flag h F.mbxCfgIntEn then sendMsix h 0 (fld h F.mbxCfgVector) else h
    else raise h E.mbxNoteLost
  if (tget h.od OD.segmentKey).isNone || h.mg.dad = 2 then h
  else each (notifyDests h) h fun h d =>
    let q := h.notifySeq
    let h := { h with notifySeq := q + 1 }
    if h.mg.dad = 0 then { h with notifies := h.notifies ++ [⟨q, code, n, detail, d, 0⟩] }
    else sendNotify (if d != allNodes then { h with notifies := h.notifies ++ [⟨q, code, n, detail, d, 1⟩] } else h) ⟨q, code, n, detail, d, 1⟩

/-- Put an entry into the stem's notice queue of 1,024 (R544). -/
def queueStem (h : Hub) (code detail : Nat) (record : Option (List Byte)) : Hub :=
  if h.notices.length < 1024 then
    { h with notices := h.notices ++ [⟨code, detail, record, h.noticeLost⟩], noticeLost := 0 }
  else match record with
    | none => { h with noticeLost := h.noticeLost + 1 }
    | some _ => raise h E.faultLost

/-- A notice of the data half: at once while the control half is up, else queued (R542). -/
def notice (h : Hub) (code detail : Nat) : Hub :=
  if h.ctlDown then queueStem h code detail none else deliverNotice h code detail

/-! ### Counts and stamps (R548) -/

/-- The data-half count at an event: it has run on by an amount the model leaves free, and holds in reset and in Park (R544, R548). -/
def stamp (h : Hub) : Nat × Hub :=
  let d := fld h F.trcDcountDcount
  if h.dataReset || decide (2 ≤ h.pwr.state) then (d, h)
  else
    let (x, h) := drawFree h 32
    let t := (d + x) % 2 ^ 64
    (t, setFld h F.trcDcountDcount 0 t)

/-- The control-half count, which runs on by a free amount. -/
def stampC (h : Hub) : Nat × Hub :=
  let (x, h) := drawFree h 32
  let t := (fld h F.trcCcountCcount + x) % 2 ^ 64
  (t, setFld h F.trcCcountCcount 0 t)

/-! ### Trace (R549 to R552) -/

/-- Records are being taken. -/
def tracing (h : Hub) : Bool :=
  flag h F.trcCtlEn && h.trcLeft != some 0 && !(flag h F.trcCtlStopFull && decide (8192 ≤ h.trcN))

/-- The class of an event is selected, and its context passes the filter. -/
def traced (h : Hub) (ev : Nat) (ctx : Option Nat) : Bool :=
  bitOf (getReg h .trcMask 0) (ev / 16) &&
    (!flag h F.trcMaskCtxEn || decide (5 ≤ ev / 16) || ctx == some (fld h F.trcMaskCtx))

/-- The buffer with record `bs` behind its others; past 8,192 the oldest is overwritten. -/
def trcPush (h : Hub) (bs : List Byte) : Hub :=
  { h with trcBuf := (if 8192 ≤ h.trcBuf.length then h.trcBuf.drop 1 else h.trcBuf) ++ [bs]
           trcN := h.trcN + 1
           trcLeft := h.trcLeft.map (· - 1) }

/-- The trigger's event came: TRIGGERED is set, and TRC.TRIG.AFTER more records follow. -/
def trcFire (h : Hub) : Hub := { setFld h F.trcStatusTriggered 0 1 with trcLeft := some (fld h F.trcTrigAfter) }

/-- A record enters the buffer: past 8,192 the oldest is overwritten, or, with STOP_FULL, the record is lost. -/
def traceEnter (h : Hub) (domain source ev payload : Nat) : Hub :=
  let seq := fld h F.trcWrittenWritten
  let h := addFld h F.trcWrittenWritten 0 1
  if flag h F.trcCtlStopFull && decide (8192 ≤ h.trcN) then raise h E.trcLost
  else
    let (t, h) := if domain = 0 then stamp h else stampC h
    let start := if domain = 0 then h.dataStarts else h.ctlStarts
    trcPush h
      (leBytes 8 t ++ leBytes 4 seq ++ leBytes 1 domain ++ leBytes 1 start ++ leBytes 1 source ++ leBytes 1 ev ++ leBytes 16 payload)

/-- A trace event: `ctx` is the context it names. The trigger event is one that is recorded (DEDUCED, log entry 19). -/
def trace (h : Hub) (domain source ev : Nat) (ctx : Option Nat) (payload : Nat) : Hub :=
  if h.ctlDown || !flag h F.trcCtlEn || h.trcLeft == some 0 || !traced h ev ctx then h
  else
    let h := traceEnter h domain source ev payload
    if ev = fld h F.trcTrigEvent && ev != 0 && h.trcLeft.isNone then
      raise (trcFire h) E.trcTrigger
    else h

/-! ### The fault ring (R370, R372, R543) -/

/-- The 32 bytes of fault record number `k` (free-running count of records written) with sequence number `seq`. -/
def faultBytes (seq kind k : Nat) (write host : Bool) (ctx pasid fn detail va stmp : Nat) : List Byte :=
  leBytes 4 seq ++ leBytes 1 kind ++ leBytes 1 (b2n (k / 4096 % 2 == 0) + 2 * b2n write + 4 * b2n host) ++ leBytes 2 ctx
    ++ leBytes 4 (pasid % 2 ^ 20 + fn % 64 * 2 ^ 20) ++ leBytes 4 detail ++ leBytes 8 va ++ leBytes 8 stmp

/-- Write a record's body (bytes 4 on; byte 5 without PHASE) to the ring, or lose it where the ring is full. -/
def ringWrite (h : Hub) (body : List Byte) : Hub :=
  let seq := h.faultSeq
  let tail := fld h F.faultTailTail
  let h := { h with faultSeq := (seq + 1) % 2 ^ 32 }
  if (tail + 2 ^ 32 - fld h F.faultHeadHead) % 2 ^ 32 = 4096 then
    let h := raise h E.faultLost
    -- FAULT_LOST goes out at most once a second (R542): whether this loss falls in a new second is a free bit
    let (b, h) := drawFree h 1
    if b = 1 then deliverNotice h 0x0140 (fld h F.faultLostCountLostCnt) else h
  else
    let ph := b2n (tail / 4096 % 2 == 0)
    let rec_ := leBytes 4 seq ++ (sliceB body 0 1) ++ leBytes 1 ((body.getD 1 0).toNat / 2 * 2 + ph) ++ sliceB body 2 26
    let h := { h with faultRing := tset h.faultRing (tail % 4096) rec_ }
    let h := setFld h F.faultTailTail 0 (tail + 1)
    if flag h F.faultCfgIntEn then sendMsix h 0 (fld h F.faultCfgVector) else h

/-- A fault record of the data half: written while the control half is up, else queued on the stem (R359, R544). -/
def faultRecord (h : Hub) (kind : Nat) (write host : Bool) (c detail va : Nat) : Hub :=
  let (t, h) := stamp h
  let body := (faultBytes 0 kind 0 write host c (fld h F.ctxPasidPasid c) (ctxFunc h c) detail va t).drop 4
  if h.ctlDown then queueStem h 0 0 (some body) else ringWrite h body

end Sys2Proof.Machine
end

