-- ==== Sys2Proof/Machine/Home.lean ====
section
/-!
DEFINITION. Machine/Home.lean: what a memory port does as the home of a line: the interleave (R159), the sectors it
stores with their poison (R168 to R170), shared regions (R172 to R175), FAILED ports (R183), and the reads and writes
that reach it.
-/
namespace Sys2Proof.Machine

/-- Live ports N. -/
def liveN (h : Hub) : Nat := h.live.length

/-- The interleaved space in bytes, N × (C − Z) (R161). -/
def interleaved (h : Hub) : Nat := liveN h * (h.portCap - h.reserve)

/-- The usable capacity: the interleaved space less the hub's own 64 MiB (R161). -/
def usable (h : Hub) : Nat := interleaved h - 64 * 2 ^ 20

/-- The port that owns `dpa` (R159). -/
def portOf (h : Hub) (dpa : Nat) : Nat :=
  let n := liveN h
  let g := dpa / 4096
  let q := g / n
  let r := g % n
  let x := (q ^^^ (q / 2 ^ 6) ^^^ (q / 2 ^ 12) ^^^ (q / 2 ^ 18)) % 64
  h.live.getD ((r + x) % n) 0

/-- The port-local address of `dpa` (R159). -/
def localAddr (h : Hub) (dpa : Nat) : Nat := dpa / 4096 / liveN h * 4096 + dpa % 4096

/-- Port `p` has FAILED (R183). -/
def portFailed (h : Hub) (p : Nat) : Bool := fld h F.memStatusState p == 6

/-- The shared region that holds `dpa` and is in use, with its number (R172). -/
def regionAt (h : Hub) (dpa : Nat) : Option (Nat × Region) :=
  h.regions.find? fun e => e.2.state != 0 && decide (e.2.base ≤ dpa) && decide (dpa < e.2.base + e.2.size)

/-- Writes are refused: the region is ACTIVE or FENCED (R173), or bound: then only its loader writes it (R451). -/
def sealed (h : Hub) (dpa : Nat) : Bool :=
  match regionAt h dpa with
  | some (_, r) => r.state == 2 || r.state == 3 || r.bound
  | none => false

/-- The bound region in ACTIVE or FENCED that holds `dpa` (R453). -/
def boundAt (h : Hub) (dpa : Nat) : Option Nat :=
  match regionAt h dpa with
  | some (i, r) => if r.bound && (r.state == 2 || r.state == 3) then some i else none
  | none => none

def fenced (h : Hub) (dpa : Nat) : Bool :=
  match regionAt h dpa with
  | some (_, r) => r.state == 3
  | none => false

/-- The sector at DPA 32·`sec`, as its home returns it: bytes and poison. A FAILED port and a FENCED region return
poison without an HBM access; a poisoned sector's bytes read as zeros (R168, R170, R424). -/
def homeSector (h : Hub) (sec : Nat) : List Byte × Bool :=
  if portFailed h (portOf h (32 * sec)) || fenced h (32 * sec) || (tget h.poison sec).isSome then
    (List.replicate 32 0, true)
  else (h.hbm.readN (32 * sec) 32, false)

/-- Sector numbers that `len` bytes from `a` on touch. -/
def sectorsOf (a len : Nat) : List Nat :=
  if len = 0 then [] else (List.range ((a + len - 1) / 32 - a / 32 + 1)).map fun i => a / 32 + i

/-- The memory-side cache is transparent (R162): whether a lookup hits, and what it moves, only shows in counters, and
is left free. -/
def cacheLookup (h : Hub) (p : Nat) : Hub :=
  let (b, h) := drawFree h 2
  let miss := b % 2
  addFld (addFld (addFld (addFld h F.memCacheHitHit p (1 - miss)) F.memCacheMissMiss p miss) F.memRdBytesRd p (64 * miss)) F.memActAct p
    (b / 2 * miss)

/-- A read at the homes of `len` bytes from `dpa` on: the bytes, the poisoned sectors (as numbers), and the hub with
POISON_RD (once a read) and FENCE_HIT at the port of the first poisoned sector (R170, R175). -/
def homeRead (h : Hub) (dpa len : Nat) : List Byte × List Nat × Hub :=
  let secs := sectorsOf dpa len
  let data := (secs.flatMap fun s => (homeSector h s).1)
  let bad := secs.filter fun s => (homeSector h s).2
  let h := cacheLookup h (portOf h dpa)
  let h := match bad with
    | [] => h
    | s :: _ =>
      let h := raise h E.memPoisonRd (portOf h (32 * s))
      if fenced h (32 * s) then raise h E.memFenceHit (portOf h (32 * s)) else h
  (sliceB data (dpa % 32) len, bad, h)

/-- How a write ends at its home: performed, refused by a sealed region (R173), or dropped by a FAILED port (R183);
the last two are acknowledged with poison. -/
inductive WriteAck where
  | done | readOnly | failed
deriving DecidableEq, Repr

/-- Mark or clear the poison of a sector. -/
def setPoison (h : Hub) (sec : Nat) (bad : Bool) : Hub :=
  { h with poison := if bad then tset h.poison sec () else tdel h.poison sec }

/-- A write of `bs` at `dpa`, inside one sector: merged at the home, single-copy atomic (R217). A whole-sector write
clears poison, a partial one leaves it (R168); `bad` stores poison. -/
def homeWrite (h : Hub) (dpa : Nat) (bs : List Byte) (bad : Bool) : WriteAck × Hub :=
  let p := portOf h dpa
  if portFailed h p then (.failed, h)
  else if sealed h dpa then (.readOnly, raise h E.memRoWrite p)
  else
    let (b, h) := drawFree h 1
    let h := addFld h F.memWrBytesWr p (64 * b)
    let h := { h with hbm := h.hbm.writeN dpa bs }
    let whole := decide (dpa % 32 = 0) && decide (bs.length = 32)
    (.done, if bad then setPoison h (dpa / 32) true else if whole then setPoison h (dpa / 32) false else h)

/-- A write of `bs` from `dpa` on, sector by sector in address order: the worst acknowledgement and the hub. `fuel` is
at least the sectors touched. -/
def homeWriteAll (fuel : Nat) (h : Hub) (dpa : Nat) (bs : List Byte) (bad : Bool) : WriteAck × Hub :=
  match fuel with
  | 0 => (.done, h)
  | n + 1 =>
    if bs.isEmpty then (.done, h)
    else
      let k := 32 - dpa % 32
      let (a, h) := homeWrite h dpa (bs.take k) bad
      let (b, h) := homeWriteAll n h (dpa + k) (bs.drop k) bad
      (if a = .done then b else a, h)

/-- Fence a region (R175): record the DPA, raise FENCED. -/
def fenceRegion (h : Hub) (i dpa p : Nat) : Hub :=
  let r : Region := tgetD h.regions i {}
  let h := { h with regions := tset h.regions i { r with state := 3, fence := dpa } }
  let h := raise h E.memFenceHit p
  notice h 0x0110 (i + dpa * 2 ^ 8)

/-- An uncorrectable sector found on an HBM read (R169, R175): recorded; repaired from a usable mirror copy; fenced; or
stored as poison. `mirrorBad`: the mirror copy is also uncorrectable. -/
def hbmUe (h : Hub) (dpa : Nat) (mirrorBad : Bool) : Hub :=
  let p := portOf h dpa
  let h := setReg h .memUeAddr p (dpa / 32 * 32 + 2 ^ 40)
  let h := raise h E.memUe p
  let h := trace h 0 p 0x63 none (p + dpa / 32 * 32 * 2 ^ 64)
  match regionAt h dpa with
  | some (i, r) =>
    if r.state = 2 then
      if r.mirror && !r.lost && !mirrorBad then raise h E.memMirrorFix p
      else fenceRegion (setPoison h (dpa / 32) true) i (dpa / 32 * 32) p
    else setPoison h (dpa / 32) true
  | none => setPoison h (dpa / 32) true

/-- What an HBM or cache access met (R164, R169). -/
inductive MemErr where
  | none | ce | ue (mirrorBad : Bool) | cacheCe | cacheUeClean | cacheUeDirty
deriving DecidableEq, Repr

/-- The home handles what the access to `dpa` met. -/
def memError (h : Hub) (dpa : Nat) (e : MemErr) : Hub :=
  let p := portOf h dpa
  match e with
  | .none => h
  | .ce => raise h E.memCe p
  | .ue mb => hbmUe h dpa mb
  | .cacheCe => raise h E.memCacheCe p
  | .cacheUeClean => raise h E.memCacheUe p
  | .cacheUeDirty => setPoison (raise h E.memCacheUe p) (dpa / 32) true

/-- What an access met, by number: 1 a corrected error, 2 an uncorrectable one, 3 to 5 the cache's. -/
def memErrOf (n : Nat) : MemErr :=
  match n with
  | 1 => .ce
  | 2 => .ue false
  | 3 => .cacheCe
  | 4 => .cacheUeClean
  | 5 => .cacheUeDirty
  | 6 => .ue true
  | _ => .none

/-- A port becomes FAILED (R183): mirror copies it held are lost (R175); the notice PORT_FAILED. -/
def failPort (h : Hub) (p : Nat) : Hub :=
  let h := setFld h F.memStatusState p 6
  let h := raise h E.memFailed p
  let h := { h with regions := h.regions.map fun e =>
      if e.2.slices.any fun s => s.2.1 == p then (e.1, { e.2 with lost := true }) else e }
  notice h 0x0111 p

/-- The partner port whose reserve holds the mirror of port `p` (R174); none where its stack has no live port. -/
def partnerOf (h : Hub) (p : Nat) : Option Nat :=
  let q := p ^^^ 32
  if h.live.contains q then some q else h.live.find? fun x => x / 8 == q / 8

end Sys2Proof.Machine
end

