-- ==== Sys2Proof/Machine/LinkCore.lean ====
section
/-!
DEFINITION. Machine/LinkCore.lean: the cell credits and the hub's queue of each spoke and UCIe port (R268 to R272, R284,
R324). Links 0 to 31 are the sites, 32 and 33 the ports; credit classes 0 to 5 are REQ.0, REQ.1, REQ.2, RSP.0, SNP.0, DAT.0.
-/
namespace Sys2Proof.Machine

def link (h : Hub) (s : Nat) : Link := tgetD h.links s {}
def setLink (h : Hub) (s : Nat) (l : Link) : Hub := { h with links := tset h.links s l }

/-- The link carries cells: UP. -/
def linkUp (h : Hub) (s : Nat) : Bool :=
  if s < 32 then fld h F.spkStatusState s == 3 else fld h F.uciStatusState (s - 32) == 2

/-- UP or in a stall (R304). -/
def linkAlive (h : Hub) (s : Nat) : Bool :=
  linkUp h s || (if s < 32 then fld h F.spkStatusState s == 4 else fld h F.uciStatusState (s - 32) == 3)

/-- Cells of a DAT message of `n` sectors (R270). -/
def datLen (n : Nat) : Nat := ceilDiv (80 + 272 * n) 120

def countTx (h : Hub) (s n : Nat) : Hub := if s < 32 then addFld h F.spkCellsTxTx s n else addFld h F.uciCellsTxTx (s - 32) n
def countRx (h : Hub) (s n : Nat) : Hub := if s < 32 then addFld h F.spkCellsRxRx s n else addFld h F.uciCellsRxRx (s - 32) n

/-- Send the messages of the hub's queue that have credits, each class in order (R272). `held` are the classes whose
head waits. -/
def drainQ (s : Nat) : List (Nat × Nat × Output) → List Nat → Hub → Hub
  | [], _, h => h
  | (c, n, m) :: r, held, h =>
    let l := link h s
    if held.contains c || l.guestCr.getD c 0 < n then
      drainQ s r (c :: held) (setLink h s { l with outQ := l.outQ ++ [(c, n, m)] })
    else
      let h := setLink h s { l with guestCr := l.guestCr.set c (l.guestCr.getD c 0 - n) }
      drainQ s r held (countTx { h with out := m :: h.out } s n)

/-- Send what the queue of link `s` may send; in a stall everything waits (R284, R331). -/
def drainLink (h : Hub) (s : Nat) : Hub :=
  if !linkUp h s then h
  else
    let q := (link h s).outQ
    drainQ s q [] (setLink h s { link h s with outQ := [] })

/-- A message to the guest on link `s`: class, cells, and what it says; dropped where the link carries nothing (R286). -/
def toGuest (h : Hub) (s c n : Nat) (k : OutKind) (dst : Nat) (args : List Nat) (data : List Byte := []) : Hub :=
  if !linkAlive h s then h
  else
    let l := link h s
    drainLink (setLink h s { l with outQ := l.outQ ++ [(c, n, ⟨k, dst, args, data⟩)] }) s

/-- Link of a guest agent (R187), or none for a house agent. -/
def agentLink (a : Nat) : Option Nat := if a < 128 then some (a / 4) else if a < 136 then some (32 + (a - 128) / 4) else none

/-- A message to a caching agent, on its guest's link or inside the hub. -/
def toAgent (h : Hub) (c n : Nat) (k : OutKind) (a : Nat) (args : List Nat) (data : List Byte := []) : Hub :=
  match agentLink a with
  | some s => toGuest h s c n k a args data
  | none => emit h k a args data

/-- Link of a guest station number (R39). -/
def stnLink (stn : Nat) : Nat := if stn < 0x900 then (stn - 0x100) / 64 else 32 + (stn - 0x900) / 64

/-- A message to a station: a guest's on its link, a house station's inside the hub. -/
def toStation (h : Hub) (c n : Nat) (k : OutKind) (stn : Nat) (args : List Nat) (data : List Byte := []) : Hub :=
  if stn < 0x100 then emit h k stn args data else toGuest h (stnLink stn) c n k stn args data

/-- Cells arrive from the guest on link `s`: none where they exceed its credits (R272); else they are taken, and the
cells freed are owed back. -/
def takeCells (h : Hub) (s c n : Nat) : Option Hub :=
  let l := link h s
  if l.hubCr.getD c 0 < n then none
  else some (countRx (setLink h s { l with hubCr := l.hubCr.set c (l.hubCr.getD c 0 - n)
                                           owed := l.owed.set c (l.owed.getD c 0 + n) }) s n)

end Sys2Proof.Machine
end

