-- ==== Sys2Proof/Machine/CohCore.lean ====
section
/-!
DEFINITION. Machine/CohCore.lean: the directory and the transactions at the homes (R187 to R209).
-/
namespace Sys2Proof.Machine

/-- Start a consequence. -/
def later (h : Hub) (t : Todo) : Hub := { h with todo := h.todo ++ [t] }

/-! ### Agents -/

/-- The state of agent `a`: 0 FREE, 1 LIVE, 2 SUSPECT, 3 SWEEPING (R189). -/
def agentState (h : Hub) (a : Nat) : Nat := tgetD h.agents a 0
def setAgent (h : Hub) (a st : Nat) : Hub := { h with agents := tset h.agents a st }

/-- The house agents (R187). -/
def houseAgents : List Nat := (List.range 16).map (· + 136)

/-- The anchor of the guest that agent `a` belongs to. -/
def agentAnchor (h : Hub) (a : Nat) : Option Nat :=
  (h.guests.find? fun g => g.2.agentIds.contains a).map (·.1)

/-- The station that house agent `a` serves. -/
def agentStation (a : Nat) : Option Nat :=
  if decide (136 ≤ a) && decide (a < 144) then some (0x10 + (a - 136))
  else if decide (144 ≤ a) && decide (a < 148) then some (0x20 + (a - 144))
  else if decide (148 ≤ a) && decide (a < 150) then some (0x30 + (a - 148))
  else none

/-- Lease slot state of a guest's slot: 0 FREE, 1 ACTIVE, 2 ENDING, 3 SCRUBBING (R318). -/
def leaseState (h : Hub) (anchor slot : Nat) : Nat := fld h F.siteLeaseState (anchor * 16 + slot)
def leaseCtx (h : Hub) (anchor slot : Nat) : Nat := fld h F.siteLeaseCtx (anchor * 16 + slot)

/-- The guest leases context `c`: the slot that is not FREE. -/
def leaseOf (h : Hub) (anchor c : Nat) : Option Nat :=
  (List.range 16).find? fun s => leaseState h anchor s != 0 && leaseCtx h anchor s == c

/-- The coherence group of a context (R188): the agents of every guest that leases it, and the house agents. -/
def group (h : Hub) (c : Nat) : List Nat :=
  (h.guests.flatMap fun g => if (leaseOf h g.1 c).isSome then g.2.agentIds else []) ++ houseAgents

/-! ### Entries -/

/-- Set index of a line at its home (R190). -/
def dirSet (h : Hub) (line : Nat) : Nat :=
  let a := localAddr h (64 * line)
  bitsOf a 17 6 ^^^ bitsOf a 29 18

/-- Key of way `w` in the set of `line`. -/
def dirKey (h : Hub) (line w : Nat) : Nat := portOf h (64 * line) * 65536 + dirSet h line * 16 + w

/-- The valid entry of a line with its key. -/
def dirFind (h : Hub) (line : Nat) : Option (Nat × DirEntry) := h.dir.find? fun e => e.2.line == line

def setDir (h : Hub) (k : Nat) (e : DirEntry) : Hub := { h with dir := tset h.dir k e }
def freeDir (h : Hub) (line : Nat) : Hub := { h with dir := dropIf h.dir fun e => e.2.line == line }

/-- Agents an entry lists. -/
def DirEntry.listed (e : DirEntry) : List Nat := e.ptr.filterMap id

/-- The holders to snoop: the listed ones, or the group where BCAST is 1 (R199). -/
def holders (h : Hub) (e : DirEntry) : List Nat := if e.bcast then group h e.ctx else e.listed

/-- The four pointers with agent `a` in the lowest free one. -/
def ptrAdd (p : List (Option Nat)) (a : Nat) : List (Option Nat) :=
  match p with
  | [] => []
  | none :: r => some a :: r
  | x :: r => x :: ptrAdd r a

/-- An entry in X owned by `a`. -/
def ownedBy (line a ctx vline : Nat) : DirEntry := ⟨line, 2, false, [some a, none, none, none], 0, ctx, vline⟩

/-- Add a sharer (R199): the fifth changes the entry to broadcast form. -/
def addSharer (e : DirEntry) (a : Nat) : DirEntry :=
  if e.bcast then { e with cnt := e.cnt + 1 }
  else if e.listed.length < 4 then { e with ptr := ptrAdd e.ptr a }
  else { e with bcast := true, ptr := [none, none, none, none], cnt := 5 }

/-- Remove a holder; the entry is freed when none is left (R199, EVICT_CLEAN). -/
def dropHolder (h : Hub) (k : Nat) (e : DirEntry) (a : Nat) : Hub :=
  if e.bcast then
    if e.cnt ≤ 1 then { h with dir := tdel h.dir k } else setDir h k { e with cnt := e.cnt - 1 }
  else
    let p := e.ptr.map fun x => if x == some a then none else x
    if (p.filterMap id).isEmpty then { h with dir := tdel h.dir k } else setDir h k { e with ptr := p }

/-! ### Messages -/

/-- One snoop to one agent (R195); kind 1 SNP_INV, 2 SNP_SHARE, 3 SNP_ALL. -/
def sendSnoop (h : Hub) (kind line stxn ctx vline a : Nat) : Hub :=
  let p := portOf h (64 * line)
  let k := if kind = 1 then OutKind.snpInv else if kind = 2 then .snpShare else .snpAll
  addFld (toAgent h 4 1 k a [p, stxn % 1024, ctx, vline]) F.cohSnoopsSnoops p 1

/-- CMP to an agent: grant 0 I, 1 S, 2 E, with or without the line's data (R196, R197). -/
def sendCmp (h : Hub) (r : CohReq) (grant : Nat) (withData : Bool) : Hub :=
  let p := portOf h (64 * r.line)
  let h := if r.agent = 0xFF then h else addFld h F.cohReqsReqs p 1
  if r.agent = 0xFF then h
  else if withData then
    let (bs, bad, h) := homeRead h (64 * r.line) 64
    toAgent h 5 (datLen 2) .cmp r.agent ([r.txn, p, grant, 1] ++ bad) bs
  else toAgent h 3 1 .cmp r.agent [r.txn, p, grant, 0]

/-- NACK_POISON with a reason (R196): 1 agent suspect, 2 port FAILED, 3 read-only region, 4 protocol violation. -/
def sendNack (h : Hub) (agent txn line reason : Nat) : Hub :=
  let p := portOf h (64 * line)
  raise (toAgent h 3 1 .nackPoison agent [txn, p, reason]) E.cohNack p

/-- A breach of R203: PROTO, and a firewall violation of kind 10 of the guest. -/
def breach (h : Hub) (agent ctx line vline : Nat) : Hub :=
  let h := raise h E.cohProto (portOf h (64 * line))
  match agentAnchor h agent with
  | some g => later h (.violation g 10 ctx agent true (64 * vline) none none)
  | none => h

/-! ### The course of a transaction -/

/-- The home acknowledges a write: `ok` when it took effect. A refused or dropped one is acknowledged with poison, which
marks the operation (R173, R183), halts the queue whose record it was (R53), or shows in the guest's STR.CMP. -/
def ackWrite (h : Hub) (goal : AckTo) (ok : Bool) : Hub :=
  match goal with
  | .nobody => h
  | .op i => { h with ops := mapIf h.ops (fun o => o.opid == i) fun o =>
      { o with acks := o.acks - 1, bad := if ok then o.bad else 1, badDetail := if ok then o.badDetail else o.station } }
  | .record c s n =>
    let h := match n with
      | some n => { h with cmds := mapIf h.cmds (fun x => x.ctx == c && x.slot == s && x.count == n) fun x =>
          { x with recAck := if ok then 1 else 2 } }
      | none => h
    if ok then h else later h (.recBad c s)
  | .str stn txn => { h with strs := mapIf h.strs (fun r => r.stn == stn && r.txn == txn && r.write) fun r =>
      { r with left := r.left - 1, bad := r.bad || !ok } }
  | .msg k => { h with podIn := mapIf h.podIn (fun m => m.key == k) fun m =>
      { m with left := m.left - 1, status := if ok then m.status else 6 } }

/-- A write by `req` is performed at its home. -/
def performWrite (h : Hub) (r : CohReq) : Hub :=
  let (a, h) := if r.agent = 0xFF then homeWriteAll 3 h (64 * r.line + r.off) r.data r.bad
    else
      let (x, h) := if r.smask % 2 = 1 then homeWrite h (64 * r.line) (sliceB r.data 0 32) r.bad else (.done, h)
      let (y, h) := if r.smask / 2 % 2 = 1 then homeWrite h (64 * r.line + 32) (sliceB r.data 32 32) r.bad else (.done, h)
      (if x = .done then y else x, h)
  ackWrite h r.tag (a == .done)

/-- A way of the line's set that is in I, the lowest (R192). -/
def freeWay (h : Hub) (line : Nat) : Option Nat :=
  (List.range 16).find? fun w => (tget h.dir (dirKey h line w)).isNone

/-- A line has a transaction in progress (BUSY, R190, R198). -/
def lineBusy (h : Hub) (line : Nat) : Bool := h.cohTxns.any fun t => t.req.line == line

/-- Put a request at the front of the waiting ones. -/
def requeue (h : Hub) (r : CohReq) : Hub := { h with cohQ := r :: h.cohQ }

/-- The entry and the completion once every snoop answer is in (R199). -/
def finishTxn (h : Hub) (t : CohTxn) : Hub :=
  let r := t.req
  let h := { h with cohTxns := h.cohTxns.filter fun x => x.stxn != t.stxn }
  let await (h : Hub) (g : Nat) : Hub := { h with cohTxns := h.cohTxns ++ [{ t with waits := [], ack := some (r.agent, g) }] }
  let e := dirFind h r.line
  if t.plain then
    if t.drop.isEmpty then freeDir h r.line
    else each t.drop h fun h a => match dirFind h r.line with
      | some (k, d) => if d.listed.contains a then dropHolder h k d a else h
      | none => h
  else if r.op = 5 then sendCmp (performWrite (freeDir h r.line) r) r 0 false
  else if r.op = 3 then
    let h := match e with
      | some (k, d) => if t.share then (if t.held then setDir h k { d with st := 1 } else freeDir h r.line) else h
      | none => h
    sendCmp h r 0 true
  else
    match e with
    | some (k, d) =>
      if r.op = 1 then
        let d := if t.share then { d with st := 1, ptr := if t.held then d.ptr else [none, none, none, none] } else d
        await (sendCmp (setDir h k (addSharer d r.agent)) r 1 true) 1
      else await (sendCmp (setDir h k (ownedBy r.line r.agent r.ctx r.vline)) r 2 (!t.dataless)) 2
    | none =>
      match freeWay h r.line with
      | some w =>
        let mine := ownedBy r.line r.agent r.ctx r.vline
        if r.op = 1 && t.share then await (sendCmp (setDir h (dirKey h r.line w) { mine with st := 1 }) r 1 true) 1
        else await (sendCmp (setDir h (dirKey h r.line w) mine) r 2 true) 2
      | none => requeue h r

/-- The number of a new transaction: home port * 1024 + the lowest number free there (DESIGN CHOICE, log entry 31: which free
number a home takes). -/
def freeStxn (h : Hub) (line : Nat) : Nat :=
  let p := portOf h (64 * line)
  p * 1024 + ((List.range 1024).find? fun k => !(h.cohTxns.any fun t => t.stxn == p * 1024 + k)).getD 0

/-- The home of a line has 512 transactions in progress: further requests wait (R198). -/
def portFull (h : Hub) (line : Nat) : Bool :=
  let p := portOf h (64 * line)
  decide (512 ≤ (h.cohTxns.filter fun t => t.stxn / 1024 == p).length)

/-- Start a transaction: send its snoops to the live agents among `who`, or finish at once. -/
def startTxn (h : Hub) (t : CohTxn) (kind ctx vline : Nat) (who : List Nat) : Hub :=
  let who := who.filter fun a => agentState h a == 1
  let t := { t with stxn := freeStxn h t.req.line, waits := who }
  if who.isEmpty then finishTxn h t
  else each who { h with cohTxns := h.cohTxns ++ [t] } fun h a => sendSnoop h kind t.req.line t.stxn ctx vline a

/-- Invalidate every holder of an entry, the entry then being free (R191, R192, R209). -/
def invalidateEntry (h : Hub) (e : DirEntry) : Hub :=
  startTxn h { stxn := 0, req := { op := 0, agent := 0xFF, txn := 0, ctx := e.ctx, vline := e.vline, line := e.line }, waits := [], plain := true }
    (if e.bcast then 3 else 1) e.ctx e.vline (holders h e)

/-- Back-invalidate a victim of the line's set that is not BUSY; which one pseudo-LRU picks is left free (R192). -/
def evictWay (h : Hub) (line : Nat) : Hub :=
  let ways := (List.range 16).filterMap fun w => tget h.dir (dirKey h line w)
  let cand := ways.filter fun e => !lineBusy h e.line
  match cand[Config.victim h.freeN % cand.length]? with
  | none => h
  | some e => invalidateEntry (raise { h with freeN := h.freeN + 1 } E.cohBackInval (portOf h (64 * line))) e

/-- Serve a request whose line is not BUSY (R199). -/
def serveReq (h : Hub) (r : CohReq) : Hub :=
  let p := portOf h (64 * r.line)
  let dpa := 64 * r.line
  let tracked := r.agent != 0xFF
  if tracked && agentState h r.agent != 1 then sendNack h r.agent r.txn r.line 1
  else if tracked && (boundAt h dpa).isSome then
    sendNack (if r.op != 1 && r.op != 3 then raise h E.memRoWrite p else h) r.agent r.txn r.line 3
  else if (portFailed h p || fenced h dpa) && (r.op == 1 || r.op == 3) then sendCmp h r 0 true
  else if tracked && portFailed h p then sendNack h r.agent r.txn r.line 2
  else if tracked && sealed h dpa && r.op != 1 && r.op != 3 then
    sendNack (raise h E.memRoWrite p) r.agent r.txn r.line 3
  else
    let e := dirFind h r.line
    let t : CohTxn := { stxn := 0, req := r, waits := [] }
    match e with
    | some (_, d) =>
      if tracked && (d.ctx != r.ctx || d.vline != r.vline) then invalidateEntry (requeue h r) d
      else if tracked && r.op != 4 && d.listed.contains r.agent then
        breach (sendNack h r.agent r.txn r.line 4) r.agent r.ctx r.line r.vline
      else
        let hs := (holders h d).filter (· != r.agent)
        let inv := if d.bcast then 3 else 1
        if r.op = 1 then
          if d.st = 2 then startTxn h { t with share := true } 2 d.ctx d.vline hs else finishTxn h t
        else if r.op = 3 then
          if d.st = 2 then startTxn h { t with share := true } 2 d.ctx d.vline hs else finishTxn h t
        else if r.op = 4 && d.st == 1 && !d.bcast && d.listed.contains r.agent then
          startTxn h { t with dataless := true } 1 d.ctx d.vline hs
        else startTxn h t inv d.ctx d.vline hs
    | none =>
      if r.op = 3 || r.op = 5 then startTxn h t 1 r.ctx r.vline []
      else match freeWay h r.line with
        | some _ => startTxn h t 1 r.ctx r.vline []
        | none => evictWay (requeue h r) r.line

/-- A write that arrived behind contributions to its line waits until the adder has applied them (R121). -/
def behindRed (h : Hub) (r : CohReq) : Bool := r.op == 5 && h.redQ.any fun i => i.dpa / 64 == r.line && decide (i.seq < r.seq)

/-- A contribution reaches its home. -/
def redArrive (h : Hub) (i : RedItem) : Hub := { h with redQ := h.redQ ++ [{ i with seq := h.redN }], redN := h.redN + 1 }

/-- A request can go on: it needs no new entry, or a way is free, or a way can be freed and none is being freed. -/
def canServe (h : Hub) (r : CohReq) : Bool :=
  !lineBusy h r.line && !behindRed h r && !portFull h r.line && ((freeWay h r.line).isSome || (dirFind h r.line).isSome || r.op == 3 || r.op == 5
    || (!(h.cohTxns.any fun t => t.plain && dirKey h t.req.line 0 == dirKey h r.line 0)
        && (List.range 16).any fun w => match tget h.dir (dirKey h r.line w) with
          | some e => !lineBusy h e.line
          | none => true))

/-- The first waiting request that can go on; those of one line keep their order (R198). -/
def nextReq (h : Hub) : List CohReq → List Nat → Option CohReq
  | [], _ => none
  | r :: q, held => if !held.contains r.line && canServe h r then some r else nextReq h q (r.line :: held)

/-- Serve the waiting requests whose lines are no longer BUSY, in arrival order (R198). -/
def pump : Nat → Hub → Hub
  | 0, h => h
  | n + 1, h =>
    match nextReq h h.cohQ [] with
    | none => h
    | some r => pump n (serveReq { h with cohQ := h.cohQ.erase r } r)

/-- Requests served after one event: a bound on how many can be waiting. -/
def pumpAll (h : Hub) : Hub := pump (2 * h.cohQ.length + 2) h

/-- A request reaches its home (R198): queued while its line is BUSY. -/
def cohArrive (h : Hub) (r : CohReq) : Hub :=
  let r := { r with seq := h.redN }
  let h := { h with snpOut := tdel h.snpOut (r.agent * 2 ^ 33 + r.line) }
  if r.agent != 0xFF && (h.cohQ.any (fun x => x.agent == r.agent && x.line == r.line)
      || h.cohTxns.any (fun t => t.req.agent == r.agent && t.req.line == r.line)) then
    breach (sendNack h r.agent r.txn r.line 4) r.agent r.ctx r.line r.vline
  else if lineBusy h r.line || behindRed h r || portFull h r.line || h.cohQ.any (·.line == r.line) then pumpAll { h with cohQ := h.cohQ ++ [r] }
  else pumpAll (serveReq h r)

/-- Put transaction `t` back as `t'`; finish it when nothing is due any more. -/
def settleTxn (h : Hub) (t : CohTxn) : Hub :=
  if t.waits.isEmpty && t.evicts.isEmpty && t.ack.isNone then pumpAll (finishTxn h t)
  else { h with cohTxns := mapIf h.cohTxns (fun x => x.stxn == t.stxn) fun _ => t }

/-- Write a line's two sectors as poisoned (R205). -/
def poisonLine (h : Hub) (line : Nat) : Hub :=
  raise (setPoison (setPoison h (2 * line) true) (2 * line + 1) true) E.cohPoisonWr (portOf h (64 * line))

/-- Dirty data from an agent is written to the home (R199). -/
def writeBack (h : Hub) (line : Nat) (data : List Byte) (bad : Nat) : Hub :=
  let h := (homeWrite h (64 * line) (sliceB data 0 32) (bad % 2 == 1)).2
  (homeWrite h (64 * line + 32) (sliceB data 32 32) (bad / 2 % 2 == 1)).2

/-- The home settles what it awaits of agent `a` in one transaction (R205, R206): an owner's line, or one granted E, is
poisoned; the agent leaves the entry; the transaction goes on. -/
def settleAgentTxn (h : Hub) (a : Nat) (t : CohTxn) : Hub :=
  let own := match dirFind h t.req.line with
    | some (_, d) => d.st == 2 && d.listed.contains a
    | none => false
  let h := if own then poisonLine h t.req.line else h
  let h := match dirFind h t.req.line with
    | some (k, d) => if d.listed.contains a then dropHolder h k d a else h
    | none => h
  let ackHis := match t.ack with
    | some (b, _) => b == a
    | none => false
  if ackHis then pumpAll { h with cohTxns := h.cohTxns.filter fun x => x.stxn != t.stxn }
  else settleTxn h { t with waits := t.waits.filter (· != a), evicts := t.evicts.filter (· != a) }

/-- The walk of every home over its slice for agent `a` (R206): lines it owns are poisoned and freed, its pointers
removed; broadcast counts stay. -/
def sweepAgent (h : Hub) (a : Nat) : Hub :=
  each h.dir { h with agentLines := dropIf h.agentLines (fun e => e.1 / 2 ^ 33 == a), snpOut := dropIf h.snpOut fun e => e.1 / 2 ^ 33 == a } fun h e =>
    if e.2.listed.contains a then
      let h := if e.2.st = 2 then poisonLine h e.2.line else h
      dropHolder h e.1 e.2 a
    else h

/-- Agent `a` becomes SUSPECT and, at once, SWEEPING (R189, R206). -/
def suspectAgent (h : Hub) (a : Nat) : Hub :=
  if agentState h a != 1 then h
  else
    let h := setAgent h a 3
    let mine := h.cohTxns.filter fun t => t.waits.contains a || t.evicts.contains a || (match t.ack with
      | some (b, _) => b == a
      | none => false)
    let h := each mine h fun h t => settleAgentTxn h a t
    let h := { h with cohQ := dropIf h.cohQ fun r => r.agent == a
                      cohPend := dropIf h.cohPend fun r => r.agent == a }
    sweepAgent { h with sweeps := h.sweeps ++ [(a + 1, 0, [])] } a

/-- An entry's lines leave the agents of a lease that ends (R209): they alone are snooped, and leave the entry. -/
def dropAgents (h : Hub) (e : DirEntry) (only : List Nat) : Hub :=
  let who := (holders h e).filter only.contains
  startTxn h { stxn := 0, req := { op := 0, agent := 0xFF, txn := 0, ctx := e.ctx, vline := e.vline, line := e.line }, waits := [],
               plain := true, drop := only } (if e.bcast then 3 else 1) e.ctx e.vline who

/-- The entries that a sweep of context `c` has still to invalidate: all, or those with a holder in `only`. -/
def sweepLeft (h : Hub) (c : Nat) (only : List Nat) : List (Nat × DirEntry) :=
  h.dir.filter fun e => e.2.ctx == c && (only.isEmpty || e.2.listed.any fun a => only.contains a)

/-- One walk of a sweep over entries whose lines are not BUSY. -/
def sweepWalk (h : Hub) (es : List (Nat × DirEntry)) (only : List Nat) : Hub :=
  each es h fun h e =>
    if lineBusy h e.2.line then h else if only.isEmpty then invalidateEntry h e.2 else dropAgents h e.2 only

/-- Sweep a context's lines at every home (R209): all its entries, or only those that list an agent in `only`. -/
def sweepContext (h : Hub) (c : Nat) (only : List Nat) : Hub :=
  let bc := h.dir.filter fun e => e.2.ctx == c && e.2.bcast && !only.isEmpty
  sweepWalk { h with sweeps := h.sweeps ++ [(0, c, only)] } (sweepLeft h c only ++ bc) only

/-- STR.CMP of a streaming request: its number, the station n, status 0 OK, 1 poisoned, 2 refused (R276). -/
def strCmp (h : Hub) (stn txn status : Nat) : Hub := toStation h 3 1 .strCmp stn [txn, stn % 64, status]

/-- Requests of guests under context `c` that are held for a translation are refused (R305, R359): STR.CMP status 2, NACK_POISON
reason 4 (DEDUCED, log entry 32). -/
def refuseHeld (h : Hub) (c : Nat) : Hub :=
  let strs := h.strs.filter fun r => r.ctx == c && !r.sent
  let cohs := h.cohPend.filter fun r => r.ctx == c
  let h := { h with strs := dropIf h.strs fun r => r.ctx == c && !r.sent
                    cohPend := dropIf h.cohPend fun r => r.ctx == c }
  let h := each strs h fun h r => strCmp h r.stn r.txn 2
  each cohs h fun h r => toAgent h 3 1 .nackPoison r.agent [r.txn, 0, 4]

/-- No owner holds the line of `dpa`: a read at the home needs no snoop (R208). -/
def homeReady (h : Hub) (dpa : Nat) : Bool :=
  !lineBusy h (dpa / 64) && match dirFind h (dpa / 64) with
    | some (_, d) => d.st != 2
    | none => true

end Sys2Proof.Machine
end

