-- ==== Sys2Proof/Machine/Trans.lean ====
section
/-!
DEFINITION. Machine/Trans.lean: translation of context addresses (R363 to R369), the accesses a party makes through it,
and the host memory behind it (R422, R423).
-/
namespace Sys2Proof.Machine

/-! ### The translation cache (R368) -/

/-- Set of a page of size 2^s at `va` in context `c`. -/
def atcSet (c va s : Nat) : Nat := (va / 2 ^ s % 4096) ^^^ (c % 4096)

/-- The entry that translates `va` with the needed right. An entry that lacks the right is no hit: the request for it
may have asked for reads only (No Write, R363) (DEDUCED, log entry 8). -/
def atcFind (h : Hub) (c va : Nat) (write : Bool) : Option AtcEntry :=
  h.atc.find? fun e => e.ctx == c && va / 2 ^ e.size == e.va / 2 ^ e.size && (if write then e.w else e.r)

/-- Drop the last element that satisfies `p`: the least recently used. -/
def dropLast {α : Type} (xs : List α) (p : α → Bool) : List α :=
  match xs with
  | [] => []
  | x :: r => if p x && !(r.any p) then r else x :: dropLast r p

/-- Cache an entry: at most 16 a set, least recently used replaced, and at most OD 0x6010.02 a context, which then
replaces its own (R368). -/
def atcFill (h : Hub) (e : AtcEntry) : Hub :=
  let same (x : AtcEntry) := x.ctx == e.ctx && x.size == e.size && x.va == e.va
  let a := dropIf h.atc same
  let a := if odNum h OD.atcCtxMax ≤ (a.filter fun x => x.ctx == e.ctx).length then dropLast a fun x => x.ctx == e.ctx else a
  let inSet (x : AtcEntry) := atcSet x.ctx x.va x.size == atcSet e.ctx e.va e.size
  let a := if 16 ≤ (a.filter inSet).length then dropLast a inSet else a
  { h with atc := e :: a }

/-- The target address of `va` under an entry. -/
def AtcEntry.target (e : AtcEntry) (va : Nat) : Nat := e.addr + (va - e.va)

/-- Send a Translation Request for the page of `va`, unless one is outstanding (R363). -/
def requestTr (h : Hub) (c va : Nat) (write : Bool) (who : Nat) : Hub :=
  if h.trReqs.any fun t => t.ctx == c && t.va / 4096 == va / 4096 && t.write == write && t.who == who then h
  else
    let h := { h with trReqs := h.trReqs ++ [{ ctx := c, va := va, write := write, who := who }] }
    let h := addFld h F.ctxAtcMissMiss c 1
    emit h .transReq (ctxFunc h c) [fld h F.ctxPasidPasid c, va / 4096 * 4096, b2n (!write)]

/-- Context `c` is listed in OD 0x8080+i.05. -/
def bindListed (h : Hub) (i c : Nat) : Bool :=
  let b := odBytes h (OD.bindUsers i) 16
  (List.range 8).any fun k => let v := numAt b (2 * k) 2; v % 2 ^ 13 == c && bitOf v 15

/-- A read of `dpa` for context `c` by `who` is open: outside the bound regions in service, or by a crank for a listed context (R453). -/
def bindAllows (h : Hub) (c dpa who : Nat) : Bool :=
  match boundAt h dpa with
  | none => true
  | some i => decide (who < 8) && bindListed h i c

/-- Look up `va`: a hit counts and becomes most recently used; a miss sends a request and answers none. An entry whose page a bound
region keeps from `who` is no hit: the completion of the request for it then faults (R453). -/
def lookup (h : Hub) (c va : Nat) (write : Bool) (who : Nat) : Option AtcEntry × Hub :=
  match atcFind h c va write with
  | some e =>
    if !write && !e.host && !bindAllows h c (e.target va) who then (none, requestTr h c va write who)
    else (some e, addFld { h with atc := e :: h.atc.erase e } F.ctxAtcHitHit c 1)
  | none => (none, requestTr h c va write who)

/-- `a` lies in a BAR0 or BAR2 of the hub's own functions (R364). -/
def inOwnBars (h : Hub) (a : Nat) : Bool :=
  let pf := func h 0
  let inR (b n : Nat) := decide (b ≠ 0) && decide (b ≤ a) && decide (a < b + n)
  inR pf.bar0 (2 ^ 26) || inR pf.bar2 (2 ^ 25) ||
    (pf.vfEn && (inR (tgetD pf.config 0x184 0) (pf.numVfs * 2 ^ 18) || inR (tgetD pf.config 0x18C 0) (pf.numVfs * 2 ^ 18)))

/-- `a` lies in the PF's BAR4 (R364). -/
def inBar4 (h : Hub) (a : Nat) : Bool :=
  let pf := func h 0
  decide (pf.bar4 ≠ 0) && decide (pf.bar4 ≤ a) && decide (a < pf.bar4 + 2 ^ pf.bar4Log)

/-- DPAs a party may reach: below the usable capacity and the BAR4 size (R416). -/
def dpaLimit (h : Hub) : Nat := Nat.min (usable h) (2 ^ (func h 0).bar4Log)

/-- The kind of a translation that resolves into a place R364 forbids: 3 RANGE; else the entry. -/
def resolve (h : Hub) (c va size : Nat) (r w u : Bool) (addr : Nat) : AtcEntry ⊕ Nat :=
  let s := if 30 ≤ size then 30 else if 21 ≤ size then 21 else 12
  let base := va / 2 ^ s * 2 ^ s
  let a := addr / 2 ^ s * 2 ^ s
  if inBar4 h (addr / 2 ^ size * 2 ^ size + va % 2 ^ size) && !u then
    let t := addr / 2 ^ size * 2 ^ size + va % 2 ^ size - (func h 0).bar4
    if dpaLimit h ≤ t then .inr 3
    else
      let whole := decide (2 ^ s ≤ a + 1) && inBar4 h a
      if whole && decide (a - (func h 0).bar4 + 2 ^ s ≤ dpaLimit h) then .inl ⟨c, base, s, r, w, u, false, a - (func h 0).bar4⟩
      else .inl ⟨c, va / 4096 * 4096, 12, r, w, u, false, t / 4096 * 4096⟩
  else if inOwnBars h (addr / 2 ^ size * 2 ^ size + va % 2 ^ size) then .inr 3
  else .inl ⟨c, base, s, r, w, u, true, addr / 2 ^ size * 2 ^ size + base % 2 ^ size⟩

/-! ### Host memory (R422, R423) -/

/-- The lowest free tag. -/
def freeTag (h : Hub) : Nat :=
  ((List.range (h.hostReads.length + h.pcie.dead.length + 1)).find? fun t =>
    !(h.hostReads.any fun r => r.tag == t) && !h.pcie.dead.contains t).getD 0

/-- How a host request of context `c` for address `a` is marked (R422): 1 and no PASID where the translation of its page is not
marked untranslated-only, else 0 and the context's PASID. -/
def reqMark (h : Hub) (c a : Nat) : List Nat :=
  if h.atc.any fun e => e.ctx == c && e.host && e.u && e.addr / 2 ^ e.size == a / 2 ^ e.size then [0, fld h F.ctxPasidPasid c] else [1, 0]

/-- Ask the host for the sector of host address `a` unless it was asked. -/
def hostAsk (h : Hub) (c a : Nat) : Hub :=
  if h.hostReads.any fun r => !r.dead && r.ctx == c && decide (r.addr ≤ a) && decide (a < r.addr + r.len) then h
  else if odNum h OD.pcieRdTags ≤ h.hostReads.length then h
  else
    let t := freeTag h
    let f := ctxFunc h c
    let h := { h with hostReads := h.hostReads ++ [{ tag := t, func := f, ctx := c, addr := a / 32 * 32, len := 32 }] }
    emit h .memRead f ([t, a / 32 * 32, 32] ++ reqMark h c a)

/-- Key of an arrived sector: its context and address. -/
def haveKey (c a : Nat) : Nat := c * 2 ^ 64 + a / 32

/-- Take the sector of host address `a` once it has arrived. -/
def hostTake (h : Hub) (c a : Nat) : Option (List Byte × Bool) × Hub :=
  match tget h.hostHave (haveKey c a) with
  | some bad => (some (h.hostBuf.readN (a / 32 * 32) 32, bad), { h with hostHave := tdel h.hostHave (haveKey c a) })
  | none => (none, hostAsk h c a)

/-- Nothing waits any more for what the context asked of the host: what comes is discarded. -/
def dropHost (h : Hub) (c : Nat) : Hub :=
  { h with hostHave := dropIf h.hostHave fun e => e.1 / 2 ^ 64 == c
           hostReads := mapIf h.hostReads (·.ctx == c) fun r => { r with dead := true } }

/-- A write of context `c` to host memory: sent on the link, and so performed (R229). -/
def hostWrite (h : Hub) (c a : Nat) (bs : List Byte) : Hub :=
  emit { h with hostMem := h.hostMem.writeN a bs } .memWrite (ctxFunc h c) (a :: reqMark h c a) bs

/-! ### Accesses through translation -/

/-- The sector that holds `va`, read for context `c` by `who`: none while its translation, its owner's snoop (R208) or
its host completion is still due; the request for it has then been sent. -/
def vaSector (h : Hub) (c va who : Nat) : Option (List Byte × Bool) × Hub :=
  match lookup h c va false who with
  | (none, h) => (none, h)
  | (some e, h) =>
    let t := e.target va / 32 * 32
    if e.host then hostTake h c t
    else if homeReady h t then
      let (bs, bad, h) := homeRead h t 32
      (some (bs, !bad.isEmpty), h)
    else if h.cohTxns.any (fun x => x.req.agent == 0xFF && x.req.line == t / 64 && x.req.op == 3)
        || h.cohQ.any (fun x => x.agent == 0xFF && x.line == t / 64 && x.op == 3) then (none, h)
    else (none, cohArrive h { op := 3, agent := 0xFF, txn := 0, ctx := c, vline := va / 64, line := t / 64 })

/-- Read the sectors `vas` (their 32-byte-aligned addresses): the bytes and the poisoned sector addresses. Where one is still
due, what the host sent is kept for the next try. -/
def vaSectors (c who : Nat) : List Nat → Hub → Option (List Byte × List Nat) × Hub
  | [], h => (some ([], []), h)
  | a :: rest, h0 =>
    let (x, h) := vaSector h0 c a who
    let (y, h) := vaSectors c who rest h
    match x, y with
    | some (bs, bad), some (bt, bads) => (some (bs ++ bt, if bad then a :: bads else bads), h)
    | _, _ => (none, { h with hostHave := h0.hostHave })

/-- Read `len` bytes at `va`. -/
def vaRead (h : Hub) (c va len who : Nat) : Option (List Byte × List Nat) × Hub :=
  let secs := (sectorsOf va len).map (· * 32)
  match vaSectors c who secs h with
  | (some (bs, bad), h) => (some (sliceB bs (va % 32) len, bad), h)
  | (none, h) => (none, h)

/-- How an access through translation for writing stands: the target, or not yet translated. -/
inductive VaTarget where
  | hbm (dpa : Nat) | host (addr : Nat) | wait
deriving DecidableEq, Repr

def vaTarget (h : Hub) (c va : Nat) (who : Nat) : VaTarget × Hub :=
  match lookup h c va true who with
  | (none, h) => (.wait, h)
  | (some e, h) => (if e.host then .host (e.target va) else .hbm (e.target va), h)

/-- A streaming write of `bs` at DPA `dpa` inside one line (R208): at the home as WR_LINE, holders invalidated first.
`tag` says whom its acknowledgement concerns. -/
def streamWrite (h : Hub) (c dpa : Nat) (bs : List Byte) (bad : Bool) (tag : AckTo) : Hub :=
  cohArrive h { op := 5, agent := 0xFF, txn := 0, ctx := c, vline := 0, line := dpa / 64, off := dpa % 64, data := bs,
                bad := bad, tag := tag }

/-- A translation fault (R366, R370): its record, the context's first fault registers, and the kill with cause 1. A
context already KILLED writes no further translation record. -/
def trFault (h : Hub) (c kind : Nat) (write host : Bool) (who va : Nat) : Hub :=
  if wasKilled h c then h
  else
    let h := faultRecord h kind write host c who va
    let (r, h) := drawFree h 6
    let h := trace h 0 r 0x42 (some c) (c + kind * 2 ^ 16 + va * 2 ^ 64)
    let h := if fld h F.ctxFaultInfoKind c = 0 then
        setFld (setFld (setFld (setReg h .ctxFaultVa c va) F.ctxFaultInfoKind c kind) F.ctxFaultInfoWrite c (b2n write))
          F.ctxFaultInfoRequester c who
      else h
    later h (.kill c 1)

end Sys2Proof.Machine
end

