-- ==== Sys2Proof/Machine/SyncCore.lean ====
section
/-!
DEFINITION. Machine/SyncCore.lean: semaphores, waits and barriers as their slices apply them (R232 to R248).
-/
namespace Sys2Proof.Machine

/-- Who issues a sync operation (R238): a command, a guest's message, the barrier engine, or the scale-out engine: for
hub `hub`'s arrival at a pod barrier (R405), or for a message or a pod command. -/
inductive Issuer where
  | cmd (slot count : Nat)
  | guest (anchor txn stn : Nat)
  | engine
  | pod (hub : Nat)
  | scaleOut
deriving DecidableEq, Repr

def sem (h : Hub) (n : Nat) : Sem := tgetD h.sems n {}
def setSem (h : Hub) (n : Nat) (s : Sem) : Hub := { h with sems := tset h.sems n s }

/-- Context `c` may wait on (or, `post`, post to) semaphore `n` (R235, R236). -/
def semRight (h : Hub) (c n : Nat) (post : Bool) : Bool :=
  ((sem h n).alloc && (sem h n).owner == c) ||
    h.grants.any fun g => g.sem == n && g.ctx == c && (if post then g.post else g.wait)

/-- The image of a slot's two words (R233). -/
def semWaiters (h : Hub) (n : Nat) : List Wait := h.waits.filter fun w => w.sem == n

def semWord1 (h : Hub) (n : Nat) : Nat :=
  let s := sem h n
  let ws := semWaiters h n
  s.owner + b2n s.alloc * 2 ^ 13 + b2n s.abandoned * 2 ^ 14 + b2n (h.grants.any fun g => g.sem == n) * 2 ^ 15
    + b2n s.barrier * 2 ^ 16 + b2n s.handSet * 2 ^ 17 + (match ws with | [] => 0 | w :: _ => w.index * 2 ^ 18 + 2 ^ 32)
    + ws.length * 2 ^ 33

/-- SEM.RESULT to a guest (R239): 0 OK, 1 ABANDONED, 2 WATCHDOG, 3 KILLED, 4 RIGHTS, 5 FULL, 6 SATURATED. -/
def semResult (h : Hub) (by_ : Issuer) (status : Nat) (count : Int) : Hub :=
  match by_ with
  | .guest _ txn stn => toStation h 3 1 .semResult stn [txn, status, ofSigned 64 count]
  | _ => h

/-- A command's wait ends: released OK it goes on at step 5 (R243), else it ends as R71 gives. -/
def wakeCmd (h : Hub) (c slot count status n : Nat) : Hub :=
  let st := [0, 6, 8, 9, 2].getD status 2
  let det := if status = 4 then 0x0D else n
  let h := { h with cmds := mapIf h.cmds (fun x => x.ctx == c && x.slot == slot && x.count == count) fun x =>
      if status = 0 then { x with waiting := false, step := 5 }
      else { x with waiting := false, step := 9, status := st, detail := det } }
  later h (.run c slot)

/-- Send the acquire range of the oldest unsent entry of a station that has none under way (R244, R275). -/
def sendAcq (h : Hub) (stn : Nat) : Hub :=
  if h.acqWait.any fun a => a.stn == stn && a.sent then h
  else match h.acqWait.find? fun a => a.stn == stn with
    | none => h
    | some a =>
      let h := { h with acqWait := h.acqWait.map fun x => if x == a then { x with sent := true } else x }
      toStation h 2 3 .topRange stn [0x3FFFF, a.ctx, 1, 3, a.base, a.len]

/-- A waiter is released with a status (R242, R243); a guest's with an acquire range first has that range invalidated in
its station (R244). -/
def releaseWait (h : Hub) (w : Wait) (status : Nat) : Hub :=
  let k := (sem h w.sem).count
  let h := trace h 0 (w.sem % 64) 0x32 (some w.ctx) (w.sem + w.ctx * 2 ^ 17 + status * 2 ^ 32 + ofSigned 64 k * 2 ^ 64)
  let h := { h with waits := dropIf h.waits fun x => x.index == w.index }
  match w.by_ with
  | .cmd slot count => wakeCmd h w.ctx slot count status w.sem
  | .pod ch => later h (.podWaited ch status)
  | .guest anchor txn stn =>
    match w.acq with
    | some (b, l) =>
      sendAcq { h with acqWait := h.acqWait ++ [⟨anchor, stn, txn, w.ctx, b, l, status, ofSigned 64 k, false⟩] } stn
    | none => semResult h (.guest anchor txn stn) status k

/-- Release every listed waiter whose threshold the count meets, in list order (R237). -/
def releaseMet (h : Hub) (n : Nat) : Hub :=
  each ((semWaiters h n).filter fun w => w.thr ≤ (sem h n).count) h fun h w => releaseWait h w 0

/-- The lowest wait-table index that is free. -/
def freeWait (h : Hub) : Nat := ((List.range (h.waits.length + 1)).find? fun i => !(h.waits.any fun w => w.index == i)).getD 0

/-- An operation applied by a slice. -/
def countOp (h : Hub) : Hub := addFld h F.syncOpsOps 0 1

/-- A guest's sync request without rights is also a violation of kind 11 (R236, R304). -/
def noRights (h : Hub) (by_ : Issuer) (c : Nat) : Hub :=
  let h := raise h E.syncRights
  match by_ with
  | .guest a _ stn => later (semResult h by_ 4 0) (.violation a 11 c (stn % 64) false 0 none none)
  | _ => h

/-- SEM.WAIT_GE at its slice (R237, R242): without rights; abandoned; met; or listed, where the table and the context's
share have room. A full table answers a guest FULL; a command's wait stays unlisted and is tried again (R66). -/
def semWait (h : Hub) (by_ : Waiter) (c n : Nat) (thr : Int) (acq : Option (Nat × Nat)) : Hub :=
  let h := countOp h
  let w : Wait := ⟨16384, n, thr, c, by_, acq⟩
  let s := sem h n
  if !semRight h c n false then
    match by_ with
    | .cmd slot count => wakeCmd (raise h E.syncRights) c slot count 4 n
    | .guest a txn stn => noRights h (.guest a txn stn) c
    | .pod ch => later (raise h E.syncRights) (.podWaited ch 4)
  else if s.abandoned then releaseWait (raise h E.syncAbandon) w 1
  else if thr ≤ s.count then releaseWait h w 0
  else if decide (16384 ≤ h.waits.length) || decide (odNum h OD.syncCtxWaiters ≤ (h.waits.filter fun x => x.ctx == c).length) then
    match by_ with
    | .cmd _ _ => h
    | .pod _ => h
    | .guest a txn stn => semResult h (.guest a txn stn) 5 s.count
  else
    let h := { h with waits := h.waits ++ [{ w with index := freeWait h }] }
    match by_ with
    | .cmd slot count => { h with cmds := mapIf h.cmds (fun x => x.ctx == c && x.slot == slot && x.count == count) fun x =>
        { x with waiting := true } }
    | .guest _ _ _ => h
    | .pod _ => h

/-- A count plus (or less) an unsigned amount, saturated at the signed limits (R237). -/
def satCount (k : Int) (v : Nat) (sub : Bool) : Int × Bool :=
  let x := if sub then k - v else k + v
  if 2 ^ 63 - 1 < x then (2 ^ 63 - 1, true) else if x < -(2 ^ 63) then (-(2 ^ 63), true) else (x, false)

/-- SEM.ADD and SEM.SUB at the slice, but for a barrier's part: rights, abandonment, the new count, the released
waiters and the result. -/
def semApply (h : Hub) (by_ : Issuer) (c n v : Nat) (sub : Bool) : Hub :=
  let h := countOp h
  let s := sem h n
  if by_ != .engine && !semRight h c n true then noRights h by_ c
  else if s.abandoned then semResult (raise h E.syncAbandon) by_ 1 s.count
  else
    let (k, sat) := satCount s.count v sub
    let h := setSem h n { s with count := k }
    let h := trace h 0 (n % 64) 0x31 (some c) (n + c * 2 ^ 17 + ofSigned 64 k * 2 ^ 64)
    let h := if sat then raise h E.syncSat else h
    let h := if sub || v == 0 then h else releaseMet h n
    semResult h by_ (if sat then 6 else 0) k

/-- The participant of context `c` bound to an issuer (R245). -/
def participant (h : Hub) (c : Nat) (by_ : Issuer) : Option Nat :=
  let id : Option (Nat × Nat) := match by_ with
    | .cmd slot _ => some (1, slot)
    | .guest _ _ stn => some (2, stn)
    | .pod hub => some (3, hub)
    | .engine => none
    | .scaleOut => none
  match id with
  | none => none
  | some k => (h.parts.find? fun e => e.1 / 256 == c && e.2 == k).map fun e => e.1 % 256

/-- The release of a generation (R247): the post, the early bits become arrivals, the generation advances. -/
def barRelease (h : Hub) (i : Nat) (b : Barrier) : Hub :=
  let h := semApply h .engine b.ctx b.release 1 false
  { h with barriers := tset h.barriers i { b with arrived := b.early, early := [], gen := (b.gen + 1) % 2 ^ 32 } }

/-- The arrival of participant `p` at barrier `i` (R247). -/
def barArrive (h : Hub) (i : Nat) (p : Option Nat) : Hub :=
  let b : Barrier := tgetD h.barriers i {}
  match p with
  | none => raise h E.syncBarStray
  | some p =>
    if !b.mask.contains p then raise h E.syncBarStray
    else if b.arrived.contains p then
      if b.early.contains p then raise h E.syncBarStray
      else { h with barriers := tset h.barriers i { b with early := p :: b.early } }
    else
      let b := { b with arrived := p :: b.arrived }
      if b.mask.all fun q => b.arrived.contains q then barRelease h i b
      else { h with barriers := tset h.barriers i b }

/-- A post: applied to the count, and then, at a barrier's arrival semaphore, the arrival of its issuer's participant. A
post that lacks rights or meets an abandoned semaphore is dropped and is no arrival. -/
def semPost (h : Hub) (by_ : Issuer) (c n v : Nat) (sub : Bool) : Hub :=
  let taken := semRight h c n true && !(sem h n).abandoned
  let h := semApply h by_ c n v sub
  if taken then
    match h.barriers.find? fun e => e.2.state == 1 && e.2.arrive == n with
    | some (i, b) => barArrive h i (participant h b.ctx by_)
    | none => h
  else h

/-- Abandon semaphore `n` of the killed or torn down context `c`: its flag, and every waiter of another context is
released ABANDONED (R248). -/
def abandonSem (h : Hub) (c n : Nat) : Hub :=
  let h := setSem h n { sem h n with abandoned := true }
  each ((semWaiters h n).filter fun w => w.ctx != c) h fun h w => releaseWait h w 1

/-- Semaphores context `c` owns. -/
def ownedSems (h : Hub) (c : Nat) : List Nat := (h.sems.filter fun e => e.2.alloc && e.2.owner == c).map (·.1)

/-- A kill at the slices (R248): its semaphores are abandoned, its own waits released KILLED, its barriers ABANDONED. -/
def syncKill (h : Hub) (c : Nat) : Hub :=
  let h := each (ownedSems h c) h fun h n => abandonSem h c n
  let h := each (h.waits.filter fun w => w.ctx == c) h fun h w => releaseWait h w 3
  { h with barriers := h.barriers.map fun e => if e.2.ctx == c && e.2.state == 1 then (e.1, { e.2 with state := 2 }) else e }

/-- The audit of a context (R254): its differences, and the lowest semaphore among them (0 where none). -/
def auditCount (h : Hub) (c : Nat) : Nat × Nat :=
  let sems := (ownedSems h c).filter fun n =>
    let s := sem h n
    s.count != s.baseline || s.abandoned || s.handSet || !(semWaiters h n).isEmpty
  let waits := h.waits.filter fun w => w.ctx == c
  let bars := h.barriers.filter fun e => e.2.state == 1 && e.2.ctx == c && !(e.2.arrived.isEmpty && e.2.early.isEmpty)
  let ns := sems ++ waits.map (·.sem) ++ bars.map (·.2.arrive)
  (sems.length + waits.length + bars.length, ns.foldl Nat.min (ns.headD 0))

/-- Run the audit and record it in SYNC.CTX_STAT. -/
def syncAudit (h : Hub) (c : Nat) : Hub :=
  let (n, s) := auditCount h c
  let h := setFld (setFld (setFld h F.syncCtxStatAuditDiff c (b2n (n != 0))) F.syncCtxStatAuditSem c s)
    F.syncCtxStatAuditN c (Nat.min n 4095)
  if n = 0 then h else raise h E.syncAuditDiff

/-- Free every sync object of a context (R248, R361 step 5): semaphores with waiters of other contexts abandoned first. -/
def syncFree (h : Hub) (c : Nat) : Hub :=
  let h := each ((ownedSems h c).filter fun n => (semWaiters h n).any fun w => w.ctx != c) h fun h n => abandonSem h c n
  let mine := ownedSems h c
  { h with sems := dropIf h.sems fun e => mine.contains e.1
           grants := dropIf h.grants fun g => g.ctx == c || mine.contains g.sem
           parts := dropIf h.parts fun e => e.1 / 256 == c
           barriers := dropIf h.barriers fun e => e.2.ctx == c
           waits := dropIf h.waits fun w => w.ctx == c }

end Sys2Proof.Machine
end

