-- ==== Sys2Proof/Machine/PodCore.lean ====
section
/-!
DEFINITION. Machine/PodCore.lean: pod streams, frames and the roster (R390 to R405).
-/
namespace Sys2Proof.Machine

/-- 0 off, 1 worker, 2 manager; this hub's number. -/
def podRole (h : Hub) : Nat := fld h F.podStatusRole
def podSelf (h : Hub) : Nat := fld h F.podStatusHub

/-- MAC address of port `k` of hub `n` (R391). -/
def podMac (pod n k : Nat) : Nat := 0x024B * 2 ^ 32 + pod % 2 ^ 16 * 2 ^ 16 + n / 16 % 256 * 2 ^ 8 + (n % 16 * 16 + k)

/-- The port a frame to hub `n` leaves by; none while no port is up (R391). -/
def podPort (h : Hub) (n : Nat) : Option Nat :=
  match fld h F.podStatusPortUp with
  | 3 => some (n % 2)
  | 1 => some 0
  | 2 => some 1
  | _ => none

/-- Roster entry of a hub: 0 ABSENT, 1 JOINING, 2 LIVE, 3 LOST (OD 0x9001.01). -/
def roster (h : Hub) (n : Nat) : Nat := ((odBytes h OD.podRoster 1024).getD (n / 4) 0).toNat / 4 ^ (n % 4) % 4

def setRoster (h : Hub) (n st : Nat) : Hub :=
  let b := odBytes h OD.podRoster 1024
  setOdBytes h OD.podRoster (b.set (n / 4) (BitVec.ofNat 8 (setBits (b.getD (n / 4) 0).toNat (n % 4 * 2) 2 st)))

/-- Hubs that are LIVE. -/
def liveHubs (h : Hub) : List Nat := (List.range 4096).filter fun n => roster h n == 2

/-- A payload padded to 16 bytes (R396), and a whole message. -/
def padded (bs : List Byte) : List Byte := sliceB bs 0 (ceilDiv bs.length 16 * 16)
def PodMsg.bytes (m : PodMsg) : List Byte :=
  leBytes 1 m.typ ++ leBytes 1 (b2n m.pmask) ++ leBytes 2 m.job ++ leBytes 4 m.msgId ++ leBytes 8 m.arg ++ padded m.payload

/-- A frame to hub `n` (R391, R393): its addresses and tag as numbers, its pod header and messages as bytes. -/
def sendFrame (h : Hub) (n seq : Nat) (ms : List PodMsg) : Hub :=
  match podPort h n with
  | none => h
  | some k =>
    let body := ms.flatMap PodMsg.bytes
    let head := leBytes 1 1 ++ leBytes 1 0 ++ leBytes 2 h.podId ++ leBytes 2 (podSelf h) ++ leBytes 2 n ++ leBytes 4 seq
      ++ leBytes 4 (tgetD h.podRx n 1) ++ leBytes 2 ms.length ++ leBytes 2 body.length ++ List.replicate 12 0
    let h := { h with podAck := dropIf h.podAck (· == n) }
    emit h .podFrame n [k, podMac h.podId n k, podMac h.podId (podSelf h) k, h.podVlan, h.podEther] (head ++ body)

/-- Send a message to hub `n`: the next frame of its stream, kept until acknowledged (R394). The hub puts one message
into a frame (DESIGN CHOICE, log entry 9). -/
def podSend (h : Hub) (n : Nat) (m : PodMsg) : Hub :=
  if podRole h = 0 then h
  else
    let t : PodTx := tgetD h.podTx n {}
    let w := if t.sent.isEmpty then odNum h OD.podRtoUs else t.wait
    let h := { h with podTx := tset h.podTx n { t with next := (t.next + 1) % 2 ^ 32, sent := t.sent ++ [(t.next, m)], wait := w } }
    sendFrame (addFld h F.podTxBytesTx 0 m.bytes.length) n t.next [m]

/-- A fresh message number. -/
def podNew (h : Hub) : Nat × Hub := (h.podMsgId, { h with podMsgId := (h.podMsgId + 1) % 2 ^ 32 })

/-- Channel state: 0 CLOSED, 1 OPEN, 2 HALTED, 3 CLOSING. -/
def chState (h : Hub) (c : Nat) : Nat := fld h F.podChStatState c
def podCh (h : Hub) (c : Nat) : PodCh := tgetD h.podCh c {}
def setPodCh (h : Hub) (c : Nat) (x : PodCh) : Hub := { h with podCh := tset h.podCh c x }

/-- Halt a channel (R400): no further command is sent, the failed one will be re-executed, its MSI-X vector goes out. -/
def haltCh (h : Hub) (c status k : Nat) : Hub :=
  if chState h c != 1 then h
  else
    let h := setFld (setFld h F.podChStatState c 2) F.podChStatHaltStatus c status
    let h := raise (setPodCh h c { podCh h c with next := k, runs := dropIf (podCh h c).runs fun r => decide (k ≤ r.k) }) E.podHalt
    sendMsix h (ctxFunc h (fld h F.podChCfgCtx c)) (fld h F.podChVecVector c)

/-- The count a channel would go on from were it halted now: its oldest command under way. -/
def chOldest (h : Hub) (c : Nat) : Nat := match (podCh h c).runs with | r :: _ => r.k | [] => (podCh h c).next

/-- A notice reaches this hub (R402): the event; a relayed CTX_KILLED halts the job's channels. -/
def podNoticeHere (h : Hub) (kind detail src : Nat) : Hub :=
  let h := raise h E.podNotice
  let h := trace h 0 44 0x71 none (kind + src % 4096 * 2 ^ 8)
  if kind = 4 then
    each ((List.range 256).filter fun c => chState h c == 1 && fld h F.podChCfgJob c == detail % 2 ^ 16) h fun h c =>
      haltCh h c 8 (chOldest h c)
  else h

/-- The manager relays a notice of hub `src` to every LIVE hub (R402). -/
def podRelay (h : Hub) (src kind detail : Nat) : Hub :=
  each (liveHubs h) h fun h n =>
    let (i, h) := podNew h
    podSend h n ⟨6, false, 0, i, kind + (detail % 2 ^ 44 + src * 2 ^ 44) * 2 ^ 8, []⟩

/-- This hub raises a notice (R402): to the manager, or, where it is the manager, straight to every LIVE hub. -/
def podRaise (h : Hub) (kind detail : Nat) : Hub :=
  match podRole h with
  | 1 => let (i, h) := podNew h; podSend h h.podMgr ⟨6, false, 0, i, kind + detail * 2 ^ 8, []⟩
  | 2 => podRelay h (podSelf h) kind detail
  | _ => h

/-- The channels of a killed or torn-down context close (R407); a kill with commands unsent or unacknowledged raises
CTX_KILLED (R402). -/
def podCloseCtx (h : Hub) (ctx : Nat) (killed : Bool) : Hub :=
  each ((List.range 256).filter fun c => chState h c != 0 && fld h F.podChCfgCtx c == ctx) h fun h c =>
    let busy := !(podCh h c).runs.isEmpty
    let job := fld h F.podChCfgJob c
    let h := setFld { h with podCh := tdel h.podCh c } F.podChStatState c 0
    if killed && busy then podRaise h 4 job else h

end Sys2Proof.Machine
end

