-- ==== Sys2Proof/Machine/PodIn.lean ====
section
/-!
DEFINITION. Machine/PodIn.lean: pod frames as they arrive (R392 to R394, R403), and the messages in them as they are
applied (R400 to R405).
-/
namespace Sys2Proof.Machine

/-! ### Frames -/

/-- Payload bytes of a message (R397); none where its type is reserved or a reserved bit is set. -/
def payloadLen (typ flags arg job : Nat) : Option Nat :=
  let data := (if flags % 2 = 1 then 32 else 0) + 32 * (bitsOf arg 48 40 + 1)
  let jobOk := job != 0
  if 2 ≤ flags || (flags % 2 = 1 && typ != 1 && typ != 2) then none
  else match typ with
    | 1 => if jobOk && arg / 2 ^ 49 = 0 && arg % 32 = 0 then some data else none
    | 2 => if jobOk && arg / 2 ^ 60 = 0 && arg % 32 = 0 then some data else none
    | 3 => if jobOk && arg / 2 ^ 18 = 0 then some 16 else none
    | 4 => if jobOk && bitsOf arg 7 6 = 0 && arg / 2 ^ 40 = 0 then some 0 else none
    | 5 => if jobOk && bitsOf arg 7 6 = 0 && arg / 2 ^ 40 = 0 then some 512 else none
    | 6 => if job = 0 then some 0 else none
    | 7 => if job = 0 && arg < 2 then some (1024 * arg) else none
    | 8 => if arg / 2 ^ 36 = 0 then some 0 else none
    | _ => none

/-- The messages in `bs`; none where they do not fill it exactly. Fuel: at least the messages. -/
def parseMsgs : Nat → List Byte → Option (List PodMsg)
  | 0, bs => if bs.isEmpty then some [] else none
  | n + 1, bs =>
    if bs.isEmpty then some []
    else match payloadLen (numAt bs 0 1) (numAt bs 1 1) (numAt bs 8 8) (numAt bs 2 2) with
      | none => none
      | some l =>
        if bs.length < 16 + l then none
        else (parseMsgs n (bs.drop (16 + l))).map fun r =>
          ⟨numAt bs 0 1, numAt bs 1 1 == 1, numAt bs 2 2, numAt bs 4 4, numAt bs 8 8, (bs.drop 16).take l⟩ :: r

/-- The sender of a frame is acceptable (R392, R403): its roster entry is JOINING or LIVE, the manager's on a worker with a
roster; a frame of BEATs alone reaches a manager from any hub, and a worker from its manager. -/
def senderOk (h : Hub) (src : Nat) (ms : List PodMsg) : Bool :=
  let beats (a : Nat) := !ms.isEmpty && ms.all fun m => m.typ == 7 && m.arg == a
  if podRole h = 2 then beats 0 || roster h src == 1 || roster h src == 2
  else if src = h.podMgr then h.podHas || beats 1
  else h.podHas && (roster h src == 1 || roster h src == 2)

/-- A manager's BEAT from a hub that is not the manager, or a worker's BEAT at a hub that is none (R403). -/
def badBeat (h : Hub) (src : Nat) (m : PodMsg) : Bool :=
  m.typ == 7 && (if m.arg = 1 then src != h.podMgr || podRole h == 2 else podRole h != 2)

def stranger (h : Hub) : Hub := raise h E.podStranger

/-- An acknowledgement frees the frames before it (R394). -/
def podAcked (h : Hub) (n ack : Nat) : Hub :=
  match tget h.podTx n with
  | none => h
  | some t =>
    let left := t.sent.dropWhile fun e => decide ((ack + 2 ^ 32 - 1 - e.1) % 2 ^ 32 < 2 ^ 31)
    let t := if left.length = t.sent.length then t else { t with sent := left, wait := odNum h OD.podRtoUs }
    { h with podTx := tset h.podTx n t }

/-- A frame arrives at port `port` (R391 to R394). -/
def podReceive (h : Hub) (dst src etype : Nat) (bs : List Byte) (full : Bool) : Hub :=
  let sh := numAt bs 4 2
  let msgs := parseMsgs (numAt bs 16 2 + 1) ((bs.drop 32).take (numAt bs 18 2))
  let addrOk := [0, 1].any fun k => src == podMac h.podId sh k && dst == podMac h.podId (podSelf h) k
  let headOk := etype == h.podEther && numAt bs 0 1 == 1 && numAt bs 1 1 == 0 && numAt bs 2 2 == h.podId && decide (sh < 4096)
    && numAt bs 6 2 == podSelf h && decide (numAt bs 16 2 ≤ 64) && decide (numAt bs 18 2 ≤ 8288) && (sliceB bs 20 12).all (· == 0)
    && (numAt bs 16 2 != 0 || numAt bs 8 4 == 0)
  match msgs with
  | none => stranger h
  | some ms =>
    if podRole h = 0 then h
    else if !addrOk || !headOk || ms.length != numAt bs 16 2 || !senderOk h sh ms || ms.any (badBeat h sh) then stranger h
    else
      let h := podAcked h sh (numAt bs 12 4)
      if ms.isEmpty then h
      else
        let want := tgetD h.podRx sh 1
        let h := if h.podAck.contains sh then h else { h with podAck := h.podAck ++ [sh] }
        if numAt bs 8 4 != want || full then h
        else
          let h := { h with podRx := tset h.podRx sh ((want + 1) % 2 ^ 32), podRxQ := h.podRxQ ++ ms.map fun m => (sh, m) }
          later (addFld h F.podRxBytesRx 0 (numAt bs 18 2)) .podPump

/-! ### Messages -/

/-- Send to a hub of the pod, itself included: a message to itself is applied in its turn (R405: the manager's own
arrivals). -/
def podTo (h : Hub) (n : Nat) (m : PodMsg) : Hub :=
  if n = podSelf h then later { h with podRxQ := h.podRxQ ++ [(n, m)] } .podPump else podSend h n m

/-- DONE of a message (R400). -/
def podDone (h : Hub) (src : Nat) (m : PodMsg) (status : Nat) : Hub :=
  let (i, h) := podNew h
  podTo h src ⟨8, false, m.job, i, m.msgId + status * 2 ^ 32, []⟩

/-- The OPEN channel of a job. -/
def chOfJob (h : Hub) (job : Nat) : Option Nat := (List.range 256).find? fun c => chState h c == 1 && fld h F.podChCfgJob c == job

/-- Requester that the translations of a channel carry inside the model; a fault record shows a free 16-bit number, since
the spec numbers no scale-out engine (log entry 17). -/
def podWho (c : Nat) : Nat := 0x10000 + c

/-- The format pairing of R120 for a REDUCE_PUT. -/
def redPairing (op : Nat) (i64 : Bool) (fmt : Nat) : Bool :=
  op != 3 && [1, 2, 3, 4, 5, 13].contains fmt && (!i64 || fmt == 13)

/-- What applying the front message of a stream comes to: done with, or not yet. -/
inductive Applied where
  | done (h : Hub) | wait (h : Hub)

/-- The targets of the window pages that bytes [off, off + n) touch: one per 4 KiB page; none while one is not
translated. -/
def winTargets (c ctx : Nat) : List Nat → Hub → Option (List (Nat × VaTarget)) × Hub
  | [], h => (some [], h)
  | p :: r, h =>
    let (t, h) := vaTarget h ctx (4096 * p) (podWho c)
    let (ts, h) := winTargets c ctx r h
    match t, ts with
    | .wait, _ => (none, h)
    | t, some ts => (some ((p, t) :: ts), h)
    | _, none => (none, h)

/-- PUT and REDUCE_PUT (R400). -/
def applyPut (h : Hub) (src : Nat) (m : PodMsg) : Applied :=
  match chOfJob h m.job with
  | none => .done (podDone h src m 1)
  | some c =>
    let off := bitsOf m.arg 39 0
    let n := bitsOf m.arg 48 40 + 1
    let fmt := bitsOf m.arg 59 52
    let func := bitsOf m.arg 51 49
    if fld h F.podChWinszPages c * 4096 < off + 32 * n
        || (m.typ == 2 && !redPairing (func % 4) (bitOf func 2) fmt) then .done (podDone h src m 2)
    else
      let ctx := fld h F.podChCfgCtx c
      let va := fld h F.podChWinBase c * 4096 + off
      match winTargets c ctx ((List.range ((va + 32 * n - 1) / 4096 - va / 4096 + 1)).map (· + va / 4096)) h with
      | (none, h) => .wait h
      | (some ts, h) =>
        let target (i : Nat) : Option (VaTarget × Nat) :=
          (ts.find? fun t => t.1 == (va + 32 * i) / 4096).map fun t => (t.2, (va + 32 * i) % 4096)
        let secs : List (Nat × Option (VaTarget × Nat)) := (List.range n).map fun i => (i, target i)
        let refused := secs.find? fun s => match s.2 with
          | some (VaTarget.hbm d, o) => sealed h (d + o)
          | _ => false
        let toHost := secs.any fun s => match s.2 with
          | some (VaTarget.host _, _) => true
          | _ => false
        match refused with
        | some s =>
          let p := match s.2 with
            | some (VaTarget.hbm d, o) => portOf h (d + o)
            | _ => 0
          .done (podDone (raise h E.memRoWrite p) src m 4)
        | none =>
          if m.typ = 2 && toHost then .done (podDone h src m 2)
          else
            let data := if m.pmask then m.payload.drop 32 else m.payload
            let bad (i : Nat) := m.pmask && bitOf (numAt m.payload (i / 8) 1) (i % 8)
            let key := h.podKey
            let anyBad := (List.range n).any bad
            let h := { h with
              podKey := key + 1
              podIn := h.podIn ++ [⟨key, src, m.job, m.msgId, n, if anyBad then 6 else 0⟩] }
            .done (each secs h fun h s =>
              let bs := (data.drop (32 * s.1)).take 32
              match s.2 with
              | some (VaTarget.hbm d, o) =>
                if m.typ = 1 then streamWrite h ctx (d + o) bs (bad s.1) (.msg key)
                else redArrive h ⟨d + o, func, fmt, fmt, bs, bad s.1, .msg key, 0⟩
              | some (VaTarget.host a, o) => ackWrite (hostWrite h ctx (a + o) bs) (.msg key) true
              | _ => ackWrite h (.msg key) true)

/-- SEM: an ordered post of the scale-out engine, behind every write of the job still under way (R240, R401). -/
def applySem (h : Hub) (src : Nat) (m : PodMsg) : Applied :=
  match chOfJob h m.job with
  | none => .done (podDone h src m 1)
  | some c =>
    let ctx := fld h F.podChCfgCtx c
    let n := m.arg % 2 ^ 17
    if !semRight h ctx n true then .done (podDone (raise h E.syncRights) src m 3)
    else if h.podIn.any fun x => x.job == m.job then .wait h
    else .done (podDone (semPost h .scaleOut ctx n (numAt m.payload 0 8) (bitOf m.arg 17)) src m 0)

/-- Bit mask of hubs, 512 bytes. -/
def hubMask (hubs : List Nat) : List Byte :=
  (List.range 512).map fun i => BitVec.ofNat 8 (((List.range 8).map fun j => b2n (hubs.contains (8 * i + j)) * 2 ^ j).sum)

/-- Send the RELEASE of a full generation and let the held arrivals in (R405); they never complete a generation at once
unless they are N again, which the next arrival shows. -/
def podRelease (h : Hub) (i job : Nat) (b : PodBar) : Hub :=
  let h := each b.arrived h fun h n =>
    let (k, h) := podNew h
    podTo h n ⟨5, false, job, k, i + b.gen * 2 ^ 8, hubMask b.arrived⟩
  { h with podBar := tset h.podBar i ⟨(b.gen + 1) % 2 ^ 32, b.early.map (·.1), []⟩ }

/-- ARRIVE at the manager (R405). -/
def applyArrive (h : Hub) (src : Nat) (m : PodMsg) : Hub :=
  let i := m.arg % 64
  let g := bitsOf m.arg 39 8
  let d := odNum h (OD.podBarrier i)
  let n := bitsOf d 28 16
  let b : PodBar := tgetD h.podBar i {}
  if podRole h != 2 || d = 0 || d % 2 ^ 16 != m.job || (roster h src != 2 && src != podSelf h) then podDone h src m 2
  else if g = b.gen then
    let b := if b.arrived.contains src then b else { b with arrived := b.arrived ++ [src] }
    let h := podDone { h with podBar := tset h.podBar i b } src m 0
    if b.arrived.length = n then podRelease h i m.job b else h
  else if g = (b.gen + 1) % 2 ^ 32 then
    let b := if b.early.any (·.1 == src) then b else { b with early := b.early ++ [(src, m.job, m.msgId)] }
    podDone { h with podBar := tset h.podBar i b } src m 0
  else podDone h src m 2

/-- RELEASE at a hub: the arrival of every participant of kind 3 whose hub's bit is set, in each of the channel context's
barriers (R405). -/
def applyRelease (h : Hub) (m : PodMsg) : Hub :=
  let i := m.arg % 64
  let h := { h with podGen := tset h.podGen i (Nat.max (tgetD h.podGen i 0) (bitsOf m.arg 39 8 + 1)) }
  match chOfJob h m.job with
  | none => h
  | some c =>
    let ctx := fld h F.podChCfgCtx c
    let hubs := (h.parts.filter fun e => e.1 / 256 == ctx && e.2.1 == 3 && bitOf (numAt m.payload (e.2.2 / 8) 1) (e.2.2 % 8))
    each (h.barriers.filter fun b => b.2.ctx == ctx && b.2.state == 1) h fun h b =>
      each (hubs.filter fun e => b.2.mask.contains (e.1 % 256)) h fun h e => semPost h (.pod e.2.2) ctx b.2.arrive 1 false

/-- A peer is gone (R404): its stream ends, and what was owed to it ends LOST and halts its channels. -/
def podPeerLost (h : Hub) (n : Nat) : Hub :=
  let h := { h with podTx := tdel h.podTx n, podRx := tdel h.podRx n, podAck := dropIf h.podAck (· == n) }
  each h.podCh h fun h e =>
    match e.2.runs.find? fun r => !r.due.isEmpty && (if numAt r.raw 0 1 = 5 then h.podMgr else numAt r.raw 2 2) == n with
    | some r => haltCh h e.1 7 r.k
    | none => h

/-- The manager's roster as a BEAT payload. -/
def beatTo (h : Hub) (n : Nat) : Hub :=
  let (i, h) := podNew h
  podSend h n ⟨7, false, 0, i, 1, odBytes h OD.podRoster 1024⟩

/-- BEAT (R402): the manager moves the sender on and answers; a worker takes the roster. -/
def applyBeat (h : Hub) (src : Nat) (m : PodMsg) : Hub :=
  if podRole h = 2 then
    let st := roster h src
    let h := if st = 0 || st = 3 then setRoster h src 1 else if st = 1 then setRoster h src 2 else h
    beatTo h src
  else
    let old := odBytes h OD.podRoster 1024
    let h := { setFld (setOdBytes h OD.podRoster m.payload) F.podStatusMgr 0 1 with podHas := true }
    let newLost := (List.range 4096).filter fun n => roster h n == 3 && ((old.getD (n / 4) 0).toNat / 4 ^ (n % 4) % 4 != 3)
    each newLost h podPeerLost

/-- NOTICE (R402): the manager relays kinds 1 to 5; a HUB_LOST ends the stream to that hub. -/
def applyNotice (h : Hub) (src : Nat) (m : PodMsg) : Hub :=
  let kind := m.arg % 256
  let detail := m.arg / 256
  let h := podNoticeHere h kind detail (if kind = 6 then src else detail / 2 ^ 44)
  if podRole h = 2 && decide (1 ≤ kind) && decide (kind ≤ 5) && src != podSelf h then podRelay h src kind detail
  else if kind = 6 then podPeerLost h (detail % 4096) else h

/-- A channel that closes is CLOSED once nothing is owed to it (R407). -/
def chSettle (h : Hub) (c : Nat) : Hub :=
  if chState h c = 3 && (podCh h c).runs.all fun r => r.due.isEmpty then setFld { h with podCh := tdel h.podCh c } F.podChStatState c 0
  else h

/-- A run that is wholly sent and acknowledged completes: DONE_AT and the local ordered post (R399); after an ARRIVE the hub's next one
is for the next generation (DEDUCED, log entry 33). -/
def runDone (h : Hub) (c : Nat) (r : PodRun) : Hub :=
  let h := setPodCh h c { podCh h c with runs := dropIf (podCh h c).runs fun y => y.k == r.k }
  let h := addFld h F.podChStatDoneAt c 1
  let i := numAt r.raw 16 8 % 64
  let h := if numAt r.raw 0 1 = 5 then { h with podGen := tset h.podGen i (tgetD h.podGen i 0 + 1) } else h
  let w := numAt r.raw 56 4
  if bitOf w 17 then semPost h .scaleOut (fld h F.podChCfgCtx c) (w % 2 ^ 17) (numAt r.raw 60 4) false else h

/-- DONE (R400): a status other than OK halts the channel. -/
def applyDone (h : Hub) (m : PodMsg) : Hub :=
  let id := m.arg % 2 ^ 32
  let status := bitsOf m.arg 35 32
  match h.podCh.findSome? fun e => (e.2.runs.find? fun r => r.due.contains id).map fun r => (e.1, r) with
  | none => h
  | some (c, r) =>
    let r := { r with due := r.due.erase id }
    let h := setPodCh h c { podCh h c with runs := mapIf (podCh h c).runs (fun y => y.k == r.k) fun _ => r }
    if chState h c = 3 then chSettle h c
    else if status != 0 then haltCh h c status r.k
    else if r.step = 3 && r.due.isEmpty then runDone h c r
    else h

/-- Apply one message. -/
def applyMsg (h : Hub) (src : Nat) (m : PodMsg) : Applied :=
  match m.typ with
  | 1 => applyPut h src m
  | 2 => applyPut h src m
  | 3 => applySem h src m
  | 4 => .done (applyArrive h src m)
  | 5 => .done (applyRelease h m)
  | 6 => .done (applyNotice h src m)
  | 7 => .done (applyBeat h src m)
  | _ => .done (applyDone h m)

/-- Apply what can be applied, each stream in its order (R395). -/
def podPump : Nat → List Nat → Hub → Hub
  | 0, _, h => h
  | n + 1, held, h =>
    match h.podRxQ.find? fun e => !held.contains e.1 with
    | none => h
    | some (s, m) =>
      match applyMsg h s m with
      | .done h => podPump n held { h with podRxQ := h.podRxQ.erase (s, m) }
      | .wait h => podPump n (s :: held) h

/-- A wait of a channel's command ended (R399): OK goes on; another status halts the channel with a status the spec does
not give (free). -/
def podWaited (h : Hub) (c status : Nat) : Hub :=
  match (podCh h c).runs.find? fun r => r.step == 1 with
  | none => h
  | some r =>
    if status = 0 then setPodCh h c { podCh h c with runs := mapIf (podCh h c).runs (fun y => y.k == r.k) fun y => { y with step := 2 } }
    else
      let (v, h) := drawFree h 4
      haltCh h c v r.k

end Sys2Proof.Machine
end

