-- ==== Sys2Proof/Machine/BindCore.lean ====
section
/-!
DEFINITION. Machine/BindCore.lean: weight binding (R449 to R454): the loader's queue, a package's header, its key and its chunks.
-/
namespace Sys2Proof.Machine

def bind (h : Hub) (i : Nat) : Bind := tgetD h.binds i {}
def setBind (h : Hub) (i : Nat) (b : Bind) : Hub := { h with binds := tset h.binds i b }
def region (h : Hub) (i : Nat) : Region := tgetD h.regions i {}
def setRegion (h : Hub) (i : Nat) (r : Region) : Hub := { h with regions := tset h.regions i r }

/-- Zeros over [a, a + n), whole sectors, mirrors included. -/
def zeroHbm (h : Hub) (a n : Nat) : Hub :=
  { h with hbm := dropIf h.hbm fun e => decide (a ≤ e.1) && decide (e.1 < a + n)
           poison := dropIf h.poison fun e => decide (a ≤ 32 * e.1) && decide (32 * e.1 < a + n) }

/-- The loader's requester in a translation request. -/
def loaderWho (i : Nat) : Nat := 0x30000 + i

/-- The first of the queue runs (R451). -/
def nextLoad (h : Hub) : Hub :=
  match h.bindQ with
  | [] => h
  | i :: _ => setBind h i { bind h i with status := 2 }

/-- A load ends with a status: the key is erased, and chunks written without the seal are overwritten with zeros (R452). -/
def loadEnd (h : Hub) (i status : Nat) : Hub :=
  let b := bind h i
  let h := if status != 3 then zeroHbm h (region h i).base (65536 * b.chunk) else h
  let h := { h with bindQ := h.bindQ.erase i
                    trReqs := dropIf h.trReqs fun t => t.who == loaderWho i }
  nextLoad (setBind h i { b with status := status, stage := 0, key := [], header := [], plain := 0, chunk := 0,
                                 fail := if b.stage = 2 && status != 3 then b.chunk else b.fail })

/-- The source context of a region's load. -/
def loadCtx (h : Hub) (i : Nat) : Nat := odNum h (OD.bindSrcCtx i) % 8192

/-- A context that is killed or torn down ends the loads from it ABORTED. -/
def abortLoads (h : Hub) (c : Nat) : Hub := each (h.bindQ.filter fun i => loadCtx h i == c) h fun h i => loadEnd h i 9

/-- Length of a package's header record (R449). -/
def headerLen (b : List Byte) : Nat := 120 + 48 * numAt b 6 1

/-- The header is in order for region `i` (R452 step 2). -/
def packageOk (h : Hub) (i : Nat) (b : List Byte) : Bool :=
  let n := numAt b 6 1
  let p := numAt b 8 8
  decide (numAt b 0 4 = 0x4B57424E) && decide (numAt b 4 2 = 1) && decide (1 ≤ n) && decide (n ≤ 64) && decide (numAt b 7 1 = 0)
    && decide (numAt b 20 4 = 0) && decide (p % 65536 = 0) && decide (65536 ≤ p) && decide (p ≤ (region h i).size)
    && ((b.drop (headerLen b)).all (· == 0)) && decide (odNum h (OD.bindPkgLen i) = 4096 + p + 16 * (p / 65536))

/-- The first record of the package that names this hub (R450). -/
def ownRecord (b : List Byte) : Option (List Byte) :=
  match (List.range (numAt b 6 1)).find? fun j => numAt b (120 + 48 * j) 8 == Config.deviceId % 2 ^ 64 with
  | some j => some (sliceB b (128 + 48 * j) 40)
  | none => none

/-- The loader can go on: it runs region `i`, whose source context is ACTIVE. -/
def loading (h : Hub) (i stage : Nat) : Bool := h.bindQ.head? == some i && (bind h i).stage == stage && ctxState h (loadCtx h i) == 2

/-- Steps 1 to 3 of R452: the header is read and checked, the key unwrapped. While a page or a completion is due, it waits; so it does
while the control half, which holds the crypto engine, is down. -/
def loadUnwrap (h : Hub) (i : Nat) : Hub :=
  if !loading h i 1 || h.ctlDown then h
  else match vaRead h (loadCtx h i) (odNum h (OD.bindSrcVa i)) 4096 (loaderWho i) with
    | (none, h) => h
    | (some (b, _), h) =>
      if !packageOk h i b then loadEnd h i 4
      else match ownRecord b with
        | none => loadEnd h i 5
        | some w => match Config.unwrapKey b w with
          | none => loadEnd h i 6
          | some k => setBind h i { bind h i with stage := 2, header := sliceB b 0 (headerLen b), plain := numAt b 8 8, key := k, chunk := 0 }

/-- The last chunk is written: the rest of the region is zeroed and the region sealed (R452 steps 5 and 6). -/
def loadSeal (h : Hub) (i : Nat) : Hub :=
  let b := bind h i
  let r := region h i
  let h := zeroHbm h (r.base + b.plain) (r.size - b.plain)
  let h := setRegion h i { r with state := 2, cmd := r.cmd }
  loadEnd (setBind h i { b with digest := Config.sha384 b.header }) i 3

/-- The loader writes whole sectors, whatever the region refuses to others; a FAILED port drops its own. -/
def loaderWrite (h : Hub) (a : Nat) (bs : List Byte) : Hub :=
  each (List.range (bs.length / 32)) h fun h k =>
    let d := a + 32 * k
    if portFailed h (portOf h d) then h else setPoison { h with hbm := h.hbm.writeN d (sliceB bs (32 * k) 32) } (d / 32) false

/-- Step 4 of R452 for the next chunk. -/
def loadChunk (h : Hub) (i : Nat) : Hub :=
  if !loading h i 2 then h
  else
    let b := bind h i
    let va := odNum h (OD.bindSrcVa i)
    let c := b.chunk
    let h0 := h
    match vaRead h (loadCtx h i) (va + 4096 + 65536 * c) 65536 (loaderWho i) with
    | (none, h) => h
    | (some (ct, bad), h) =>
      match vaRead h (loadCtx h i) (va + 4096 + b.plain + 16 * c) 16 (loaderWho i) with
      | (none, h) => { h with hostHave := h0.hostHave }
      | (some (tag, tbad), h) =>
        if !bad.isEmpty || !tbad.isEmpty then loadEnd h i 10
        else match Config.aesGcmOpen b.key (sliceB b.header 16 4 ++ beBytes 8 c) (Config.sha384 b.header) (ct ++ tag) with
          | none => loadEnd h i 7
          | some pt =>
            let h := loaderWrite h ((region h i).base + 65536 * c) (sliceB pt 0 65536)
            let h := setBind h i { b with chunk := c + 1 }
            if b.plain ≤ 65536 * (c + 1) then loadSeal h i else h

/-- LOAD (R451): the code of its refusal, or 0. -/
def bindLoad (h : Hub) (i : Nat) : Nat × Hub :=
  let r := region h i
  if h.bindQ.contains i then (8, h)
  else if !r.bound || r.state != 1 || h.mg.cells == 0 || ctxState h (loadCtx h i) != 2 then (7, h)
  else (0, nextLoad (setBind { h with bindQ := h.bindQ ++ [i] } i { bind h i with cmd := 1, status := 1, stage := 1 }))

/-- ABORT: where no load is queued or running it has nothing to end. -/
def bindAbort (h : Hub) (i : Nat) : Nat × Hub :=
  if h.bindQ.contains i then (0, loadEnd (setBind h i { bind h i with cmd := 2 }) i 9) else (7, h)

/-- RELEASE of a bound region (R454): its load ends, zeros go over it, it is no longer marked. -/
def releaseBound (h : Hub) (i : Nat) : Hub :=
  let h := if h.bindQ.contains i then loadEnd h i 9 else h
  let r := region h i
  let h := if r.bound then zeroHbm h r.base r.size else h
  setOdNum h (OD.bindEn i) 1 0

end Sys2Proof.Machine
end

