-- ==== Sys2Proof/Machine/CasCore.lean ====
section
/-!
DEFINITION. Machine/CasCore.lean: cassette pools in memory (R129 to R132), their stacks, counts and lists (R137, R139,
R141), the records of the operations (R134 to R136), binding (R129) and unbinding (R151).
-/
namespace Sys2Proof.Machine

/-! ### Geometry (R128 to R130) -/

def Pool.bytesPer (p : Pool) : Nat := if p.fmt = 2 || p.fmt = 3 then 2 else 1
def Pool.rowBytes (p : Pool) : Nat := p.dim * p.bytesPer
def Pool.layerPage (p : Pool) : Nat := 2 * p.heads * p.page * p.rowBytes
def Pool.frameBytes (p : Pool) : Nat := ceilDiv (p.layers * p.layerPage) 4096 * 4096
def up4k (n : Nat) : Nat := ceilDiv n 4096 * 4096

/-- Offsets of the reference counts, the two stacks, the list blocks and the frames; the region's length. -/
def Pool.counts (p : Pool) : Nat := up4k (64 * p.slots)
def Pool.frameStack (p : Pool) : Nat := p.counts + up4k (2 * p.frames)
def Pool.listStack (p : Pool) : Nat := p.frameStack + up4k (4 * p.frames)
def Pool.blocks (p : Pool) : Nat := p.listStack + up4k (4 * p.lists)
def Pool.frameArea (p : Pool) : Nat := p.blocks + 4096 * p.lists
def Pool.size (p : Pool) : Nat := p.frameArea + p.frames * p.frameBytes

/-- Offset of the row of layer l, head g, token offset t of a frame; `v` the value row (R130). -/
def Pool.rowOff (p : Pool) (frame l g t : Nat) (v : Bool) : Nat :=
  p.frameArea + frame * p.frameBytes + l * p.layerPage + (g * p.page + t) * p.rowBytes + (if v then p.heads * p.page * p.rowBytes else 0)

/-! ### Memory of a pool, through its own map (R129) -/

/-- DPA of byte `off` of the region. -/
def Pool.dpa (p : Pool) (off : Nat) : Nat :=
  let va := p.base + off
  match p.map.find? fun e => decide (e.va ≤ va) && decide (va < e.va + 2 ^ e.size) with
  | some e => e.target va
  | none => 0

/-- `n` bytes at `off`, inside one page; poisoned bytes read as 0. -/
def poolRead (h : Hub) (p : Pool) (off n : Nat) : Nat := leNat ((homeRead h (p.dpa off) n).1)

/-- Store at the home of a pool's line: agents' copies are invalidated (R208). -/
def poolStore (h : Hub) (p : Pool) (off : Nat) (bs : List Byte) (bad : Bool) : Hub :=
  let d := p.dpa off
  let h := match dirFind h (d / 64) with
    | some (_, e) => if lineBusy h (d / 64) then h else invalidateEntry h e
    | none => h
  (homeWriteAll (bs.length / 32 + 2) h d bs bad).2

def poolWrite (h : Hub) (p : Pool) (off n v : Nat) : Hub := poolStore h p off (leBytes n v) false

/-- Copy `n` 4 KiB pages, with their poison. -/
def poolCopy (h : Hub) (p : Pool) (src dst n : Nat) : Hub :=
  each (List.range (n * 128)) h fun h i =>
    let (bs, bad) := homeSector h (p.dpa (src + 32 * i) / 32)
    poolStore h p (dst + 32 * i) bs bad

def poolZero (h : Hub) (p : Pool) (off : Nat) : Hub :=
  each (List.range 128) h fun h i => poolStore h p (off + 32 * i) (List.replicate 32 0) false

/-! ### Counts, stacks and lists -/

def casKey (cas slot : Nat) : Nat := cas * 512 + slot
def poolOf (h : Hub) (k : Nat) : Option Pool := (tget h.pools k).filter fun p => p.next.isNone
def casSlot (h : Hub) (cas slot : Nat) : Option CasSlot := tget h.casSlots (casKey cas slot)
def freeFrames (h : Hub) (k : Nat) : Nat := fld h F.casPoolStatFreeFrames k
def freeLists (h : Hub) (k : Nat) : Nat := fld h F.casPoolStat2FreeLists k

/-- The slot record in the pool's slot area (R132). -/
def writeRecord (h : Hub) (p : Pool) (slot : Nat) (r : Option CasSlot) : Hub :=
  let bs := match r with
    | some s => leBytes 4 s.len ++ leBytes 4 s.fresh ++ leBytes 4 s.root ++ leBytes 1 1 ++ List.replicate 51 0
    | none => List.replicate 64 0
  let off := 64 * (slot - p.slot0)
  poolStore (poolStore h p off (bs.take 32) false) p (off + 32) (bs.drop 32) false

/-- Change a slot in the store and in the slot area. -/
def putSlot (h : Hub) (p : Pool) (cas slot : Nat) (r : Option CasSlot) : Hub :=
  let k := casKey cas slot
  let h := { h with casSlots := match r with
      | some s => tset h.casSlots k s
      | none => tdel h.casSlots k }
  let h := setFld h F.casStatusOpenSlots cas (h.casSlots.filter fun e => e.1 / 512 == cas).length
  writeRecord h p slot r

def frameCount (h : Hub) (p : Pool) (f : Nat) : Nat := poolRead h p (p.counts + 2 * f) 2
def setFrameCount (h : Hub) (p : Pool) (f v : Nat) : Hub := poolWrite h p (p.counts + 2 * f) 2 v

/-- Take the top of a stack; none where the value is out of range (R141). -/
def popFrame (h : Hub) (p : Pool) (k : Nat) : Option (Nat × Hub) :=
  let n := freeFrames h k
  let v := poolRead h p (p.frameStack + 4 * (n - 1)) 4
  if n = 0 || p.frames ≤ v then none else some (v, setFld h F.casPoolStatFreeFrames k (n - 1))
def popList (h : Hub) (p : Pool) (k : Nat) : Option (Nat × Hub) :=
  let n := freeLists h k
  let v := poolRead h p (p.listStack + 4 * (n - 1)) 4
  if n = 0 || p.lists ≤ v then none else some (v, setFld h F.casPoolStat2FreeLists k (n - 1))
def pushFrame (h : Hub) (p : Pool) (k v : Nat) : Hub :=
  let n := freeFrames h k
  setFld (poolWrite h p (p.frameStack + 4 * n) 4 v) F.casPoolStatFreeFrames k (n + 1)
def pushList (h : Hub) (p : Pool) (k v : Nat) : Hub :=
  let n := freeLists h k
  setFld (poolWrite h p (p.listStack + 4 * n) 4 v) F.casPoolStat2FreeLists k (n + 1)

/-- An entry of a list block (R131): 0 invalid, else the index plus one; `limit` bounds the index, an index beyond it is
none (R141). -/
def entryAt (h : Hub) (p : Pool) (block i limit : Nat) : Option Nat :=
  let v := poolRead h p (p.blocks + 4096 * block + 8 * i) 8
  if !bitOf v 63 then some 0 else if limit ≤ v % 2 ^ 20 then none else some (v % 2 ^ 20 + 1)
def setEntry (h : Hub) (p : Pool) (block i : Nat) (v : Option Nat) : Hub :=
  poolWrite h p (p.blocks + 4096 * block + 8 * i) 8 (match v with
    | some x => x + 2 ^ 63
    | none => 0)

/-- Leaf block of page `n` under a root: some 0 where the root has none. -/
def leafOf (h : Hub) (p : Pool) (root n : Nat) : Option Nat := entryAt h p root (n / 512) p.lists

/-- Frame of page `n`: some 0 where no page is listed. -/
def frameOf (h : Hub) (p : Pool) (root n : Nat) : Option Nat :=
  match leafOf h p root n with
  | none => none
  | some 0 => some 0
  | some (l + 1) => entryAt h p l (n % 512) p.frames

/-- The frame of a page that must exist (R141). -/
def mustFrame (h : Hub) (p : Pool) (root n : Nat) : Option Nat :=
  match frameOf h p root n with
  | some (f + 1) => some f
  | _ => none
def mustLeaf (h : Hub) (p : Pool) (root n : Nat) : Option Nat :=
  match leafOf h p root n with
  | some (l + 1) => some l
  | _ => none

/-- The list without its nones; none where it has one. -/
def allSome {α : Type} (xs : List (Option α)) : Option (List α) := if xs.all Option.isSome then some (xs.filterMap id) else none

/-! ### Records (R134 to R136) -/

structure CasReq where
  slot  : Nat
  layer : Nat
  head0 : Nat
  heads : Nat
  arg0  : Nat
  arg1  : Nat
deriving DecidableEq, Repr

def casReq (r : List Byte) : CasReq := ⟨numAt r 0 2, numAt r 2 1, numAt r 3 1 % 64, numAt r 4 1, numAt r 8 4, numAt r 12 4⟩

/-- What one record did: the result code, the slot acted on, frames taken and freed. -/
structure CasRes where
  code  : Nat
  slot  : Nat := 0
  taken : Nat := 0
  freed : Nat := 0
deriving DecidableEq, Repr

/-- Subtract 1 from the counts of frames, returning those that reach 0; none where a count is 0 already. -/
def dropFrames (p : Pool) (k : Nat) : List Nat → Hub → Option (Nat × Hub)
  | [], h => some (0, h)
  | f :: r, h =>
    let c := frameCount h p f
    if c = 0 then none
    else
      let h := setFrameCount h p f (c - 1)
      if c = 1 then (dropFrames p k r (pushFrame h p k f)).map fun e => (e.1 + 1, e.2) else dropFrames p k r h

/-- Pages that tokens [0, n) fill. -/
def Pool.pagesFor (p : Pool) (n : Nat) : Nat := ceilDiv n p.page

/-- OPEN (R135). -/
def casOpen (h : Hub) (cas k : Nat) (p : Pool) : CasRes × Hub :=
  match (List.range p.slots).find? fun i => (casSlot h cas (p.slot0 + i)).isNone with
  | none => (⟨1, 0, 0, 0⟩, h)
  | some i =>
    if freeLists h k = 0 then (⟨3, 0, 0, 0⟩, h)
    else match popList h p k with
      | none => (⟨7, 0, 0, 0⟩, raise h E.casListBad cas)
      | some (b, h) => (⟨0, i, 0, 0⟩, putSlot (poolZero h p (p.blocks + 4096 * b)) p cas (p.slot0 + i) (some ⟨0, 0, b⟩))

/-- Take `n` list blocks. -/
def takeLists (p : Pool) (k : Nat) : Nat → Hub → Option (List Nat × Hub)
  | 0, h => some ([], h)
  | n + 1, h => match popList h p k with
    | none => none
    | some (b, h) => (takeLists p k n (poolZero h p (p.blocks + 4096 * b))).map fun e => (b :: e.1, e.2)

/-- FORK (R135): the child's lists hold the pages of [0, T) and no other. -/
def casFork (h : Hub) (cas k : Nat) (p : Pool) (q : CasReq) : CasRes × Hub :=
  let h0 := h
  match casSlot h cas (p.slot0 + q.slot) with
  | none => (⟨5, q.slot, 0, 0⟩, h)
  | some s =>
    let n := p.pagesFor q.arg0
    let leaves := ceilDiv n 512
    if s.len < q.arg0 then (⟨5, q.slot, 0, 0⟩, h)
    else match (List.range p.slots).find? fun i => (casSlot h cas (p.slot0 + i)).isNone with
      | none => (⟨1, q.slot, 0, 0⟩, h)
      | some i =>
        if freeLists h k < 1 + leaves then (⟨3, q.slot, 0, 0⟩, h)
        else match allSome ((List.range n).map (mustFrame h p s.root)) with
          | none => (⟨7, q.slot, 0, 0⟩, raise h0 E.casListBad cas)
          | some fs =>
            if fs.any fun f => frameCount h p f == 65535 then (⟨6, q.slot, 0, 0⟩, h)
            else match takeLists p k (1 + leaves) h with
              | none => (⟨7, q.slot, 0, 0⟩, raise h0 E.casListBad cas)
              | some (bs, h) =>
                let root := bs.headD 0
                let h := each (List.range leaves) h fun h j => setEntry h p root j (some (bs.getD (j + 1) 0))
                let h := each fs.zipIdx h fun h e => setEntry h p (bs.getD (e.2 / 512 + 1) 0) (e.2 % 512) (some e.1)
                let h := each fs h fun h f => setFrameCount h p f (frameCount h p f + 1)
                (⟨0, i, 0, 0⟩, putSlot h p cas (p.slot0 + i) (some ⟨q.arg0, 0, root⟩))

/-- The rows of APPEND: token `i` of IN1 row `i` into layer `l` (R130, R137). -/
def casStore (h : Hub) (cas : Nat) (p : Pool) (root at_ l : Nat) (rows : List RowData) : Hub :=
  let h := each rows.zipIdx h fun h e =>
    match mustFrame h p root ((at_ + e.2) / p.page) with
    | none => h
    | some f =>
      each (List.range (2 * p.heads)) h fun h g =>
        each (List.range (p.rowBytes / 32)) h fun h i =>
          let o := g * p.rowBytes + 32 * i
          poolStore h p (p.rowOff f l (g % p.heads) ((at_ + e.2) % p.page) (decide (p.heads ≤ g)) + 32 * i)
            (sliceB e.1.bytes o 32) (e.1.bad.contains (o / 32))
  addFld h F.casBytesBytes cas (rows.length * 2 * p.heads * p.rowBytes)

/-- Reserve one page of APPEND (R137, R139): a missing page gets a leaf where it needs one and a frame; a shared one is
copied. The frames taken so far ride along. -/
def reservePage (cas k : Nat) (p : Pool) (root n : Nat) (h : Hub) : Option (Nat × Hub) :=
  let withLeaf : Option (Nat × Hub) := match leafOf h p root n with
    | none => none
    | some (l + 1) => some (l, h)
    | some 0 => match popList h p k with
      | none => none
      | some (b, h) => some (b, setEntry (poolZero h p (p.blocks + 4096 * b)) p root (n / 512) (some b))
  match withLeaf with
  | none => none
  | some (l, h) =>
    match entryAt h p l (n % 512) p.frames with
    | none => none
    | some 0 => match popFrame h p k with
      | none => none
      | some (f, h) => some (1, setFrameCount (setEntry h p l (n % 512) (some f)) p f 1)
    | some (f + 1) =>
      let c := frameCount h p f
      if c = 0 then none
      else if c = 1 then some (0, h)
      else match popFrame h p k with
        | none => none
        | some (g, h) =>
          let h := poolCopy h p (p.frameArea + f * p.frameBytes) (p.frameArea + g * p.frameBytes) (p.frameBytes / 4096)
          let h := addFld h F.casBytesBytes cas p.frameBytes
          let h := setFrameCount (setFrameCount (setEntry h p l (n % 512) (some g)) p g 1) p f (c - 1)
          some (1, raise h E.casCow cas)

def reservePages (cas k : Nat) (p : Pool) (root : Nat) : List Nat → Hub → Option (Nat × Hub)
  | [], h => some (0, h)
  | n :: r, h => match reservePage cas k p root n h with
    | none => none
    | some (t, h) => (reservePages cas k p root r h).map fun e => (t + e.1, e.2)

/-- APPEND (R135, R137). A layer the pool has not, no token, or rows that IN1 has not, is answered BAD_STATE (DESIGN
CHOICE, log entry 14). -/
def casAppend (h : Hub) (cas k : Nat) (p : Pool) (q : CasReq) (in1 : List RowData) : CasRes × Hub :=
  let h0 := h
  match casSlot h cas (p.slot0 + q.slot) with
  | none => (⟨5, q.slot, 0, 0⟩, h)
  | some s =>
    let rows := (in1.drop q.arg1).take q.arg0
    if q.arg0 = 0 || p.layers ≤ q.layer || rows.length < q.arg0 then (⟨5, q.slot, 0, 0⟩, h)
    else if s.fresh != 0 && s.fresh != q.arg0 then (⟨5, q.slot, 0, 0⟩, h)
    else if 2097152 < s.len + q.arg0 then (⟨4, q.slot, 0, 0⟩, h)
    else if s.fresh != 0 then (⟨0, q.slot, 0, 0⟩, casStore h cas p s.root s.len q.layer rows)
    else
      let first := s.len / p.page
      let pages := (List.range ((s.len + q.arg0 - 1) / p.page - first + 1)).map (· + first)
      let needF := (pages.filter fun n => match frameOf h p s.root n with
        | some (f + 1) => decide (1 < frameCount h p f)
        | some 0 => true
        | none => false).length
      let needL := ((pages.map (· / 512)).eraseDups.filter fun j => leafOf h p s.root (512 * j) == some 0).length
      if freeFrames h k < needF then (⟨2, q.slot, 0, 0⟩, h)
      else if freeLists h k < needL then (⟨3, q.slot, 0, 0⟩, h)
      else match reservePages cas k p s.root pages h with
        | none => (⟨7, q.slot, 0, 0⟩, raise h0 E.casListBad cas)
        | some (t, h) =>
          let h := putSlot h p cas (p.slot0 + q.slot) (some { s with fresh := q.arg0 })
          (⟨0, q.slot, t, 0⟩, casStore h cas p s.root s.len q.layer rows)

/-- ADVANCE (R135). -/
def casAdvance (h : Hub) (cas : Nat) (p : Pool) (q : CasReq) : CasRes × Hub :=
  match casSlot h cas (p.slot0 + q.slot) with
  | none => (⟨5, q.slot, 0, 0⟩, h)
  | some s => (⟨0, q.slot, 0, 0⟩, putSlot h p cas (p.slot0 + q.slot) (some { s with len := s.len + s.fresh, fresh := 0 }))

/-- Give up pages [from, to) of a root: their frames, their entries, and the leaf blocks from `leaf0` on. -/
def cutPages (h : Hub) (k : Nat) (p : Pool) (root from_ goal leaf0 : Nat) : Option (Nat × Hub) :=
  let pages := (List.range (goal - from_)).map (· + from_)
  let leaves := (List.range (ceilDiv goal 512 - leaf0)).map (· + leaf0)
  match allSome (pages.map (mustFrame h p root)), allSome (leaves.map fun j => mustLeaf h p root (512 * j)) with
  | some fs, some ls =>
    match dropFrames p k fs h with
    | none => none
    | some (n, h) =>
      let h := each pages h fun h i => match mustLeaf h p root i with
        | some l => setEntry h p l (i % 512) none
        | none => h
      let h := each (leaves.zip ls) h fun h e => pushList (setEntry h p root e.1 none) p k e.2
      some (n, h)
  | _, _ => none

/-- TRIM (R135). -/
def casTrim (h : Hub) (cas k : Nat) (p : Pool) (q : CasReq) : CasRes × Hub :=
  match casSlot h cas (p.slot0 + q.slot) with
  | none => (⟨5, q.slot, 0, 0⟩, h)
  | some s =>
    if s.len < q.arg0 || s.fresh != 0 then (⟨5, q.slot, 0, 0⟩, h)
    else match cutPages h k p s.root (p.pagesFor q.arg0) (p.pagesFor s.len) (ceilDiv (p.pagesFor q.arg0) 512) with
      | none => (⟨7, q.slot, 0, 0⟩, raise h E.casListBad cas)
      | some (n, h) => (⟨0, q.slot, 0, n⟩, putSlot h p cas (p.slot0 + q.slot) (some { s with len := q.arg0 }))

/-- CLOSE (R135). -/
def casClose (h : Hub) (cas k : Nat) (p : Pool) (q : CasReq) : CasRes × Hub :=
  match casSlot h cas (p.slot0 + q.slot) with
  | none => (⟨5, q.slot, 0, 0⟩, h)
  | some s =>
    match cutPages h k p s.root 0 (p.pagesFor (s.len + s.fresh)) 0 with
    | none => (⟨7, q.slot, 0, 0⟩, raise h E.casListBad cas)
    | some (n, h) => (⟨0, q.slot, 0, n⟩, putSlot (pushList h p k s.root) p cas (p.slot0 + q.slot) none)

/-- One record of operations 1 to 6 (R135, R136): its 32 result bytes. A hole is SKIPPED; a slot outside the pool's range
is BAD_STATE. `LEN` is 0 where the record names no slot of the pool's (DESIGN CHOICE, log entry 14). -/
def casRecord (cas k op : Nat) (p : Pool) (in1 : List RowData) (h : Hub) (r : RowData) : List Byte × Hub :=
  let q := casReq r.bytes
  let (res, h) : CasRes × Hub :=
    if op = 1 then casOpen h cas k p
    else if q.slot = 0xFFFF then (⟨8, 0xFFFF, 0, 0⟩, h)
    else if p.slots ≤ q.slot then (⟨5, q.slot, 0, 0⟩, h)
    else if op = 2 then casFork h cas k p q
    else if op = 3 then casAppend h cas k p q in1
    else if op = 4 then casAdvance h cas p q
    else if op = 5 then casTrim h cas k p q
    else casClose h cas k p q
  let named := decide (res.slot < p.slots) && !(op == 1 && res.code != 0)
  let len := if named then ((casSlot h cas (p.slot0 + res.slot)).map (·.len)).getD 0 else 0
  (leBytes 4 res.code ++ leBytes 4 res.slot ++ leBytes 4 len ++ leBytes 4 res.taken ++ leBytes 4 res.freed ++ List.replicate 12 0, h)

/-- The records in row order; their result rows. A poisoned record is not carried out and its result is poisoned (DEDUCED from R98,
log entry 27). -/
def casRecords (cas k op : Nat) (p : Pool) (in1 : List RowData) : List RowData → Hub → List RowData × Hub
  | [], h => ([], h)
  | r :: rest, h =>
    let (b, h) : RowData × Hub := if r.poisoned then ({ bytes := List.replicate 32 0, bad := [0] }, h)
      else let (b, h) := casRecord cas k op p in1 h r; ({ bytes := b }, h)
    let (bs, h) := casRecords cas k op p in1 rest h
    (b :: bs, h)

/-! ### Gathers (R138) -/

/-- Tokens and heads a gather record names. -/
def gatherSpan (p : Pool) (s : CasSlot) (q : CasReq) : Nat × Nat :=
  (if q.arg1 = 0 then s.len + s.fresh - q.arg0 else q.arg1, if q.heads = 0 then p.heads - q.head0 else q.heads)

/-- The record passes R138's checks. -/
def gatherOk (h : Hub) (cas : Nat) (p : Pool) (q : CasReq) : Bool :=
  q.slot == 0xFFFF || (decide (q.slot < p.slots) && decide (q.layer < p.layers) && match casSlot h cas (p.slot0 + q.slot) with
    | none => false
    | some s =>
      let (n, g) := gatherSpan p s q
      decide (q.head0 + g ≤ p.heads) && decide (q.arg0 + n ≤ s.len + s.fresh) && g != 0)

/-- Rows a record adds. -/
def gatherRows (h : Hub) (cas : Nat) (p : Pool) (q : CasReq) : Nat :=
  if q.slot = 0xFFFF then 0 else match casSlot h cas (p.slot0 + q.slot) with
    | none => 0
    | some s => (gatherSpan p s q).1 * (gatherSpan p s q).2

/-- The rows of a record, head by head, token by token; none for a row whose list entry fails R141. -/
def gatherRecord (h : Hub) (cas : Nat) (p : Pool) (v : Bool) (q : CasReq) : List (Option RowData) :=
  if q.slot = 0xFFFF then [] else match casSlot h cas (p.slot0 + q.slot) with
    | none => []
    | some s =>
      let (n, g) := gatherSpan p s q
      (List.range g).flatMap fun i => (List.range n).map fun t =>
        (mustFrame h p s.root ((q.arg0 + t) / p.page)).map fun f =>
          let d := p.dpa (p.rowOff f q.layer (q.head0 + i) ((q.arg0 + t) % p.page) v)
          let secs := (List.range (p.rowBytes / 32)).map fun j => homeSector h (d / 32 + j)
          { bytes := secs.flatMap (·.1), bad := (secs.zipIdx.filter (·.1.2)).map (·.2) }

/-! ### Binding (R129, R151) -/

/-- The geometry the pool registers name. -/
def poolRegs (h : Hub) (k : Nat) : Pool :=
  { ctx := fld h F.casPoolOwnContext k, base := fld h F.casPoolBaseBase k, page := 16 * 2 ^ fld h F.casPoolGeomPageLog k,
    layers := fld h F.casPoolGeomLayers k, heads := fld h F.casPoolGeomHeads k, dim := fld h F.casPoolGeomHeadDim k,
    fmt := fld h F.casPoolGeomFormat k, frames := fld h F.casPoolSizeFrames k, lists := fld h F.casPoolSizeLists k,
    slot0 := fld h F.casPoolOwnSlotBase k, slots := fld h F.casPoolOwnSlotCount k, next := some 0 }

/-- The geometry lies in R128's ranges, the base is 2 MiB aligned and the region inside the address space (R129). -/
def Pool.legal (p : Pool) : Bool :=
  decide (1 ≤ p.layers) && decide (1 ≤ p.heads) && decide (p.heads ≤ 64) && decide (1 ≤ p.dim) && decide (p.dim ≤ 1024)
    && p.rowBytes % 32 == 0 && decide (1 ≤ p.frames) && decide (p.frames ≤ 1048576) && decide (2 ≤ p.lists)
    && decide (p.lists ≤ 262143) && decide (1 ≤ p.slots) && decide (p.slots ≤ 512) && decide (p.slot0 + p.slots ≤ 512)
    && p.base % 2 ^ 21 == 0 && decide (p.base + p.size ≤ 2 ^ 57)

/-- End a BIND with a result. -/
def bindEnd (h : Hub) (k result : Nat) : Hub :=
  let h := setFld (setFld h F.casPoolCtlBind k 0) F.casPoolCtlResult k result
  if result = 0 then h else { h with pools := tdel h.pools k }

/-- Free indices 0 to n - 1 in the order BIND stacks them; fuel at least n. -/
def fillOrder : Nat → Nat → List Nat → List Nat
  | 0, _, _ => []
  | f + 1, k, xs => if xs.isEmpty then [] else
    let i := Config.stackFill (xs.length + k) k % xs.length
    xs.getD i 0 :: fillOrder f (k + 1) (xs.eraseIdx i)

/-- Every page is translated: counts to 0, both stacks filled, every slot free (R129). -/
def bindFinish (h : Hub) (k : Nat) (p : Pool) : Hub :=
  let h := { h with pools := tset h.pools k { p with next := none } }
  let h := each (List.range p.frames) h fun h f => setFrameCount h p f 0
  let h := each (fillOrder p.frames 0 (List.range p.frames)).zipIdx h fun h e => poolWrite h p (p.frameStack + 4 * e.2) 4 e.1
  let h := each (fillOrder p.lists 0 (List.range p.lists)).zipIdx h fun h e => poolWrite h p (p.listStack + 4 * e.2) 4 e.1
  let h := each (List.range p.slots) h fun h i => writeRecord h p (p.slot0 + i) none
  let h := setFld (setFld (setFld h F.casPoolStatState k 1) F.casPoolStatFreeFrames k p.frames) F.casPoolStat2FreeLists k p.lists
  bindEnd h k 0

/-- Translate the region from byte `off` on, as far as the ATC holds it: the requester is the cassette's station. A page in
host memory ends the BIND with result 3 and is a RANGE fault (R364). -/
def bindWalk : Nat → Hub → Nat → Pool → Nat → Hub
  | 0, h, _, _, _ => h
  | n + 1, h, k, p, off =>
    if p.size ≤ off then bindFinish h k p
    else match lookup h p.ctx (p.base + off) true (0x30 + k / 32) with
      | (none, h) => { h with pools := tset h.pools k { p with next := some off } }
      | (some e, h) => if e.host then trFault (bindEnd h k 3) p.ctx 3 true true (0x30 + k / 32) (p.base + off)
        else bindWalk n h k { p with map := e :: p.map } (e.va + 2 ^ e.size - p.base)

/-- Go on with the BINDs of a context after a translation; `fault` ends those that wait for the page with result 3. -/
def bindResume (h : Hub) (c va : Nat) (fault : Bool) : Hub :=
  each h.pools h fun h e => match e.2.next with
    | none => h
    | some off =>
      if e.2.ctx != c then h
      else if fault then (if (e.2.base + off) / 4096 == va / 4096 then bindEnd h e.1 3 else h)
      else bindWalk (e.2.size / 4096 + 1) h e.1 e.2 off

/-- BIND of pool `k` (R129, R151). The result codes are tried in the order 1, 5, 2, 4, 3 (DESIGN CHOICE, log entry 15). -/
def casBind (h : Hub) (k : Nat) : Hub :=
  let p := poolRegs h k
  if (tget h.pools k).isSome then setFld h F.casPoolCtlResult k 1
  else if 4 < fld h F.casPoolGeomPageLog k || p.fmt < 2 || 5 < p.fmt then setFld h F.casPoolCtlResult k 5
  else if !p.legal then setFld h F.casPoolCtlResult k 2
  else if h.pools.any fun e => e.1 / 32 == k / 32 && decide (e.2.slot0 < p.slot0 + p.slots) && decide (p.slot0 < e.2.slot0 + e.2.slots) then
    setFld h F.casPoolCtlResult k 4
  else if ctxState h p.ctx != 2 then setFld h F.casPoolCtlResult k 3
  else bindWalk (p.size / 4096 + 1) (setFld { h with pools := tset h.pools k p } F.casPoolCtlBind k 1) k p 0

/-- Slots of a pool that are open. -/
def openSlots (h : Hub) (k : Nat) (p : Pool) : List Nat :=
  (h.casSlots.filter fun e => e.1 / 512 == k / 32 && decide (p.slot0 ≤ e.1 % 512) && decide (e.1 % 512 < p.slot0 + p.slots)).map (·.1)

/-- A pool leaves its context. -/
def dropPool (h : Hub) (k : Nat) : Hub :=
  let h := setFld (setFld { h with pools := tdel h.pools k } F.casPoolStatState k 0) F.casPoolCtlBind k 0
  setFld (setFld h F.casPoolStatFreeFrames k 0) F.casPoolStat2FreeLists k 0

/-- UNBIND (R151): refused while a slot is open. -/
def casUnbind (h : Hub) (k : Nat) : Hub :=
  match tget h.pools k with
  | none => setFld h F.casPoolCtlResult k 0
  | some p =>
    if p.next.isSome then setFld h F.casPoolCtlResult k 1
    else if !(openSlots h k p).isEmpty then setFld h F.casPoolCtlResult k 6
    else setFld (dropPool h k) F.casPoolCtlResult k 0

/-- Teardown closes the context's slots and unbinds its pools (R141, R361). -/
def casUnbindCtx (h : Hub) (c : Nat) : Hub :=
  each (h.pools.filter fun e => e.2.ctx == c) h fun h e =>
    let open_ := openSlots h e.1 e.2
    let h := { h with casSlots := dropIf h.casSlots fun s => open_.contains s.1 }
    let h := setFld h F.casStatusOpenSlots (e.1 / 32) (h.casSlots.filter fun s => s.1 / 512 == e.1 / 32).length
    dropPool h e.1

/-- An invalidation that covers a page of a bound pool breaks it (R141). -/
def casBreak (h : Hub) (hit : Pool → Bool) : Hub :=
  each (h.pools.filter fun e => e.2.next.isNone && hit e.2 && fld h F.casPoolStatState e.1 == 1) h fun h e =>
    raise (setFld h F.casPoolStatState e.1 2) E.casPoolBroken (e.1 / 32)

end Sys2Proof.Machine
end

