-- ==== Sys2Proof/Machine/DispCore.lean ====
section
/-!
DEFINITION. Machine/DispCore.lean: what the dispatcher keeps of commands and queues: tiles and their footprints
(R40 to R46), the steps of a command (R53), completion records (R59, R60), posts, halts (R61), and the scoreboard (R65).
-/
namespace Sys2Proof.Machine

/-- The data half runs: neither in reset nor frozen (R18, R20). -/
def running (h : Hub) : Bool := dataUp h && !frozen h

/-! ### Tiles (R40 to R46) -/

/-- The tile of a 64-byte descriptor (R40). -/
def tileOf (d : List Byte) : Tile :=
  let w := numAt d 8 8
  { base := numAt d 0 8, rowLen := bitsOf w 15 0, rowCount := bitsOf w 35 16, planeCount := bitsOf w 47 36,
    format := bitsOf w 55 48, rowPitch := numAt d 16 4, planePitch := numAt d 20 4, scaleBase := numAt d 24 8,
    scalePitch := numAt d 32 4, scalePlanePitch := numAt d 36 4 }

/-- Scale bytes per row (R41). -/
def scaleLen (t : Tile) : Nat :=
  if t.format = 8 || t.format = 9 then t.rowLen * 4 / 3
  else if t.format = 10 then t.rowLen * 2
  else if isMx t.format then t.rowLen
  else 0

def Tile.empty (t : Tile) : Bool := t.rowLen == 0 || t.rowCount == 0 || t.planeCount == 0

/-- Address of row r of plane p, and of its scale row (R42). -/
def Tile.rowAt (t : Tile) (p r : Nat) : Nat := t.base + p * t.planePitch + r * t.rowPitch
def Tile.scaleAt (t : Tile) (p r : Nat) : Nat := t.scaleBase + p * t.scalePlanePitch + r * t.scalePitch

/-- Extent lengths of the tile and of its scale area (R42). -/
def Tile.extent (t : Tile) : Nat := (t.planeCount - 1) * t.planePitch + (t.rowCount - 1) * t.rowPitch + t.rowLen * 32
def Tile.scaleExtent (t : Tile) : Nat :=
  if scaleLen t = 0 then 0 else (t.planeCount - 1) * t.scalePlanePitch + (t.rowCount - 1) * t.scalePitch + scaleLen t

/-- The byte runs (address, length) of rows [r0, r0 + n) of planes [p0, p0 + m), elements and scales (R42). -/
def Tile.runs (t : Tile) (p0 m r0 n : Nat) : List (Nat × Nat) :=
  (List.range m).flatMap fun p => (List.range n).flatMap fun r =>
    (t.rowAt (p0 + p) (r0 + r), t.rowLen * 32) ::
      (if scaleLen t = 0 then [] else [(t.scaleAt (p0 + p) (r0 + r), scaleLen t)])

/-- The whole footprint; of an empty tile, nothing (R46). -/
def Tile.foot (t : Tile) : List (Nat × Nat) := if t.empty then [] else t.runs 0 t.planeCount 0 t.rowCount

/-- The 4 KiB pages that byte runs touch, each once. -/
def pagesOf (rs : List (Nat × Nat)) : List Nat :=
  (rs.flatMap fun e => if e.2 = 0 then [] else
    (List.range ((e.1 + e.2 - 1) / 4096 - e.1 / 4096 + 1)).map fun i => e.1 / 4096 + i).eraseDups

/-- The 32-byte sectors (by number, VA / 32) that byte runs touch. -/
def sectorsIn (rs : List (Nat × Nat)) : List Nat := (rs.flatMap fun e => sectorsOf e.1 e.2).eraseDups

/-! ### A command's fields (R50) -/

def Cmd.opcode (c : Cmd) : Nat := numAt c.raw 0 1
def Cmd.bit1 (c : Cmd) (i : Nat) : Bool := bitOf (numAt c.raw 1 1) i
def Cmd.tag (c : Cmd) : Nat := numAt c.raw 4 4
def Cmd.param (c : Cmd) : Nat := numAt c.raw 56 8
def Cmd.rangeKind (c : Cmd) : Nat := numAt c.raw 56 1
def Cmd.waitSem (c : Cmd) : Nat := bitsOf (numAt c.raw 36 4) 16 0
def Cmd.waitEn (c : Cmd) : Bool := bitOf (numAt c.raw 36 4) 17
def Cmd.postSem (c : Cmd) : Nat := bitsOf (numAt c.raw 48 4) 16 0
def Cmd.postBit (c : Cmd) (i : Nat) : Bool := bitOf (numAt c.raw 48 4) i
def Cmd.postValue (c : Cmd) : Nat := numAt c.raw 52 4

/-- Station and the other fields of a route slot (R47). -/
def slotStn (s : Nat) : Nat := bitsOf s 15 0
def slotFunc (s : Nat) : Nat := bitsOf s 31 16
def slotPull (s : Nat) : Bool := bitOf s 32
def slotSrcA (s : Nat) : Nat := bitsOf s 34 33
def slotSrcB (s : Nat) : Nat := bitsOf s 36 35
def slotSplitB (s : Nat) : Bool := bitOf s 37
def slotRows (s : Nat) : Nat := bitsOf s 49 38

/-- The slots up to the one that ends the route (R47). -/
def routeSlots (r : List Nat) : List Nat := r.takeWhile fun s => slotStn s != 0xFFFF

def isHouse (stn : Nat) : Bool := decide (stn < 0x100)
def isGuest (stn : Nat) : Bool := decide (0x100 ≤ stn) && decide (stn < 0x980)

/-! ### Queues -/

def qkey (c s : Nat) : Nat := c * 64 + s
def qrec (h : Hub) (c s : Nat) : QRec := tgetD h.queues (qkey c s) {}
def setQrec (h : Hub) (c s : Nat) (q : QRec) : Hub := { h with queues := tset h.queues (qkey c s) q }
/-- 0 FREE, 1 ACTIVE, 2 HALTED, 3 DRAINING. -/
def qState (h : Hub) (c s : Nat) : Nat := fld h F.ctxQstatState (qkey c s)
def qHead (h : Hub) (c s : Nat) : Nat := fld h F.ctxQstatHead (qkey c s)
/-- Dispatcher slice that serves the queue. -/
def qSlice (h : Hub) (c s : Nat) : Nat := fld h F.ctxQstatQnum (qkey c s) % 4
/-- The requester number of a slice's reads (R370). -/
def dspWho (h : Hub) (c s : Nat) : Nat := 0xFFF0 + qSlice h c s

/-- An event of the context's stream registers, with the slot it concerns. -/
def sevt (h : Hub) (e : Evt) (c s : Nat) : Hub := setFld (raise h e c) F.ctxSevtCnt2LastSlot c s

/-- The commands of a queue, in queue order. -/
def cmdsOf (h : Hub) (c s : Nat) : List Cmd := h.cmds.filter fun x => x.ctx == c && x.slot == s
def findCmd (h : Hub) (c s n : Nat) : Option Cmd := h.cmds.find? fun x => x.ctx == c && x.slot == s && x.count == n
def putCmd (h : Hub) (x : Cmd) : Hub :=
  { h with cmds := mapIf h.cmds (fun y => y.ctx == x.ctx && y.slot == x.slot && y.count == x.count) fun _ => x }
def dropCmd (h : Hub) (x : Cmd) : Hub :=
  { h with cmds := dropIf h.cmds fun y => y.ctx == x.ctx && y.slot == x.slot && y.count == x.count }

/-- A command has begun issuing (R61), or has ended. -/
def Cmd.begun (x : Cmd) : Bool := x.step ≥ 10 || x.issued != 0

/-- The in-order head moves past every completed command (R59). -/
def advanceHead (fuel : Nat) (h : Hub) (c s : Nat) : Hub :=
  match fuel with
  | 0 => h
  | n + 1 =>
    let q := qrec h c s
    let x := qHead h c s
    if q.doneSet.contains x then
      advanceHead n (setFld (setQrec h c s { q with doneSet := q.doneSet.erase x }) F.ctxQstatHead (qkey c s) (x + 1)) c s
    else h

/-- The waits that commands of a queue whose count satisfies `p` have listed are dropped. -/
def dropWaits (h : Hub) (c s : Nat) (p : Nat → Bool) : Hub :=
  { h with waits := dropIf h.waits fun w => w.ctx == c && (match w.by_ with
      | .cmd sl n => sl == s && p n
      | .guest _ _ _ => false
      | .pod _ => false) }

/-- Halt a queue (R61): unissued commands are dropped with their waits and write no record. `ended` is the command that ended
before any operation of it was issued: it is itself not issued (log entry 75). -/
def haltAt (h : Hub) (c s status : Nat) (ended : Option Nat) : Hub :=
  if qState h c s != 1 then h
  else
    let rest := (cmdsOf h c s).filter fun x => !x.begun
    let next := match rest with
      | x :: _ => x.count
      | [] => (qrec h c s).nextRd
    let at_ := match ended with
      | some n => ((((cmdsOf h c s).takeWhile fun x => x.count != n).find? fun x => !x.begun).map (·.count)).getD n
      | none => next
    let h := dropWaits { h with cmds := dropIf h.cmds fun x => x.ctx == c && x.slot == s && !x.begun } c s fun n =>
      rest.any fun x => x.count == n
    let k := qkey c s
    let h := setFld (setFld (setFld h F.ctxQstatState k 2) F.ctxQstatHaltStatus k status) F.ctxQposHaltAt k at_
    sevt (setQrec h c s { qrec h c s with nextRd := at_, ended := ended }) E.ctxSevtHalted c s

def haltQueue (h : Hub) (c s status : Nat) : Hub := haltAt h c s status none

/-! ### Records (R59, R60) -/

/-- The completion ring has room. -/
def cqRoom (h : Hub) (c s : Nat) : Bool :=
  let q := qrec h c s
  (q.written + 2 ^ 32 - q.cqHead) % 2 ^ 32 != 2 ^ fld h F.ctxQcfgCqLog2 (qkey c s)

/-- The 16 bytes of record number `k` of a ring of 2^m (R59). -/
def recordBytes (r : CplRec) (k m slot head : Nat) : List Byte :=
  leBytes 4 r.tag ++ leBytes 1 r.status ++ leBytes 1 (b2n (k / 2 ^ m % 2 == 0)) ++ leBytes 2 slot ++ leBytes 4 head
    ++ leBytes 4 r.detail

/-- The next record of a queue is lost (R53): the count of records written still advances, and its command's post and MSI-X
message are not made. -/
def loseRecord (h : Hub) (c s : Nat) : Hub :=
  let q := qrec h c s
  match q.recs with
  | [] => h
  | r :: rest =>
    let h := setQrec h c s { q with recs := rest, written := (q.written + 1) % 2 ^ 32 }
    { h with cmds := dropIf h.cmds fun x => x.ctx == c && x.slot == s && r.cmd == some x.count }

/-- Write the records that wait while the ring has room and its page translates (R53, R60). A completion ring of a
queue first written in HBM that later resolves to host memory is a RANGE fault (R364). A function-level reset leaves the records
for rings in host memory unwritten (R425). -/
def writeRecords (fuel : Nat) (h : Hub) (c s : Nat) : Hub :=
  match fuel with
  | 0 => h
  | n + 1 =>
    let q := qrec h c s
    match q.recs with
    | [] => h
    | r :: rest =>
      if !cqRoom h c s then h
      else
        let m := fld h F.ctxQcfgCqLog2 (qkey c s)
        let va := getReg h .ctxQcqBase (qkey c s) + q.written % 2 ^ m * 16
        let bs := recordBytes r q.written m s (qHead h c s)
        let wr (h : Hub) (kind : Nat) : Hub :=
          setQrec h c s { q with recs := rest, written := (q.written + 1) % 2 ^ 32, cqKind := kind }
        match vaTarget h c va (dspWho h c s) with
        | (.wait, h) => h
        | (.hbm d, h) => writeRecords n (streamWrite (wr h 1) c d bs false (.record c s r.cmd)) c s
        | (.host a, h) =>
          if wasKilled h c && fld h F.ctxStatusKillCause c == 7 then setQrec h c s { q with recs := [] }
          else if q.cqKind = 1 then trFault (loseRecord h c s) c 3 true true (dspWho h c s) va
          else writeRecords n (ackWrite (hostWrite (wr h 2) c a bs) (.record c s r.cmd) true) c s

/-- Write what waits on a queue. -/
def flushRecords (h : Hub) (c s : Nat) : Hub := writeRecords ((qrec h c s).recs.length + 1) h c s

/-- A record that no command completes: a halt record (R57, R252) or a KILLED record (R71). -/
def bareRecord (h : Hub) (c s tag status detail : Nat) : Hub :=
  let q := qrec h c s
  flushRecords (setQrec h c s { q with recs := q.recs ++ [⟨tag, status, detail, none⟩] }) c s

/-- The post and the MSI-X message of a command that succeeded (R53 steps 11 and 12), which then leaves the dispatcher. -/
def postCmd (h : Hub) (x : Cmd) : Hub :=
  let h := dropCmd h x
  let h := if x.postBit 17 && !x.fastPosted then
      semPost h (.cmd x.slot x.count) x.ctx x.postSem x.postValue (x.postBit 18) else h
  if x.bit1 0 then sendMsix h (ctxFunc h x.ctx) (fld h F.ctxQcfgVector (qkey x.ctx x.slot)) else h

/-- Router of a dispatcher slice (R340). -/
def sliceRouter (s : Nat) : Nat := 39 + 8 * s

/-- A trace event of a command (R550): decoded 0x11, completed 0x12. -/
def traceCmd (h : Hub) (ev : Nat) (x : Cmd) : Hub :=
  trace h 0 (sliceRouter (qSlice h x.ctx x.slot)) ev (some x.ctx)
    (x.ctx + fld h F.ctxQstatQnum (qkey x.ctx x.slot) * 2 ^ 13 + x.tag * 2 ^ 32 + x.count * 2 ^ 64
      + (if ev = 0x12 then x.status * 2 ^ 96 else 0))

/-- The record of command `x` waits for the ring; `cmd` is the command that goes on once it is acknowledged. -/
def lineRecord (h : Hub) (x : Cmd) (cmd : Option Nat) : Hub :=
  let q := qrec h x.ctx x.slot
  flushRecords (setQrec h x.ctx x.slot { q with recs := q.recs ++ [⟨x.tag, x.status, x.detail, cmd⟩] }) x.ctx x.slot

/-- Command `x` counts as completed. -/
def countDone (h : Hub) (x : Cmd) : Hub :=
  let q := qrec h x.ctx x.slot
  advanceHead (q.doneSet.length + 2) (setQrec h x.ctx x.slot { q with doneSet := x.count :: q.doneSet }) x.ctx x.slot

/-- A command ends with `x.status` (R53, R61). A success counts as completed, and its record is written, or, with CPL_ERR_ONLY,
its post follows at once (R60). A failure halts the queue and takes no step but its record; one that came before any operation was
issued leaves the command not issued, so that the head stays (log entry 75). -/
def conclude (h : Hub) (x : Cmd) : Hub :=
  let x := { x with step := 10 }
  let h := traceCmd (putCmd h x) 0x12 x
  if x.status ≤ 1 then
    let h := countDone h x
    if x.bit1 4 then postCmd h x else lineRecord h x (some x.count)
  else
    let h := if x.issued = 0 && qState h x.ctx x.slot == 1 then haltAt h x.ctx x.slot x.status (some x.count)
      else haltQueue (countDone h x) x.ctx x.slot x.status
    let h := if x.status = 2 && odOn h OD.descErrKill then later h (.kill x.ctx 5) else h
    lineRecord (dropWaits (dropCmd h x) x.ctx x.slot (· == x.count)) x none

/-- The order in which R71 picks among statuses: smaller comes first. -/
def statusRank (s : Nat) : Nat := [10, 9, 8, 2, 7, 4, 5, 3, 6, 1].getD s 11

/-- The command with status `s` and detail `d` where that outranks what it has (R71). -/
def Cmd.worse (x : Cmd) (s d : Nat) : Cmd := if statusRank s < statusRank x.status then { x with status := s, detail := d } else x

/-! ### The scoreboard (R65, R66) -/

/-- The lowest free scoreboard index of a slice, as an OPID; none while all 16,384 are held (R66). -/
def freeOp (h : Hub) (slice : Nat) : Option Nat :=
  let used := h.ops.filter fun o => o.opid / 65536 == slice
  if 16384 ≤ used.length then none
  else ((List.range (used.length + 1)).find? fun i => !(used.any fun o => o.opid % 65536 == i)).map fun i => slice * 65536 + i

/-- Two sets of page extents (first page, last page) share a page. -/
def meets (a b : List (Nat × Nat)) : Bool := a.any fun p => b.any fun q => decide (p.1 ≤ q.2) && decide (q.1 ≤ p.2)

/-- An earlier operation of the context at the station shares a page that one of the two writes (R65). -/
def opBlocked (h : Hub) (c : Nat) (stns : List Nat) (rds wrs : List (Nat × Nat)) : Bool :=
  h.ops.any fun o => o.ctx == c && (stns.contains o.station || o.waitFor.any fun w => stns.contains w)
    && (meets wrs o.rds || meets wrs o.wrs || meets rds o.wrs)

/-- Operations of a queue in flight (R66). -/
def queueOps (h : Hub) (c s : Nat) : Nat := (h.ops.filter fun o => o.ctx == c && o.slot == s).length

/-! ### Range operations (R221 to R223) -/

/-- Endpoint kind and index of a house station (R39, R340). -/
def houseEnd (stn : Nat) : Option (Nat × Nat) :=
  if stn < 8 then some (1, stn)
  else if decide (0x10 ≤ stn) && decide (stn < 0x18) then some (2, stn - 0x10)
  else if decide (0x20 ≤ stn) && decide (stn < 0x24) then some (3, stn - 0x20)
  else if decide (0x30 ≤ stn) && decide (stn < 0x32) then some (4, stn - 0x30)
  else none

/-- Router of a house station. -/
def stnRouter (stn : Nat) : Nat := ((List.range 64).find? fun n => some (endpointAt n) == houseEnd stn).getD 0

/-- The station has a tile cache of the hub's (R214). -/
def hasTc (stn : Nat) : Bool :=
  match houseEnd stn with
  | some (k, _) => k != 4
  | none => false

/-- House station `stn` carries out a range operation on sectors of its tile cache (R221, R223): FLUSH and INVAL drop
them, CLEAN does nothing there. -/
def tcRange (h : Hub) (stn c kind : Nat) (secs : List Nat) : Hub :=
  if !hasTc stn then h
  else
    let lines := (secs.map (· / 2)).eraseDups.length
    let h := addFld (addFld h F.tcRangeOpsOps (stnRouter stn) 1) F.tcRangeCycCyc (stnRouter stn) (ceilDiv (Nat.min lines 32768) 8)
    if kind = 2 then h
    else { h with tc := dropIf h.tc fun x => x.stn == stn && x.ctx == c && secs.contains x.sec }

/-- TOP.RANGE of a tile to a guest station, and a second one for its scale area (R275). -/
def sendRange (h : Hub) (opid c kind stn : Nat) (t : Tile) : Hub :=
  let h := toStation h 2 3 .topRange stn [opid, c, 0, kind, t.base, t.rowLen, t.rowCount, t.planeCount, t.rowPitch, t.planePitch]
  if scaleLen t = 0 then h
  else toStation h 2 3 .topRange stn [opid, c, 0, kind, t.scaleBase, ceilDiv (scaleLen t) 32, t.rowCount, t.planeCount, t.scalePitch,
    t.scalePlanePitch]

/-- Start a range operation of a command over `tiles` in `stns` (R222): it holds one scoreboard entry and counts as a
write of every page it touches. None while the scoreboard is full or R65 orders it behind an earlier operation. -/
def startRange (h : Hub) (x : Cmd) (kind : Nat) (tiles : List Tile) (stns : List Nat) : Option (Nat × Hub) :=
  let pages := (pagesOf (tiles.flatMap Tile.foot)).map fun p => (p, p)
  if opBlocked h x.ctx stns [] pages || stns.any (h.tcHold.contains ·) then none
  else match freeOp h (qSlice h x.ctx x.slot) with
    | none => none
    | some id =>
      let answers := stns.flatMap fun s =>
        if isGuest s then (tiles.flatMap fun t => if scaleLen t = 0 then [s] else [s, s]) else [s]
      let o : TileOp :=
        { opid := id, ctx := x.ctx, slot := x.slot, count := x.count, range := kind, station := 0xFFFF,
          wrs := pages, waitFor := answers }
      let h := { h with ops := h.ops ++ [o] }
      some (id, each stns h fun h s => if isGuest s then each tiles h fun h t => sendRange h id x.ctx kind s t else h)

/-- The input tiles a command has. -/
def Cmd.inputs (x : Cmd) : List Tile := x.in0.toList ++ x.in1.toList
/-- The stations of its route copy (RED keeps no rows, R214). -/
def Cmd.stations (x : Cmd) : List Nat := ((routeSlots x.route).map slotStn).filter (· != 0x40)

/-- A range operation's house stations carry it out at once; what is left are the guests' answers. -/
def houseRange (h : Hub) (id : Nat) (tiles : List Tile) : Hub :=
  match h.ops.find? fun o => o.opid == id with
  | none => h
  | some o =>
    let secs := sectorsIn (tiles.flatMap Tile.foot)
    let h := each (o.waitFor.filter isHouse) h fun h s => tcRange h s o.ctx o.range secs
    { h with ops := mapIf h.ops (fun y => y.opid == id) fun y => { y with waitFor := dropIf y.waitFor isHouse } }

/-! ### Translation of a command's footprint (R63, R366) -/

/-- The byte runs of a command's footprints, each with whether it needs write: tiles, scale areas, parameter block. -/
def Cmd.foot (x : Cmd) : List ((Nat × Nat) × Bool) :=
  ((x.inputs.flatMap Tile.foot).map fun e => (e, false)) ++ ((x.out.toList.flatMap Tile.foot).map fun e => (e, true))
    ++ (if x.opcode = 1 && x.param != 0 then [((x.param, 64), false)] else [])

/-- The pages it needs, and whether any footprint needs write there. -/
def Cmd.needs (x : Cmd) : List (Nat × Bool) :=
  let w := pagesOf ((x.foot.filter (·.2)).map (·.1))
  (pagesOf (x.foot.map (·.1))).map fun p => (p, w.contains p)

/-- The needs not yet met and not yet faulted. -/
def Cmd.missing (x : Cmd) : List (Nat × Bool) :=
  x.needs.filter fun e => !(x.pages.contains e.1 || x.faults.any fun f => f.1 == e.1)

/-- The pages it reads. -/
def Cmd.readsIn (x : Cmd) : List Nat := pagesOf ((x.foot.filter (!·.2)).map (·.1))

/-- Note the missing pages that the ATC holds with every right the footprints need, and ask for the others, at most 64 a slice at a
time (R63, R363). -/
def askPages (h : Hub) (x : Cmd) : Hub :=
  let who := dspWho h x.ctx x.slot
  let rd := x.readsIn
  let hits := x.missing.filter fun e => (atcFind h x.ctx (e.1 * 4096) e.2).any fun a => a.r || !rd.contains e.1
  let h := addFld h F.ctxAtcHitHit x.ctx hits.length
  let x := { x with pages := x.pages ++ hits.map (·.1) }
  each x.missing (putCmd h x) fun h e =>
    if 64 ≤ (h.trReqs.filter fun t => t.who == who).length then h else requestTr h x.ctx (e.1 * 4096) e.2 who

/-- The lowest footprint byte in a faulting page, its kind, whether it needed write, and whether it resolved to host
memory (R366). -/
def Cmd.lowestFault (x : Cmd) : Option (Nat × Nat × Bool × Bool) :=
  let cand := x.foot.flatMap fun e => x.faults.filterMap fun f =>
    let a := Nat.max e.1.1 (f.1 * 4096)
    if a < e.1.1 + e.1.2 && a < (f.1 + 1) * 4096 && f.2.2.2.all (· == e.2) then some (a, f.2.1, e.2, f.2.2.1) else none
  cand.foldl (fun b c => match b with
    | none => some c
    | some b => if c.1 < b.1 || (c.1 == b.1 && c.2.2.1) then some c else some b) none

/-! ### The course of a command -/

/-- Move command `n` of a queue on as far as it goes without a further event (R53 steps 3 to 6). A full completion ring holds it
(R60). -/
def advance (h : Hub) (c s n : Nat) : Hub :=
  match findCmd h c s n with
  | none => h
  | some x =>
    if x.step = 9 && x.status > 1 then (if running h then conclude h x else h)
    else if ctxState h c != 2 || qState h c s != 1 || !running h then h
    else
      let before := (cmdsOf h c s).takeWhile fun y => y.count != n
      let x := if x.step = 3 && before.all Cmd.begun && (!x.bit1 1 || before.all fun y => y.step ≥ 10) then { x with step := 4 } else x
      let x := if x.step = 4 && !x.waitEn then { x with step := 5 } else x
      let h := putCmd h x
      if x.step = 4 then
        if x.tried then h
        else semWait (putCmd h { x with tried := true }) (.cmd s n) c x.waitSem (toSigned 64 (numAt x.raw 40 8)) none
      else if x.step = 5 then
        if !cqRoom h c s then h
        else if x.opcode = 0 then conclude h x
        else if x.empty then conclude h { x with status := 1 }
        else if x.bit1 3 then
          match x.rangeOp with
          | some _ => h
          | none => match startRange h x 3 x.inputs x.stations with
            | none => h
            | some (id, h) => putCmd h { x with rangeOp := some id }
        else askPages (putCmd h { x with step := 6 }) { x with step := 6 }
      else h

/-- Move every command of a queue on, in queue order, and write the records that wait. -/
def runQueue (h : Hub) (c s : Nat) : Hub :=
  flushRecords (each (cmdsOf h c s) h fun h x => advance h c s x.count) c s

/-- The queues that have commands or records under way in context `c`. -/
def queuesOf (h : Hub) (c : Nat) : List Nat := (h.queues.filter fun e => e.1 / 64 == c).map fun e => e.1 % 64

end Sys2Proof.Machine
end

