-- ==== Sys2Proof/Machine/GuestCore.lean ====
section
/-!
DEFINITION. Machine/GuestCore.lean: guests by their anchors: the permit's checks (R304), violations (R306), the ends of
commands and leases (R311), isolation (R286, R313 to R315). Anchors 0 to 31 are sites, 32 and 33 the UCIe ports.
-/
namespace Sys2Proof.Machine

def guest (h : Hub) (a : Nat) : Guest := tgetD h.guests a {}
def setGuest (h : Hub) (a : Nat) (g : Guest) : Hub := { h with guests := tset h.guests a g }

/-- SITE.STATUS.STATE of an anchor: 0 ABSENT, 1 EMPTY, 2 ADMITTING, 3 ADMITTED, 4 ISOLATED, 5 REFUSED. -/
def siteState (h : Hub) (a : Nat) : Nat := fld h F.siteStatusState a

/-- Router of an anchor: its site's, or its UCIe port's (R339, R340). -/
def guestRouter (a : Nat) : Nat := if a < 32 then siteRouter a else 32 + 16 * (a - 32)

/-- Anchor of the guest on a site; a UCIe port is its own (R299, R328). -/
def anchorOf (h : Hub) (site : Nat) : Nat := if site < 32 then fld h F.siteStatusAnchor site else site

/-- Number of station n on site or port `site` (R39). -/
def stnNum (site n : Nat) : Nat := if site < 32 then 0x100 + site * 64 + n else 0x900 + (site - 32) * 64 + n

/-- The station record of a guest station number, with its anchor. -/
def stnRec (h : Hub) (stn : Nat) : Option (Nat × StnRec) :=
  h.guests.findSome? fun g => (g.2.stations.find? fun r => r.number == stn).map fun r => (g.1, r)

/-- Stations of the guest at anchor `a`. -/
def guestStns (h : Hub) (a : Nat) : List Nat := (guest h a).stations.map (·.number)

/-! ### Ends of operations and commands -/

/-- Operations that satisfy `p` end: a house station's leaves; a guest's stays resident, its later messages discarded,
until its TOP.DONE (R311). -/
def endOps (h : Hub) (p : TileOp → Bool) : Hub :=
  let ops := (dropIf h.ops fun o => p o && !(isGuest o.station && o.range == 0)).map fun o => (if p o then { o with dead := true } else o)
  let red := dropIf h.redQ fun r => match r.tag with
    | .op i => h.ops.any fun o => o.opid == i && p o
    | _ => false
  pumpAll { h with ops := ops, redQ := red }

/-- A command ends at once with a status that its own outranks or not (R71): its operations end with it. Of a frozen data half one that
has issued nothing ends after the resume (R18). -/
def endCmd (h : Hub) (x : Cmd) (status detail : Nat) : Hub :=
  let h := dropHost (endOps h fun o => o.ctx == x.ctx && o.slot == x.slot && o.count == x.count) x.ctx
  match findCmd h x.ctx x.slot x.count with
  | none => h
  | some x =>
    if x.step ≥ 10 then h
    else if x.issued = 0 && !running h then putCmd h { x.worse status detail with step := 9 }
    else conclude h (x.worse status detail)

/-! ### Sideband commands (R293) -/

/-- SB_CMD to the anchor site: 1 ADMIT, 2 LEASE_START, 3 LEASE_END, 4 SCRUB; one at a time. -/
def sbCmd (h : Hub) (a cmd ctx slot : Nat) : Hub :=
  let g := guest h a
  match g.sbCur with
  | none => emit (setGuest h a { g with sbCur := some (cmd, ctx, slot) }) .sbCmd a [cmd, ctx]
  | some _ => setGuest h a { g with sbQ := g.sbQ ++ [(cmd, ctx, slot)] }

/-- The command under way has ended: the next one starts. -/
def sbNext (h : Hub) (a : Nat) : Hub :=
  let g := guest h a
  match g.sbQ with
  | [] => setGuest h a { g with sbCur := none }
  | (c, x, s) :: r => emit (setGuest h a { g with sbCur := some (c, x, s), sbQ := r }) .sbCmd a [c, x]

/-! ### Leases (R310 to R312) -/

def lkey (a s : Nat) : Nat := a * 16 + s
def leaseRec (h : Hub) (a s : Nat) : LeaseRec := tgetD h.leases (lkey a s) {}
def setLeaseRec (h : Hub) (a s : Nat) (r : LeaseRec) : Hub := { h with leases := tset h.leases (lkey a s) r }

/-- A slot becomes FREE (R311 step 7): the event, and 10 ms of grace for its context (R306). -/
def freeLease (h : Hub) (a s : Nat) : Hub :=
  let g := guest h a
  let h := setGuest h a { g with grace := leaseCtx h a s :: g.grace }
  let h := { h with leases := tdel h.leases (lkey a s)
                    ops := dropIf h.ops fun o => o.dead && o.ctx == leaseCtx h a s && (guestStns h a).contains o.station }
  raise (setFld h F.siteLeaseState (lkey a s) 0) E.siteLeaseEnded a

/-- Steps 3 and 4 of R311: the guest's waits under the context end with RIGHTS, its held posts are dropped, LEASE_END. -/
def leaseDrained (h : Hub) (a s : Nat) : Hub :=
  let c := leaseCtx h a s
  let mine := h.waits.filter fun w => w.ctx == c && (match w.by_ with
    | .guest b _ _ => b == a
    | _ => false)
  let h := each mine h fun h w => releaseWait h { w with acq := none } 4
  let h := { h with posts := dropIf h.posts fun p => p.anchor == a && p.ctx == c }
  sbCmd (setLeaseRec h a s { leaseRec h a s with step := 3 }) a 3 c s

/-- A lease starts to end (R311 step 1); a kill ends the drain at once (R312). -/
def leaseEnd (h : Hub) (a s : Nat) (killed : Bool) : Hub :=
  let r := leaseRec h a s
  if leaseState h a s = 1 then
    let h := setLeaseRec (setFld h F.siteLeaseState (lkey a s) 2) a s { step := 2 }
    if killed then leaseDrained h a s else h
  else if leaseState h a s = 2 && r.step == 2 && killed then leaseDrained h a s
  else h

/-- The leases of a context: (anchor, slot), not FREE. -/
def leasesOf (h : Hub) (c : Nat) : List (Nat × Nat) :=
  (List.range 34).flatMap fun a => (List.range 16).filterMap fun s =>
    if leaseState h a s != 0 && leaseCtx h a s == c then some (a, s) else none

/-- Messages of the context still pass (check 5): its lease is ACTIVE, or draining. -/
def leaseOpen (h : Hub) (a c : Nat) : Option Nat :=
  (List.range 16).find? fun s => leaseCtx h a s == c &&
    (leaseState h a s == 1 || (leaseState h a s == 2 && (leaseRec h a s).step == 2))

/-- New operations of the context may be issued to the guest: the lease is ACTIVE (R310, R311). -/
def leased (h : Hub) (a c : Nat) : Bool := (List.range 16).any fun s => leaseState h a s == 1 && leaseCtx h a s == c

/-! ### The permit's checks (R304) -/

/-- Rights of the sector or line at `va` under a lease: none where no window covers it, else (read, write), windows
adding up (R310). -/
def winRights (h : Hub) (a s va : Nat) : Option (Bool × Bool) :=
  let cover := (List.range 8).filter fun w =>
    let k := lkey a s * 8 + w
    decide (fld h F.siteWinBaseBase k ≤ va / 4096) && decide (va / 4096 < fld h F.siteWinBaseBase k + fld h F.siteWinSizePages k)
  if cover.isEmpty then none
  else some (cover.any fun w => flag h F.siteWinBaseR (lkey a s * 8 + w), cover.any fun w => flag h F.siteWinBaseW (lkey a s * 8 + w))

/-- What a message asks the permit for: its class bit (none where check 3 does not apply), its station or agent (the
agent by ID), its context, the addresses with the rights needed, whether its DPA or a reserved field is not 0 (check 7),
whether the class is at its limit. -/
structure Ask where
  cls   : Option Nat := none
  stn   : Option Nat := none
  agent : Option Nat := none
  ctx   : Option Nat := none
  vas   : List Nat := []
  rd    : Bool := false
  wr    : Bool := false
  seven : Bool := false
  full  : Bool := false
  fw    : Bool := false
deriving DecidableEq, Repr

/-- Checks 3 to 8 of R304 in order: the kind of the first that fails. -/
def permit (h : Hub) (site : Nat) (q : Ask) : Option Nat :=
  let a := anchorOf h site
  let g := guest h a
  let clsOk := match q.cls with
    | some c => bitOf (fld h F.siteClassesClasses a) c
    | none => true
  let stnOk := match q.stn with
    | some n => g.stations.any fun r => r.number == stnNum site n
    | none => true
  let agOk := match q.agent with
    | some n => g.agentIds.contains n && agentLink n == some site
    | none => true
  let slot := q.ctx.map fun c => leaseOpen h a c
  let rights := match slot with
    | some (some s) => q.vas.map fun v => winRights h a s v
    | _ => []
  if !clsOk then some 1
  else if !stnOk then some 2
  else if !agOk then some 12
  else if slot == some none then some 3
  else if rights.contains none then some 4
  else if rights.any fun r => match r with
      | some (x, y) => (q.rd && !x) || (q.wr && !y)
      | none => true then some 5
  else if q.seven then some 8
  else if q.full then some 6
  else none

/-- A violation (R306): counted, logged, and the commands it touches end with FIREWALL; past the limit the guest is
isolated (R307). `src` is the station n or the agent ID; `stn` the station number, `opid` the operation of a kind 7. -/
def violation (h : Hub) (a kind ctx src : Nat) (agent : Bool) (va : Nat) (stn opid : Option Nat) : Hub :=
  let h := addFld h F.siteVioTotalTotal a 1
  let g := guest h a
  let e : VioEntry := ⟨kind, ctx, src, agent, fld h F.siteVioTotalTotal a % 2 ^ 32, va⟩
  let h := setGuest h a { g with vlog := (e :: g.vlog).take 16, winCount := g.winCount + 1 }
  let h := raise h E.siteViolation a
  let hit := match opid, stn with
    | some i, _ => h.ops.filter fun o => o.opid == i && !o.dead
    | none, some s => h.ops.filter fun o => o.ctx == ctx && o.station == s && !o.dead
    | none, none => []
  let h := each hit h fun h o => match findCmd h o.ctx o.slot o.count with
    | some x => endCmd h x 7 (stn.getD o.station)
    | none => h
  if odNum h (OD.siteVioLimit a) < g.winCount + 1 then later h (.isolate a 7) else h

/-! ### Isolation -/

/-- The link of site or port `s` goes to ISOLATED: queued cells go, RST low, a stall ends (R286, R334). -/
def isolateLink (h : Hub) (s : Nat) : Hub :=
  let l := link h s
  let h := setLink h s { l with outQ := [], stall := 0, todo := [], truing := none, trueLeft := [], pins := 0 }
  let h := if s < 32 then setFld h F.spkStatusState s 5 else setFld h F.uciStatusState (s - 32) 4
  emit h .grstN s [0]

/-- The event of an isolation cause on a site or port (R286, R335). -/
def causeEvt (h : Hub) (s cause : Nat) : Hub :=
  if s < 32 then
    match cause with
    | 1 => raise h E.spkHbLost s
    | 2 => raise h E.spkRstReq s
    | 3 => raise h E.spkGuestErr s
    | _ => h
  else
    match cause with
    | 1 => raise h E.uciHbLost (s - 32)
    | 2 => raise h E.uciRstReq (s - 32)
    | 3 => raise h E.uciGuestErr (s - 32)
    | _ => h

/-- Commands with an operation at, or a slot naming, a station of the guest end STATION_LOST with the first of its
stations in the route (R314); those whose operations there have all retired are unaffected. Contexts in `doomed` are about to be
killed, which outranks it (R71). -/
def loseStations (h : Hub) (stns doomed : List Nat) : Hub :=
  each (h.cmds.filter fun x => !doomed.contains x.ctx) h fun h x => match findCmd h x.ctx x.slot x.count with
    | none => h
    | some x =>
      let at_ := x.stations.find? fun s => stns.contains s
      let left := (h.ops.any fun o => o.ctx == x.ctx && o.slot == x.slot && o.count == x.count
          && (stns.contains o.station || o.waitFor.any fun w => stns.contains w))
        || decide (x.issued < x.total) || decide (x.step < 7)
      match at_ with
      | some s => if left && x.step < 10 && x.step ≥ 3 then endCmd h x 5 s else h
      | none => h

/-- Isolate the guest at anchor `a` (R286, R313 to R315). One that is neither ADMITTED nor being admitted changes
nothing more. -/
def isolate (h : Hub) (a cause : Nat) : Hub :=
  let g := guest h a
  if siteState h a != 2 && siteState h a != 3 then h
  else
    let h := each g.covered h fun h s =>
      let h := causeEvt (isolateLink h s) s cause
      setFld (setFld h F.siteStatusState s 4) F.siteStatusCause s cause
    let h := raise h E.siteIsolated a
    let h := trace h 0 (guestRouter a) 0x51 none (a + cause * 2 ^ 8)
    let h := notice h 0x0130 (a + cause * 2 ^ 8)
    let h := later h (.podNotice 3 a)
    let stns := guestStns h a
    let h := { h with strs := dropIf h.strs fun r => r.anchor == a
                      posts := dropIf h.posts fun p => p.anchor == a
                      cohPend := dropIf h.cohPend fun r => g.agentIds.contains r.agent
                      acqWait := dropIf h.acqWait fun w => w.anchor == a
                      waits := dropIf h.waits fun w => match w.by_ with
                        | .guest b _ _ => b == a
                        | _ => false
                      trReqs := dropIf h.trReqs fun t => isGuest t.who && stns.contains t.who }
    let ctxs := (List.range 16).filterMap fun s => if leaseState h a s != 0 then some (leaseCtx h a s) else none
    let doomed := if odOn h (OD.siteLossKill a) then ctxs else []
    let h := loseStations h stns doomed
    let h := { h with ops := dropIf h.ops fun o => stns.contains o.station }
    let h := each doomed h fun h c => later h (.kill c 4)
    let h := each ((List.range 16).filter fun s => leaseState h a s != 0) h fun h s =>
      setLeaseRec (setFld h F.siteLeaseState (lkey a s) 2) a s { step := 7 }
    let h := setGuest h a { guest h a with step := 0, sbCur := none, sbQ := [], sbXfer := none, readmit := false, clearing := [], dropW := [] }
    let h := each (g.covered.filter (· != a)) h fun h s => { h with guests := tdel h.guests s }
    let h := each g.agentIds h fun h i => suspectAgent h i
    if g.agentIds.isEmpty then each ((List.range 16).filter fun s => (leaseRec h a s).step == 7) h fun h s => freeLease h a s
    else h

end Sys2Proof.Machine
end

