-- ==== Sys2Proof/Machine/Kpw.lean ====
section
/-!
DEFINITION. Machine/Kpw.lean: Kalette packed-weight pages (R144 to R147, R119): header, prefix code, streams, packing.
-/
namespace Sys2Proof.Machine

/-! ### CRC-32C (PRESUMED, log entry 12: reflected polynomial 0x82F63B78, all ones in and out) -/

def crcBits : Nat → Nat → Nat
  | 0, c => c
  | n + 1, c => crcBits n (if c % 2 = 1 then (c / 2) ^^^ 0x82F63B78 else c / 2)

def crc32c (bs : List Byte) : Nat := (bs.foldl (fun c b => crcBits 8 (c ^^^ b.toNat)) 0xFFFFFFFF) ^^^ 0xFFFFFFFF

/-! ### Headers -/

/-- A page header's fields (R144). -/
structure KpwHdr where
  fmt       : Nat
  elems     : Nat
  rows      : Nat
  raw       : Bool
  scaleBits : Nat
  elemBits  : Nat
  used      : Nat
deriving DecidableEq, Repr

/-- Most decoded elements of a page (R144). -/
def kpwLimit (f : Nat) : Nat := if f = 10 then 122880 else 61440

/-- The CRC field's input: bytes 0 to 23 and 28 to 63. -/
def kpwCrc (p : List Byte) : Nat := crc32c (sliceB p 0 24 ++ sliceB p 28 36)

/-- The header of a page, where it is valid (R144). -/
def kpwHeader (p : List Byte) : Option KpwHdr :=
  let h : KpwHdr := ⟨numAt p 3 1, numAt p 4 4, numAt p 8 2, numAt p 10 1 == 1, numAt p 12 4, numAt p 16 4, numAt p 20 4⟩
  if numAt p 0 2 = 0x504B && numAt p 2 1 = 1 && [6, 7, 10].contains h.fmt && h.elems % 32 == 0 && h.elems != 0
      && h.rows != 0 && decide (h.rows * h.elems ≤ kpwLimit h.fmt) && decide (numAt p 10 1 ≤ 1) && numAt p 11 1 == 0
      && h.used % 32 == 0 && decide (96 ≤ h.used) && decide (h.used ≤ 65536) && numAt p 24 4 == kpwCrc p
      && (sliceB p 28 36).all (· == 0)
  then some h else none

/-! ### The prefix code (R145) -/

/-- Symbols and table bytes of a decoded format. -/
def kpwSyms (f : Nat) : Nat := if f = 10 then 16 else 256
def kpwTable (f : Nat) : Nat := if f = 10 then 32 else 128

/-- The lengths of a page's table: low nibble first. -/
def kpwLengths (f : Nat) (p : List Byte) : List Nat :=
  (List.range (kpwSyms f)).map fun s => let b := (p.getD (64 + s / 2) 0).toNat; if s % 2 = 0 then b % 16 else b / 16

/-- The lengths are legal (R145). -/
def kpwCodeOk (ls : List Nat) : Bool :=
  let present := ls.filter (· != 0)
  present.all (decide <| · ≤ 12) && decide ((present.map fun l => 2 ^ (12 - l)).sum ≤ 4096)
    && (present.length != 1 || present == [1])

/-- Codes in order: (length, code, symbol). -/
def kpwCodes (ls : List Nat) : List (Nat × Nat × Nat) :=
  let byLen := (List.range 13).flatMap fun l => if l = 0 then [] else (ls.zipIdx.filter fun e => e.1 == l).map fun e => (l, e.2)
  ((byLen.foldl (fun (a : Nat × Nat × List (Nat × Nat × Nat)) e =>
    let c := if a.1 = 0 then 0 else (a.2.1 + 1) * 2 ^ (e.1 - a.1)
    (e.1, c, (e.1, c, e.2) :: a.2.2)) (0, 0, [])).2.2).reverse

/-! ### Streams -/

/-- The bits of bytes, bit 0 of each first. -/
def bitsOfBytes (bs : List Byte) : List Bool := bs.flatMap fun b => (List.range 8).map fun i => bitOf b.toNat i

/-- A number from bits, least significant first. -/
def natOfBits : List Bool → Nat
  | [] => 0
  | b :: r => b2n b + 2 * natOfBits r

/-- The next symbol: bits enter most significant first; none where no code matches. -/
def nextSym (codes : List (Nat × Nat × Nat)) : Nat → Nat → Nat → List Bool → Option (Nat × List Bool)
  | 0, _, _, _ => none
  | _, _, _, [] => none
  | n + 1, len, acc, b :: r =>
    let acc := 2 * acc + b2n b
    match codes.find? fun c => c.1 == len + 1 && c.2.1 == acc with
    | some c => some (c.2.2, r)
    | none => nextSym codes n (len + 1) acc r

/-- `n` symbols that use up the stream exactly. -/
def readSyms (codes : List (Nat × Nat × Nat)) : Nat → List Bool → Option (List Nat)
  | 0, bs => if bs.isEmpty then some [] else none
  | n + 1, bs =>
    match nextSym codes 12 0 0 bs with
    | none => none
    | some (s, r) => (readSyms codes n r).map (s :: ·)

/-- The scales of a coded stream (R146): `k` the position in rows of `w`, `prev` the scale before it. -/
def readScales (w : Nat) : Nat → Nat → Nat → List Bool → Option (List Nat)
  | 0, _, _, bs => if bs.isEmpty then some [] else none
  | n + 1, k, prev, bs =>
    let (raw, rest) := if k % w = 0 then (true, bs) else (natOfBits (bs.take 4) == 8, bs.drop 4)
    if raw then
      if rest.length < 8 then none
      else let s := natOfBits (rest.take 8); (readScales w n (k + 1) s (rest.drop 8)).map (s :: ·)
    else if bs.length < 4 then none
    else
      let v := (prev : Int) + toSigned 4 (natOfBits (bs.take 4))
      if v < 0 || 255 < v then none else (readScales w n (k + 1) v.toNat rest).map (v.toNat :: ·)

/-- What the decoder makes of a page (R147 to R149): its rows; or the cause, 0 the header, 1 a stream. -/
def kpwDecode (p : List Byte) : Nat ⊕ List RowData :=
  match kpwHeader p with
  | none => .inl 0
  | some h =>
    let n := h.rows * h.elems
    let tab := if h.raw then 0 else kpwTable h.fmt
    let eb := if h.fmt = 10 then 4 else 8
    let s0 := 64 + tab
    let e0 := s0 + ceilDiv h.scaleBits 8
    let ls := kpwLengths h.fmt p
    let tailOk := h.raw || h.fmt != 10 || (sliceB p 72 24).all (· == 0)
    if !h.raw && !(kpwCodeOk ls && tailOk) then .inl 0
    else if h.used < e0 + ceilDiv h.elemBits 8 then .inl 1
    else
      let sBits := (bitsOfBytes (sliceB p s0 (ceilDiv h.scaleBits 8))).take h.scaleBits
      let eBits := (bitsOfBytes (sliceB p e0 (ceilDiv h.elemBits 8))).take h.elemBits
      let scales := if h.raw then
          (if h.scaleBits = 8 * (n / 32) then some ((sliceB p s0 (n / 32)).map (·.toNat)) else none)
        else readScales (h.elems / 32) (n / 32) 0 0 sBits
      let codes := if h.raw then
          (if h.elemBits = n * eb then some (codesOf h.fmt (sliceB p e0 (n * eb / 8))) else none)
        else readSyms (kpwCodes ls) n eBits
      match scales, codes with
      | some sc, some cs =>
        .inr ((List.range h.rows).map fun r =>
          { bytes := packCodes h.fmt ((cs.drop (r * h.elems)).take h.elems)
            scales := ((sc.drop (r * (h.elems / 32))).take (h.elems / 32)).map (BitVec.ofNat 8) })
      | _, _ => .inl 1

/-! ### Packing (R119) -/

/-- Bits as bytes, the last byte filled with zeros: fuel at least the bytes. -/
def bytesOfBits : Nat → List Bool → List Byte
  | 0, _ => []
  | n + 1, bs => if bs.isEmpty then [] else BitVec.ofNat 8 (natOfBits (bs.take 8)) :: bytesOfBits n (bs.drop 8)

def lsb (n v : Nat) : List Bool := (List.range n).map fun i => bitOf v i
def msb (n v : Nat) : List Bool := (lsb n v).reverse

/-- A coded scale stream: a difference of at most 7 in four bits, else the escape. -/
def writeScales (w : Nat) : Nat → Nat → List Nat → List Bool
  | _, _, [] => []
  | k, prev, s :: r =>
    let d : Int := (s : Int) - prev
    (if k % w = 0 then lsb 8 s else if -7 ≤ d && d ≤ 7 then lsb 4 (ofSigned 4 d) else lsb 4 8 ++ lsb 8 s) ++ writeScales w (k + 1) s r

/-- A page of `q` rows of `e` elements from a row's codes and scales, coded with lengths `ls` or raw. -/
def kpwPage (f e q : Nat) (raw : Bool) (ls cs sc : List Nat) : Nat × List Byte :=
  let codes := kpwCodes ls
  let sBits := if raw then sc.flatMap (lsb 8) else writeScales (e / 32) 0 0 sc
  let eBits := if raw then bitsOfBytes (packCodes f cs)
    else cs.flatMap fun c => match codes.find? fun x => x.2.2 == c with
      | some x => msb x.1 x.2.1
      | none => []
  let tab := if raw then [] else sliceB (packCodes 10 ls) 0 (kpwTable f)
  let body := tab ++ bytesOfBits (sBits.length + 1) sBits ++ bytesOfBits (eBits.length + 1) eBits
  let used := Max.max 96 (ceilDiv (64 + body.length) 32 * 32)
  let head := leBytes 2 0x504B ++ leBytes 1 1 ++ leBytes 1 f ++ leBytes 4 e ++ leBytes 2 q ++ leBytes 1 (b2n raw) ++ leBytes 1 0
    ++ leBytes 4 sBits.length ++ leBytes 4 eBits.length ++ leBytes 4 used
  let crc := crc32c (head ++ List.replicate 36 0)
  (used, sliceB (head ++ leBytes 4 crc ++ List.replicate 36 0 ++ body) 0 65536)

/-- The page of one row of A (R119): with the code its symbol counts give where that is legal and the page fits, else raw. -/
def kpwPack (f e : Nat) (r : RowData) : List Byte :=
  let cs := codesOf f r.bytes
  let sc := r.scales.map (·.toNat)
  let q := cs.length / e
  let counts := (List.range (kpwSyms f)).map fun s => (cs.filter (· == s)).length
  let ls := (List.range (kpwSyms f)).map fun s => if counts.getD s 0 = 0 then 0 else (Config.kpwCode counts).getD s 0
  let covered := (List.range (kpwSyms f)).all fun s => counts.getD s 0 == 0 || ls.getD s 0 != 0
  let (used, page) := kpwPage f e q false ls cs sc
  if kpwCodeOk ls && covered && decide (used ≤ 65536) then page else (kpwPage f e q true [] cs sc).2

/-- Rows of a page that a whole operation of PACK_KPW writes: E of the parameter, or the row's own count. -/
def drlPack (fa : Nat) (e : Option Nat) (a : List RowData) : Computed :=
  { rows := a.map fun r =>
      let x : RowData := { bytes := kpwPack fa (e.getD (codesOf fa r.bytes).length) r }
      if r.poisoned then { x with bad := List.range 2048 } else x }

end Sys2Proof.Machine
end

