-- ==== Sys2Proof/Machine/Vfun.lean ====
section
/-!
DEFINITION. Machine/Vfun.lean: the functions of one value that a vector station evaluates within a stated error (R110).
The exact value is bracketed by fixed-point series with 512 fraction bits, far below an FP32 ulp (DEDUCED, log entry 10);
the result is a free FP32 code where that code meets R110's bound, else the correctly rounded one.
-/
namespace Sys2Proof.Machine

/-! ### Fixed point, 512 fraction bits -/

def fixOne : Int := 2 ^ 512
def fixMul (a b : Int) : Int := a * b / fixOne
def fixDiv (a b : Int) : Int := if b = 0 then 0 else a * fixOne / b

/-- A dyadic in fixed point. -/
def fixOf (s : Bool) (m : Nat) (e : Int) : Int :=
  let v : Int := if 0 ≤ e + 512 then (m * 2 ^ (e + 512).toNat : Nat) else (m / 2 ^ (-(e + 512)).toNat : Nat)
  if s then -v else v

def numOfFix (v : Int) : Num := numOfInt v (-512)

/-- Sum of the series 1 + t + t²/2 + …: `n` more terms, the next being term `k`. -/
def expTerms : Nat → Int → Int → Int → Int
  | 0, _, _, _ => 0
  | n + 1, k, t, term => term + expTerms n (k + 1) t (fixMul term t / k)

def squares : Nat → Int → Int
  | 0, v => v
  | n + 1, v => squares n (fixMul v v)

/-- e^x for |x| up to 200. -/
def fixExp (x : Int) : Int := squares 12 (expTerms 48 1 (x / 4096) fixOne)

/-- Sum of z + z³/3 + z⁵/5 + …. -/
def atanhTerms : Nat → Int → Int → Int → Int
  | 0, _, _, _ => 0
  | n + 1, k, zz, p => p / k + atanhTerms n (k + 2) zz (fixMul p zz)

/-- ln of m * 2^e. -/
def fixLn (m : Nat) (e : Int) : Int :=
  let k := (bitLen m : Int) - 1
  let y := fixOf false m (-k)
  let z := fixDiv (y - fixOne) (y + fixOne)
  let t := fixDiv fixOne (3 * fixOne)
  2 * atanhTerms 170 1 (fixMul z z) z + (e + k) * (2 * atanhTerms 170 1 (fixMul t t) t)

/-- Integer square root, bit by bit from `2^n` down. -/
def isqrtBits : Nat → Nat → Nat → Nat
  | 0, _, r => r
  | n + 1, v, r => let c := r + 2 ^ n; isqrtBits n v (if c * c ≤ v then c else r)

/-- Square root of a nonnegative fixed-point number below 2^256. -/
def fixSqrt (x : Int) : Int := (isqrtBits 640 (x.toNat * 2 ^ 512) 0 : Nat)

/-- arctan of 1/k as a series, and pi by Machin's formula. -/
def atanTerms : Nat → Int → Int → Int → Int
  | 0, _, _, _ => 0
  | n + 1, k, kk, p => p / k - atanTerms n (k + 2) kk (p / kk)
def fixPi : Int := 4 * (4 * atanTerms 120 1 25 (fixOne / 5) - atanTerms 60 1 57121 (fixOne / 239))

/-- erf's series without its factor: x - x³/3 + x⁵/10 - …; `p` is (-1)^k x^(2k+1) / k!. -/
def erfTerms : Nat → Int → Int → Int → Int
  | 0, _, _, _ => 0
  | n + 1, k, xx, p => p / (2 * k + 1) + erfTerms n (k + 1) xx (-(fixMul p xx / (k + 1)))

/-- Φ(x) for |x| up to 16. -/
def fixPhi (x : Int) : Int :=
  let y := fixDiv x (fixSqrt (2 * fixOne))
  (fixOne + fixDiv (2 * erfTerms 700 0 (fixMul y y) y) (fixSqrt fixPi)) / 2

def fixSigmoid (x : Int) : Int := fixDiv fixOne (fixOne + fixExp (-x))
def fixTanh (x : Int) : Int := let y := fixExp (2 * x); fixDiv (y - fixOne) (y + fixOne)

/-! ### Exact values to far beyond FP32 -/

/-- Magnitude above `k`. -/
def Num.above (a : Num) (k : Nat) : Bool := Num.lt (.fin false k 0) a.abs

/-- e^x. -/
def cExp (x : Num) : Num :=
  match x with
  | .nan => .nan
  | .inf s => if s then .zero else .inf false
  | .fin s m e => if x.above 128 then (if s then .fin false 1 (-400) else .fin false 1 400) else numOfFix (fixExp (fixOf s m e))

def cLog (x : Num) : Num :=
  match x with
  | .nan => .nan
  | .inf s => if s then .nan else .inf false
  | .fin s m e => if m = 0 then .inf true else if s then .nan else numOfFix (fixLn m e)

def cRecip (x : Num) : Num :=
  match x with
  | .nan => .nan
  | .inf s => .fin s 0 0
  | .fin s m e => if m = 0 then .inf s else .fin s (2 ^ 512 / m) (-512 - e)

def cRsqrt (x : Num) : Num :=
  match x with
  | .nan => .nan
  | .inf s => if s then .nan else .zero
  | .fin s m e =>
    if m = 0 then .inf s else if s then .nan
    else
      -- m * 2^e with an even exponent 2k
      let (n, k) := if e % 2 = 0 then (m, e / 2) else (2 * m, (e - 1) / 2)
      .fin false (2 ^ 512 / isqrtBits 320 (n * 2 ^ 512) 0) (-256 - k)

def cTanh (x : Num) : Num :=
  match x with
  | .nan => .nan
  | .inf s => .fin s 1 0
  | .fin s m e => if x.above 60 then .fin s 1 0 else numOfFix (fixTanh (fixOf s m e))

def cSigmoid (x : Num) : Num :=
  match x with
  | .nan => .nan
  | .inf s => if s then .zero else .fin false 1 0
  | .fin s m e => if x.above 150 then (if s then .zero else .fin false 1 0) else numOfFix (fixSigmoid (fixOf s m e))

/-- a times a factor below 1; of -∞ the spec states no result: none. -/
def cGate (f : Num → Num) (x : Num) : Option Num :=
  match x with
  | .inf true => none
  | .inf false => some (.inf false)
  | _ => some (x.mul (f x))

def cGeluTanh (x : Num) : Num :=
  match x with
  | .fin s m e =>
    if x.above 40 then (if s then .zero else .fin false 1 0)
    else
      let v := fixOf s m e
      let u := v + fixMul v (fixMul v v) * 44715 / 1000000
      (numOfFix (fixOne + fixTanh (fixMul (fixSqrt (fixDiv (2 * fixOne) fixPi)) u))).scale (-1)
  | _ => .nan

def cPhi (x : Num) : Num :=
  match x with
  | .fin s m e => if x.above 15 then (if s then .zero else .fin false 1 0) else numOfFix (fixPhi (fixOf s m e))
  | _ => .nan

/-! ### The result an operation may give -/

/-- |a - b| ≤ k ulps of the FP32 number b, or ≤ 2^-22 where `abs22`. -/
def within (k : Nat) (abs22 : Bool) (a b : Num) : Bool :=
  let d := (a.add b.neg).abs
  let ulp := Max.max (b.ilog - 23) (-149)
  !(Num.lt (.fin false k ulp) d) || (abs22 && !(Num.lt (.fin false 1 (-22)) d))

/-- The FP32 result of function `f` for the exact value `x`: a free code where it is a finite number within the bound,
else `x` correctly rounded; a zero, an infinity and nan are as the spec states them. `occ` tells occasions apart. -/
def approxTo (f k : Nat) (abs22 : Bool) (a p occ : Nat) (x : Num) : Num :=
  let c := fp32.decode (Config.approx f a p occ % 2 ^ 32)
  if x.isFin && !x.isZero && c.isFin && within k abs22 c x then c else r32 x

/-- A value the spec bounds by nothing: a free function of its operands. -/
def openValue (f : Nat) (args : List Nat) : Num := fp32.decode (Config.rowFn f args % 2 ^ 32)

end Sys2Proof.Machine
end

