-- ==== Sys2Proof/Machine/VdrArith.lean ====
section
/-!
DEFINITION. Machine/VdrArith.lean: what a vector station (R107 to R112), a derailleur (R114 to R118) and a reduction
adder (R121) compute of their rows.
-/
namespace Sys2Proof.Machine

/-! ### Vector stations -/

/-- An input element as FP32 (R109). -/
def vecNum (f c : Nat) : Num := r32 (elemNum f c)

/-- The code of an FP32 number. -/
def code32 (x : Num) : Nat := (fp32.encode false x).1

/-- An exact result as FP32, and whether it overflowed. -/
def fin32 (sat : Bool) (x : Num) : Num × Bool := fp32.round sat x

/-- A bounded result (R110): the value taken, and whether the exact one overflows. -/
def bounded (f k : Nat) (abs22 sat : Bool) (a p occ : Nat) (x : Num) : Num × Bool :=
  let (v, o) := fp32.round sat x
  if o then (v, true) else (approxTo f k abs22 a p occ x, false)

/-- silu(a) and GELU before rounding; of -∞ an open value. -/
def gated (f : Nat) (a : Num) : Num :=
  match cGate (if f = 0x18 then cGeluTanh else if f = 0x19 then cPhi else cSigmoid) a with
  | some x => x
  | none => openValue f [code32 a]

/-- An elementwise operation (R108, R110): operands as FP32, parameters, the occasion. -/
def vecElem (op : Nat) (sat : Bool) (p0 p1 : Num) (occ : Nat) (a b : Num) : Num × Bool :=
  let ac := code32 a
  let pc := code32 p0
  match op with
  | 0x01 => fin32 sat (a.add b)
  | 0x02 => fin32 sat (a.add b.neg)
  | 0x03 => fin32 sat (a.mul b)
  | 0x04 => (a.max b, false)
  | 0x05 => (a.min b, false)
  | 0x06 => fin32 sat ((a.mul p0).add p1)
  | 0x10 => bounded 0x10 2 false sat ac pc occ (cExp (p0.mul a))
  | 0x11 => bounded 0x11 2 false sat ac pc occ (cLog a)
  | 0x12 => bounded 0x12 1 false sat ac pc occ (cRsqrt a)
  | 0x13 => bounded 0x13 1 false sat ac pc occ (cRecip a)
  | 0x14 => bounded 0x14 4 true sat ac pc occ (cTanh a)
  | 0x15 => bounded 0x15 4 true sat ac pc occ (cSigmoid a)
  | 0x16 => bounded 0x16 4 true sat ac pc occ (gated 0x16 a)
  | 0x17 => bounded 0x17 4 true sat ac (code32 b) occ ((gated 0x16 a).mul b)
  | 0x18 => bounded 0x18 4 true sat ac pc occ (gated 0x18 a)
  | 0x19 => bounded 0x19 4 true sat ac pc occ (gated 0x19 a)
  | 0x1A => (a.max .zero, false)
  | _ => (a, false)

/-- A sum under way, and whether one of its additions overflowed. -/
abbrev Sum32 := Num × Bool

/-- Two sums added in FP32, an overflow treated as R110 says. -/
def add32 (sat : Bool) (s t : Sum32) : Sum32 :=
  let (v, o) := fp32.round sat (s.1.add t.1)
  (v, s.2 || t.2 || o)

/-- Lane sums (R111): lane i adds elements i, i + 512, … in rising order. -/
def laneSums (xs : List Sum32) (step : Sum32 → Sum32 → Sum32) : List Sum32 :=
  (xs.zipIdx).foldl (fun (l : List Sum32) e => l.set (e.2 % 512) (step (l.getD (e.2 % 512) (.zero, false)) e.1))
    (List.replicate 512 (.zero, false))

/-- The fixed binary tree over what is left; which one it is stays open. -/
def treeSum (sat : Bool) : Nat → Nat → List Sum32 → Sum32
  | 0, _, xs => xs.headD (.zero, false)
  | n + 1, k, xs =>
    if xs.length ≤ 1 then xs.headD (.zero, false)
    else
      let (i, j) := Config.sumTree k
      let i := i % xs.length
      let rest := xs.eraseIdx i
      let j := j % rest.length
      treeSum sat n (k + 1) (rest.eraseIdx j ++ [add32 sat (xs.getD i (.zero, false)) (rest.getD j (.zero, false))])

/-- The sum of a row in the fixed order of R111. -/
def rowSum (sat : Bool) (xs : List Num) : Sum32 := treeSum sat 512 0 (laneSums (xs.map (·, false)) (add32 sat))

/-- The sum of squares in that order. -/
def rowSumSq (sat : Bool) (xs : List Num) : Sum32 :=
  treeSum sat 512 0 (laneSums (xs.map fun x => if Config.sumsqFused then (x.mul x, false) else fp32.round sat (x.mul x)) (add32 sat))

/-- An open value as a result: an infinity from finite operands is an overflow (R110). -/
def openRes (sat : Bool) (args : List Num) (x : Num) : Num × Bool :=
  match x with
  | .inf s => if args.all Num.isFin then (if sat then (if s then fp32.largest.neg else fp32.largest) else x, true) else (x, false)
  | _ => (x, false)

/-- The largest of a row, from -∞. -/
def rowMax (xs : List Num) : Num := xs.foldl Num.max (.inf true)
def rowMin (xs : List Num) : Num := xs.foldl Num.min (.inf false)

/-- A state record of R112: m, l, c. -/
def stateOf (b : List Num) : Num × Num × Num := (b.getD 0 .nan, b.getD 1 .nan, b.getD 2 .nan)

/-- SM_STATE (R112): the new m, l, c of a row. -/
def smState (p0 : Num) (a : List Num) (b : Option (List Num)) : Num × Num × Num :=
  let (m, l) := match b with
    | none => (Num.inf true, Num.zero)
    | some r => ((stateOf r).1, (stateOf r).2.1)
  let m' := m.max (rowMax (a.map fun x => r32 (p0.mul x)))
  if m' == .nan || l == .nan then (m', .nan, .nan)
  else if m' == .inf true then (m', .zero, .fin false 1 0)
  else
    let c := if m == m' then .fin false 1 0 else if m == .inf true then .zero else openValue 0x141 [code32 m, code32 m']
    (m', openValue 0x41 (code32 m :: code32 l :: code32 p0 :: a.map code32), c)

/-- The FP32 results of a vector operation on one row (R108): A's elements, the B rows it meets, whether any overflowed. -/
def vecRow (op : Nat) (sat : Bool) (p0 p1 : Num) (occ : Nat) (a : List Num) (b : List (List Num)) : List (Num × Bool) :=
  let unit (xs : List Num) := (xs ++ List.replicate (8 - xs.length) Num.zero).map fun x => (x, false)
  let pure_ (xs : List Num) := xs.map fun x => (x, false)
  let b0 := b.headD []
  let anyNan := a.any (· == .nan) || b.any fun r => r.any (· == .nan)
  match op with
  | 0x20 => a.zipIdx.map fun e => openRes sat (p0 :: a ++ b0) <|
      if anyNan then .nan else openValue 0x20 (code32 e.1 :: code32 (b0.getD e.2 (.fin false 1 0)) :: code32 p0 :: a.map code32)
  | 0x21 => a.zipIdx.map fun e => openRes sat (p0 :: a ++ b.flatten) <|
      if anyNan then .nan
      else openValue 0x21 (code32 e.1 :: code32 (b0.getD e.2 (.fin false 1 0)) :: code32 ((b.getD 1 []).getD e.2 .zero)
        :: code32 p0 :: a.map code32)
  | 0x30 => let s := rowSum sat a; s :: (unit [s.1]).drop 1
  | 0x31 => unit [rowMax a]
  | 0x32 => unit [rowMin a]
  | 0x33 => let s := rowSumSq sat a; s :: (unit [s.1]).drop 1
  | 0x40 =>
    if a.all (· == .inf true) then pure_ (a.map fun _ => .zero)
    else a.map fun x => openRes sat (p0 :: a) <|
      if a.any (· == .nan) then .nan else openValue 0x40 (code32 x :: code32 p0 :: a.map code32)
  | 0x41 => let (m, l, c) := smState p0 a b.head?; unit [m, l, c]
  | 0x42 =>
    let m := (stateOf b0).1
    a.map fun x => openRes sat [p0, x, m] <|
      if m == .inf true then .zero
      else
        let y := (p0.mul x).add m.neg
        if y == .nan then .nan else if y == .inf true then .zero else openValue 0x42 [code32 x, code32 p0, code32 m]
  | 0x43 => a.map fun x => fin32 sat (x.mul (stateOf b0).2.2)
  | 0x44 =>
    let l := (stateOf b0).2.1
    a.map fun x => openRes sat [x, l] <|
      if l.isZero then .zero else if x == .nan || l == .nan then .nan else openValue 0x44 [code32 x, code32 l]
  | _ =>
    let same := b0.length == a.length
    a.zipIdx.map fun e => vecElem op sat p0 p1 (if occ = 0 then 0 else occ + e.2) e.1 (if same then b0.getD e.2 .nan else b0.headD .nan)

/-- Operations with a default P0 of 2^-20, and the default P1 0 (R108). -/
def vecDefault (op : Nat) : Num × Num := (if op = 0x20 || op = 0x21 then .fin false 1 (-20) else .fin false 1 0, .zero)

/-- The operation code and output format of a vector slot (R107). -/
def vecOp (func : Nat) : Nat := func % 256
def vecFmt (func : Nat) : Nat := bitsOf func 10 8 + 1

/-- A whole vector operation: A's rows, B's rows (one for all, one for each, or the rows of a norm), their formats. -/
def vecCompute (func fa fb : Nat) (p0 p1 : Num) (occ : Nat) (a b : List RowData) : Computed :=
  let op := vecOp func
  let f := vecFmt func
  let sat := bitOf func 11
  let fl := (fltOf f).getD fp32
  let nums (g : Nat) (r : RowData) := (codesOf g r.bytes).map (vecNum g)
  let norm := op == 0x20 || op == 0x21
  let rows := a.zipIdx.map fun e =>
    let bs := if norm then b else if b.length == 1 then b else (b[e.2]?).toList
    let vals := vecRow op sat p0 p1 occ (nums fa e.1) (bs.map (nums fb))
    let out := vals.map fun v => (fl.encode sat v.1, v.2)
    let bytes := packCodes f (out.map fun v => v.1.1)
    let bad := if e.1.poisoned || bs.any RowData.poisoned then List.range (ceilDiv bytes.length 32) else []
    (({ bytes := bytes, bad := bad } : RowData), out.countP fun v => v.1.2 || v.2)
  { rows := rows.map (·.1), ovf := (rows.map (·.2)).sum, num := a.length }

/-! ### Derailleurs -/

/-- Elements of a row as FP32 numbers, each MX value times its block scale first (R115). -/
def drlNums (f : Nat) (r : RowData) : List Num :=
  let sc := r.scales.map (·.toNat)
  (codesOf f r.bytes).zipIdx.map fun e => match scaleAt (isMx f) sc e.2 with
    | some k => r32 ((elemNum f e.1).scale k)
    | none => .nan

/-- One converted code (R115), whether it saturated, whether it was not finite where the format cannot hold that. -/
def convElem (f : Nat) (sat : Bool) (x : Num) : Nat × Bool × Bool :=
  match fltOf f with
  | some fl =>
    let (c, o) := fl.encode sat x
    (c, o && (sat || fl.inf.isNone), fl.inf.isNone && (x == .inf true || x == .inf false))
  | none =>
    let (c, s) := if f = 13 then intCode 32 (-(2 ^ 31)) (2 ^ 31 - 1) x else intCode 8 (-128) 127 x
    (c, s, !x.isFin)

/-- Largest finite value of an MX element format (R116). -/
def mxLargest (f : Nat) : Num :=
  match fltOf f with
  | some fl => fl.largest
  | none => .fin false 127 (-6)

/-- A block quantised to an MX format (R116): scale byte, codes, how many saturated, whether one was not finite. -/
def mxBlock (f : Nat) (noclip : Bool) (xs : List Num) : Nat × List Nat × Nat × Bool :=
  if xs.any fun x => !x.isFin then (0xFF, xs.map fun _ => 0, 0, true)
  else
    let amax := xs.foldl (fun (m : Num) x => m.max x.abs) .zero
    let top := mxLargest f
    let x0 := amax.ilog - top.ilog
    let x1 : Int := if amax.isZero then 0 else if noclip && top.lt (amax.scale (-x0)) then x0 + 1 else x0
    let k := Max.max (-127) (Min.min 127 x1)
    let out := xs.map fun x =>
      let v := x.scale (-k)
      if f = 11 then intCode 8 (-127) 127 (v.scale 6) else ((fltOf f).getD e4m3).encode true v
    ((k + 127).toNat, out.map (·.1), out.countP (·.2), false)

/-- Numbers as a row of format `f`, how many elements saturated, how many elements or blocks were not finite. -/
def rowFrom (f : Nat) (sat noclip : Bool) (xs : List Num) : RowData × Nat × Nat :=
  if isMx f then
    let bs := (blocks32 xs.length xs).map (mxBlock f noclip)
    ({ bytes := packCodes f (bs.flatMap fun b => b.2.1), scales := bs.map fun b => BitVec.ofNat 8 b.1 },
      (bs.map fun b => b.2.2.1).sum, bs.countP fun b => b.2.2.2)
  else
    let out := xs.map (convElem f sat)
    ({ bytes := packCodes f (out.map (·.1)) }, out.countP (·.2.1), out.countP (·.2.2))

/-- The operation, flags and output format of a derailleur slot (R114). -/
def drlOp (func : Nat) : Nat := func % 16
def drlFmt (func outFmt : Nat) : Nat := if bitsOf func 15 8 = 0 then outFmt else bitsOf func 15 8

/-- A row wholly poisoned. -/
def RowData.spoil (r : RowData) : RowData :=
  { r with bad := List.range (ceilDiv r.bytes.length 32), sbad := List.range (ceilDiv r.scales.length 32) }

/-- CONVERT, GATHER and SCATTER of rows (R115, R118): GATHER and SCATTER move a row as it is where the format stays. -/
def drlRows (func outFmt fa : Nat) (a : List RowData) : Computed :=
  let f := drlFmt func outFmt
  let out := a.map fun r =>
    if drlOp func != 1 && f == fa then (r, 0, 0)
    else
      let (x, s, n) := rowFrom f (bitOf func 5) (bitOf func 4) (drlNums fa r)
      (if r.poisoned then x.spoil else x, s, n)
  { rows := out.map fun e => if e.1.poisoned then e.1.spoil else e.1
    ovf := (out.map (·.2.1)).sum, sat := (out.map (·.2.2)).sum }

/-- TRANSPOSE (R117): columns become rows. A poisoned input row poisons the sector of each output row that holds its
element (DEDUCED from R98, log entry 11), and its MX block's scale sector. -/
def drlTranspose (func outFmt fa off : Nat) (a : List RowData) : Computed :=
  let f := drlFmt func outFmt
  let vals := a.map (drlNums fa)
  let badCols := (a.zipIdx.filter fun e => e.1.poisoned).map (·.2)
  let n := (vals.headD []).length
  let out := (List.range n).map fun j => rowFrom f (bitOf func 5) (bitOf func 4) (vals.map fun v => v.getD j .nan)
  { rows := out.map fun e => { e.1 with
      bad := sectorsOfCols f off badCols
      sbad := if isMx f then (badCols.map fun c => c / 32 / 32).eraseDups else [] }
    ovf := (out.map (·.2.1)).sum, sat := (out.map (·.2.2)).sum }

/-! ### Reduction adders (R120, R121) -/

/-- One element reduced: operation 0 ADD, 1 MIN, 2 MAX; target format, the contribution's format. -/
def redElem (op f src held c : Nat) : Nat × Bool :=
  let fl := (fltOf f).getD fp32
  let x := fl.decode held
  let y := ((fltOf src).getD fp32).decode c
  fl.encode false (if op = 0 then x.add y else if op = 1 then x.min y else x.max y)

/-- One integer element of `w` bits reduced, and whether an addition wrapped. -/
def redInt (op w held c : Nat) : Nat × Bool :=
  let x := toSigned w held
  let y := toSigned w c
  if op = 0 then ((held + c) % 2 ^ w, decide (toSigned w ((held + c) % 2 ^ w) ≠ x + y))
  else (if (op == 1 && decide (y < x)) || (op != 1 && decide (x < y)) then c % 2 ^ w else held % 2 ^ w, false)

/-- The bytes a contribution leaves where the home held `held` (R121), how many elements overflowed, how many wrapped. -/
def redBytes (func f src : Nat) (held c : List Byte) : List Byte × Nat × Nat :=
  let op := func % 4
  if f = 13 then
    let w := if bitOf func 2 then 8 else 4
    let out := ((groups w (held.length / w) held).zip (groups w (c.length / w) c)).map fun e => redInt op (8 * w) (leNat e.1) (leNat e.2)
    (out.flatMap fun e => leBytes w e.1, 0, out.countP (·.2))
  else
    let out := ((codesOf f held).zip (codesOf src c)).map fun e => redElem op f src e.1 e.2
    (packCodes f (out.map (·.1)), out.countP (·.2), 0)

end Sys2Proof.Machine
end

