-- ==== Sys2Proof/Machine/Station.lean ====
section
/-!
DEFINITION. Machine/Station.lean: how a command is cut into tile operations (R64, R85, R109, R117, R118), the rows each
operation takes and gives, the house tile caches (R214), and what a house station computes.
-/
namespace Sys2Proof.Machine

/-! ### Tiles as stations see them -/

/-- Format, rows per plane, planes and elements per row of an input or an output. -/
structure LTile where
  fmt    : Nat
  rows   : Nat
  planes : Nat
  elems  : Nat
deriving DecidableEq, Repr

/-- A tile's rows; of a KPW tile the decoded rows (R147). -/
def ltile (t : Tile) (k : Option (Nat × Nat × Nat × Nat)) : LTile :=
  match k with
  | some (f, e, q, last) => ⟨f, (t.rowCount - 1) * q + last, t.planeCount, e⟩
  | none => ⟨t.format, t.rowCount, t.planeCount, elemsOf t.format t.rowLen⟩

/-- Kind of a station: 1 crank, 2 VEC, 3 DRL, 4 CAS, 5 RED, 6 guest. -/
def stnKind (stn : Nat) : Nat :=
  if stn = 0x40 then 5 else match houseEnd stn with
    | some (k, _) => k
    | none => 6

/-- The command's tile that a source names (2 IN0, 3 IN1). -/
def Cmd.source (x : Cmd) (src : Nat) : Option (Tile × Option (Nat × Nat × Nat × Nat)) :=
  if src = 2 then x.in0.map fun t => (t, x.kpw0) else if src = 3 then x.in1.map fun t => (t, x.kpw1) else none

/-- The command's output tile, counted in its own format. -/
def Cmd.outTile (x : Cmd) : LTile := match x.out with | some t => ltile t none | none => ⟨0, 0, 0, 0⟩

/-- What a slot gives of inputs a and b, whole (R82, R104, R108, R115 to R119). A guest's output before a further slot has
its first input's shape (DESIGN CHOICE, log entry 13). -/
def slotWhole (x : Cmd) (s : Nat) (last : Bool) (a b : LTile) : LTile :=
  let f := slotFunc s
  match stnKind (slotStn s) with
  | 1 => ⟨(crankFunc f).fmt, a.rows, Nat.max a.planes b.planes, if (crankFunc f).wt then b.elems else b.rows⟩
  | 2 => ⟨vecFmt f, a.rows, a.planes, if decide (0x30 ≤ vecOp f) && decide (vecOp f ≤ 0x33) || vecOp f == 0x41 then 8 else a.elems⟩
  | 3 =>
    let g := drlFmt f x.outTile.fmt
    match drlOp f with
    | 2 => ⟨g, a.elems, a.planes, a.rows⟩
    | 3 => ⟨g, if last then x.outTile.rows else b.rows * b.elems, 1, a.elems⟩
    | 4 => ⟨g, x.outTile.rows, 1, a.elems⟩
    | _ => ⟨g, a.rows, a.planes, a.elems⟩
  | 5 => a
  | 4 => x.outTile
  | _ => if last then x.outTile else a

/-- Slot `i` writes the output tile: it is last, or only RED follows. -/
def lastSlot (sl : List Nat) (i : Nat) : Bool := i + 1 == sl.length || (i + 2 == sl.length && slotStn (sl.getD (i + 1) 0) == 0x40)

/-- The whole inputs A and B of slot `i` where `prev` is what the slot before it gives. -/
def slotIn (x : Cmd) (s : Nat) (prev : LTile) (src : Nat) : LTile :=
  if src = 1 then prev else match x.source src with
    | some (t, k) => ltile t k
    | none => ⟨0, 0, 0, 0⟩

/-- What each slot gives, in order. -/
def slotsWhole (x : Cmd) : List LTile :=
  let sl := routeSlots x.route
  (sl.zipIdx.foldl (fun (acc : List LTile × LTile) e =>
    let o := slotWhole x e.1 (lastSlot sl e.2) (slotIn x e.1 acc.2 (slotSrcA e.1)) (slotIn x e.1 acc.2 (slotSrcB e.1))
    (acc.1 ++ [o], o)) ([], ⟨0, 0, 0, 0⟩)).1

/-- A and B of slot `i`. -/
def stageA (x : Cmd) (i : Nat) : LTile :=
  slotIn x i ((slotsWhole x).getD (i - 1) ⟨0, 0, 0, 0⟩) (slotSrcA (x.route.getD i 0))
def stageB (x : Cmd) (i : Nat) : LTile :=
  slotIn x i ((slotsWhole x).getD (i - 1) ⟨0, 0, 0, 0⟩) (slotSrcB (x.route.getD i 0))
def stageOut (x : Cmd) (i : Nat) : LTile := (slotsWhole x).getD i ⟨0, 0, 0, 0⟩

/-! ### Cutting into operations (R64) -/

/-- The rows a tile operation takes of the split tile, and the operations per plane. -/
def granule (x : Cmd) : Nat :=
  let s := x.route.getD 0 0
  let whole := Nat.max 1 (if slotSplitB s then (stageB x 0).rows else (stageA x 0).rows)
  if stnKind (slotStn s) = 4 then whole
  else if slotRows s != 0 then slotRows s
  else match stnKind (slotStn s) with
    | 1 => 2048
    | 2 => 64
    | 3 => if drlOp (slotFunc s) = 2 then 256 else Nat.max 1 Config.drlGranule
    | _ => whole

def splitTile (x : Cmd) : LTile := if slotSplitB (x.route.getD 0 0) then stageB x 0 else stageA x 0

def opsPerPlane (x : Cmd) : Nat := ceilDiv (splitTile x).rows (granule x)

/-- Planes cut: where one input has a single plane, the other's count (R82). -/
def cutPlanes (x : Cmd) : Nat :=
  if stnKind (slotStn (x.route.getD 0 0)) = 1 then Nat.max (stageA x 0).planes (stageB x 0).planes else (splitTile x).planes

/-- Operations at the first station (R64); a cassette command is one (R133). -/
def opCount (x : Cmd) : Nat :=
  if stnKind (slotStn (x.route.getD 0 0)) = 4 then 1 else cutPlanes x * opsPerPlane x

/-- A part of a tile: plane, rows, and columns (elements) of each row. -/
structure Part where
  plane : Nat
  row0  : Nat
  rows  : Nat
  col0  : Nat
  cols  : Nat
deriving DecidableEq, Repr

/-- The rows of the split tile that operation `k` takes. -/
def splitPart (x : Cmd) (k : Nat) : Part :=
  let per := Nat.max 1 (opsPerPlane x)
  let r0 := k % per * granule x
  ⟨k / per, r0, Nat.min (granule x) ((splitTile x).rows - r0), 0, (splitTile x).elems⟩

/-- A B that a vector operation cuts in lockstep with A (R109). -/
def lockstep (op : Nat) (a b : LTile) : Bool :=
  op != 0x20 && op != 0x21 && !(b.rows == 1 && b.planes == 1 && !(decide (0x41 ≤ op) && decide (op ≤ 0x44)))
    && b.rows == a.rows && b.planes == a.planes

/-- What operation `k` gives at slot `i`, where it gave `prev` at the slot before (R85, R117, R118). -/
def slotPart (x : Cmd) (i k : Nat) (prev : Part) : Part :=
  let s := x.route.getD i 0
  let a := stageA x i
  let b := stageB x i
  let o := stageOut x i
  let sp := if i = 0 then splitPart x k else prev
  let onB := if i = 0 then slotSplitB s else slotSrcB s == 1 && slotSrcA s != 1
  match stnKind (slotStn s) with
  | 1 =>
    if onB then (if (crankFunc (slotFunc s)).wt then ⟨sp.plane, 0, a.rows, 0, o.elems⟩ else ⟨sp.plane, 0, a.rows, sp.row0, sp.rows⟩)
    else ⟨sp.plane, sp.row0, sp.rows, 0, o.elems⟩
  | 2 => ⟨sp.plane, sp.row0, sp.rows, if o.elems = a.elems then sp.col0 else 0, if o.elems = a.elems then sp.cols else o.elems⟩
  | 3 =>
    match drlOp (slotFunc s) with
    | 2 => ⟨sp.plane, sp.col0, sp.cols, sp.row0, sp.rows⟩
    | 3 =>
      let i0 := sp.row0 * b.elems
      ⟨0, i0, Nat.min (sp.rows * b.elems) (o.rows - i0), 0, o.elems⟩
    | 4 => ⟨0, 0, o.rows, 0, o.elems⟩
    | _ => sp
  | 5 => sp
  | 4 => ⟨0, 0, o.rows, 0, o.elems⟩
  | _ => if lastSlot (routeSlots x.route) i && !(o.elems == a.elems && o.rows == a.rows) then ⟨sp.plane, 0, o.rows, 0, o.elems⟩ else sp

/-- What operation `k` gives at slots 0 to `i`: the part at slot `i`. -/
def outPart (x : Cmd) (k : Nat) : Nat → Part
  | 0 => slotPart x 0 k ⟨0, 0, 0, 0, 0⟩
  | i + 1 => slotPart x (i + 1) k (outPart x k i)

/-! ### The rows an operation takes -/

/-- Where a row of an input comes from: memory (its address, bytes, scale address and bytes), the previous station, a
decoded page (its address, the row in it), or nowhere: a row of +0 (R118). -/
inductive RowSrc where
  | mem (va len sva slen : Nat)
  | prev
  | page (va row : Nat)
  | zero
deriving DecidableEq, Repr

/-- Row `r` of plane `p` of a command's tile. -/
def tileRow (t : Tile) (k : Option (Nat × Nat × Nat × Nat)) (p r : Nat) : RowSrc :=
  let p := if t.planeCount ≤ p then 0 else p
  match k with
  | some (_, _, q, _) => .page (t.rowAt p (r / Nat.max 1 q)) (r % Nat.max 1 q)
  | none => .mem (t.rowAt p r) (t.rowLen * 32) (t.scaleAt p r) (scaleLen t)

/-- The bytes of row `r` of an input or output that an operation holds. -/
def TileOp.buf (o : TileOp) (input r : Nat) (scale : Bool) : Option RowBuf :=
  o.bufs.find? fun b => b.input == input && b.row == r && b.scale == scale

def TileOp.row (o : TileOp) (input r : Nat) : RowData :=
  let e := o.buf input r false
  let s := o.buf input r true
  ⟨(e.map (·.bytes)).getD [], (s.map (·.bytes)).getD [], (e.map (·.bad)).getD [], (s.map (·.bad)).getD []⟩

/-- Indices a GATHER or SCATTER operation holds: those of its B rows, in order (R118). -/
def TileOp.indices (o : TileOp) (n : Nat) : List Int := (List.range n).flatMap fun r => (codesOf 13 (o.row 1 r).bytes).map (toSigned 32)

/-- A legal index into `n` rows; a hole otherwise (R118). -/
def inRows (i : Int) (n : Nat) : Bool := decide (0 ≤ i) && decide (i < n)

/-- The part of an input that operation `o` takes, and its source code. -/
def inPart (x : Cmd) (o : TileOp) (input : Nat) : Part × Nat :=
  let s := x.route.getD o.stage 0
  let src := if input = 0 then slotSrcA s else slotSrcB s
  let a := stageA x o.stage
  let b := stageB x o.stage
  let w := if input = 0 then a else b
  let sp := if o.stage = 0 then splitPart x o.k else outPart x o.k (o.stage - 1)
  let mine := if o.stage = 0 then (input == 1) == slotSplitB s else src == 1
  let whole : Part := ⟨sp.plane, 0, w.rows, 0, w.elems⟩
  if mine then (sp, src)
  else if stnKind (slotStn s) = 2 && input == 1 && lockstep (vecOp (slotFunc s)) a b then (⟨sp.plane, sp.row0, sp.rows, 0, w.elems⟩, src)
  else (whole, src)

/-- An operation that takes the rows its indices name (R118). -/
def isGather (x : Cmd) (o : TileOp) : Bool :=
  let s := x.route.getD o.stage 0
  stnKind (slotStn s) == 3 && drlOp (slotFunc s) == 3
def isScatter (x : Cmd) (o : TileOp) : Bool :=
  let s := x.route.getD o.stage 0
  stnKind (slotStn s) == 3 && drlOp (slotFunc s) == 4

/-- The rows of an input in delivery order. -/
def inRowsOf (x : Cmd) (o : TileOp) (input : Nat) : List RowSrc :=
  let (p, src) := inPart x o input
  if src = 0 then []
  else if src = 1 then List.replicate p.rows .prev
  else match x.source src with
    | none => []
    | some (t, k) =>
      if input = 0 && isGather x o then
        let n := (ltile t k).rows
        ((o.indices (inPart x o 1).1.rows).take (outPart x o.k o.stage).rows).map fun i =>
          if inRows i n then tileRow t k 0 i.toNat else .zero
      else if input = 0 && isScatter x o then
        let b := stageB x o.stage
        let r0 := (splitPart x o.k).row0 * b.elems
        (List.range (Nat.min ((splitPart x o.k).rows * b.elems) ((ltile t k).rows - r0))).map fun i => tileRow t k 0 (r0 + i)
      else (List.range p.rows).map fun r => tileRow t k p.plane (p.row0 + r)

/-- Element and scale bytes of a row of an input. -/
def rowBytes (x : Cmd) (o : TileOp) (input : Nat) (r : RowSrc) : Nat × Nat :=
  let w := if input = 0 then stageA x o.stage else stageB x o.stage
  let cols := (inPart x o input).1.cols
  let whole := (bytesOf w.fmt w.elems, if isMx w.fmt then w.elems / 32 else 0)
  match r with
  | .mem _ l _ sl => (l, sl)
  | .prev => (bytesOf w.fmt cols, if isMx w.fmt then cols / 32 else 0)
  | .page _ _ => whole
  | .zero => whole

/-- One flit of an input: input, row, its source, whether scale bytes, its first byte and its bytes (R68, R274). -/
structure Flit where
  input : Nat
  row   : Nat
  src   : RowSrc
  scale : Bool
  off   : Nat
  len   : Nat
deriving DecidableEq, Repr

/-- The flits of `n` bytes. -/
def flitsOf (n : Nat) : List (Nat × Nat) := (List.range (ceilDiv n 256)).map fun i => (256 * i, Nat.min 256 (n - 256 * i))

/-- The flits of an operation's inputs in delivery order: A before B (R77), of GATHER the indices first (R118). -/
def opFlits (x : Cmd) (o : TileOp) : List Flit :=
  (if isGather x o then [1, 0] else [0, 1]).flatMap fun input =>
    (inRowsOf x o input).zipIdx.flatMap fun r =>
      let (e, s) := rowBytes x o input r.1
      (flitsOf e).map (fun f => ⟨input, r.2, r.1, false, f.1, f.2⟩) ++ (flitsOf s).map fun f => ⟨input, r.2, r.1, true, f.1, f.2⟩

/-- Every input is at the station. -/
def opReady (x : Cmd) (o : TileOp) : Bool := o.posA == (opFlits x o).length

/-! ### House tile caches (R214, R216) -/

/-- Set of a line. -/
def tcSet (c sec : Nat) : Nat := (sec / 2 % 2048) ^^^ (c % 2048)

/-- Fill a sector; the least recently used of 16 other lines of its set leaves. -/
def tcFill (h : Hub) (t : TcSector) : Hub :=
  let same (y : TcSector) := y.stn == t.stn && y.ctx == t.ctx && y.sec / 2 == t.sec / 2
  let peers := ((h.tc.filter fun y => y.stn == t.stn && tcSet y.ctx y.sec == tcSet t.ctx t.sec && !same y).map fun y =>
    (y.ctx, y.sec / 2)).eraseDups
  let tc := if peers.length < 16 then h.tc else match peers.getLast? with
    | some (c, l) => dropIf h.tc fun y => y.stn == t.stn && y.ctx == c && y.sec / 2 == l
    | none => h.tc
  { h with tc := t :: dropIf tc fun y => y.stn == t.stn && y.ctx == t.ctx && y.sec == t.sec }

/-- The sector at `va` as a station's input read finds it: in its tile cache, else at the home or in host memory. -/
def stnSector (h : Hub) (stn c va : Nat) : Option (List Byte × Bool) × Hub :=
  let sec := va / 32
  match (if hasTc stn then h.tc.find? fun y => y.stn == stn && y.ctx == c && y.sec == sec else none) with
  | some y => (some (y.bytes, y.bad), tcFill (addFld h F.tcHitHit (stnRouter stn) 1) y)
  | none =>
    match vaSector h c va stn with
    | (some (bs, bad), h) =>
      if hasTc stn then (some (bs, bad), tcFill (addFld h F.tcMissMiss (stnRouter stn) 1) ⟨stn, c, sec, bs, bad⟩)
      else (some (bs, bad), h)
    | r => r

/-- The sectors `vas` in turn: bytes, and which were poisoned. -/
def stnSectors (stn c : Nat) : List Nat → Hub → Option (List (List Byte × Bool)) × Hub
  | [], h => (some [], h)
  | a :: r, h0 =>
    let (x, h) := stnSector h0 stn c a
    let (y, h) := stnSectors stn c r h
    match x, y with
    | some v, some vs => (some (v :: vs), h)
    | _, _ => (none, { h with hostHave := h0.hostHave })

/-- The bytes of a flit and its poisoned sectors, where they are there; the requests sent otherwise. -/
def fetchFlit (h : Hub) (o : TileOp) (f : Flit) : Option (List Byte × List Nat) × Hub :=
  match f.src with
  | .mem va _ sva _ =>
    let a := (if f.scale then sva else va) + f.off
    match stnSectors o.station o.ctx ((sectorsOf a f.len).map (· * 32)) h with
    | (some vs, h) =>
      (some (sliceB (vs.flatMap (·.1)) (a % 32) f.len, (vs.zipIdx.filter (·.1.2)).map fun e => f.off / 32 + e.2), h)
    | (none, h) => (none, h)
  | .zero => (some (List.replicate f.len 0, []), h)
  | _ =>
    match o.buf (4 + f.input) f.row f.scale with
    | some b =>
      if f.off + f.len ≤ b.bytes.length then
        (some (sliceB b.bytes f.off f.len, b.bad.filter fun s => decide (f.off / 32 ≤ s) && decide (s * 32 < f.off + f.len)), h)
      else (none, h)
    | none => (none, h)

/-- Replace an operation. -/
def putOp (h : Hub) (o : TileOp) : Hub := { h with ops := mapIf h.ops (fun y => y.opid == o.opid) fun _ => o }
def findOp (h : Hub) (i : Nat) : Option TileOp := h.ops.find? fun o => o.opid == i

/-- Add bytes to the row an operation holds. -/
def TileOp.addBytes (o : TileOp) (input r : Nat) (scale : Bool) (bs : List Byte) (bad : List Nat) : TileOp :=
  match o.buf input r scale with
  | some b => { o with bufs := mapIf o.bufs (· == b) fun b => { b with bytes := b.bytes ++ bs, bad := b.bad ++ bad } }
  | none => { o with bufs := o.bufs ++ [⟨input, r, scale, bs, bad⟩] }

/-! ### What a house station computes -/

/-- Rows of an input as the station holds them. -/
def heldRows (x : Cmd) (o : TileOp) (input : Nat) : List RowData :=
  (List.range (inRowsOf x o input).length).map fun r => o.row input r

/-- The parameter word of the operation's slot: bytes 0 to 3, bytes 4 to 7; none where the command has no block (R84, R105). -/
def opParam (x : Cmd) (o : TileOp) : Option (Nat × Nat) :=
  if x.param = 0 then none else some (numAt x.params (8 * o.stage) 4, numAt x.params (8 * o.stage + 4) 4)

/-- Where the operation's first output byte lies in its sector. -/
def outOff (x : Cmd) (o : TileOp) : Nat := bytesOf (stageOut x o.stage).fmt (outPart x o.k o.stage).col0 % 32

/-- What the operation's station computes of its rows. -/
def opCompute (h : Hub) (x : Cmd) (o : TileOp) : Computed :=
  let a := heldRows x o 0
  let b := heldRows x o 1
  let fa := (stageA x o.stage).fmt
  let fb := (stageB x o.stage).fmt
  let p := opParam x o
  match stnKind o.station with
  | 1 => matmul o.func o.autoMax fa fb (p.map fun w => fp32.decode w.1) (outOff x o) a b
  | 2 =>
    let d := vecDefault (vecOp o.func)
    vecCompute o.func fa fb ((p.map fun w => fp32.decode w.1).getD d.1) ((p.map fun w => fp32.decode w.2).getD d.2) (h.freeN + 1) a b
  | 3 =>
    match drlOp o.func with
    | 2 => drlTranspose o.func x.outTile.fmt fa (outOff x o) a
    | 5 => drlPack fa (p.map fun w => match fp32.decode w.1 with
        | .fin _ m e => nearest m e 0
        | _ => 0) a
    | 4 =>
      let idx := o.indices (inPart x o 1).1.rows
      let n := (stageOut x o.stage).rows
      let c := drlRows o.func x.outTile.fmt fa ((a.zip idx).filterMap fun e => if inRows e.2 n then some e.1 else none)
      { c with note := (idx.take a.length).countP fun i => decide ((n : Int) ≤ i) }
    | 3 =>
      let idx := (o.indices (inPart x o 1).1.rows).take a.length
      { drlRows o.func x.outTile.fmt fa a with note := idx.countP fun i => decide (((stageA x o.stage).rows : Int) ≤ i) }
    | _ => drlRows o.func x.outTile.fmt fa a
  | _ => { rows := a }

/-- Output rows as the operation's buffers. -/
def outBufs (c : Computed) : List RowBuf :=
  c.rows.zipIdx.flatMap fun r =>
    ⟨2, r.2, false, r.1.bytes, r.1.bad⟩ :: (if r.1.scales.isEmpty then [] else [⟨2, r.2, true, r.1.scales, r.1.sbad⟩])

/-- Row of the output tile that output row `r` of the operation is (R118: SCATTER by its indices). -/
def outRow (x : Cmd) (o : TileOp) (r : Nat) : Nat :=
  if isScatter x o then
    let n := (stageOut x o.stage).rows
    let a := (inRowsOf x o 0).length
    (((o.indices (inPart x o 1).1.rows).take a).filter fun i => inRows i n).getD r 0 |>.toNat
  else (outPart x o.k o.stage).row0 + r

/-- Address of byte `off` of output row `r` (R42). -/
def outAddr (x : Cmd) (o : TileOp) (r : Nat) (scale : Bool) (off : Nat) : Nat :=
  match x.out with
  | none => 0
  | some t =>
    let p := outPart x o.k o.stage
    if scale then t.scaleAt p.plane (outRow x o r) + p.col0 / 32 + off
    else t.rowAt p.plane (outRow x o r) + bytesOf t.format p.col0 + off

end Sys2Proof.Machine
end

