-- ==== Sys2Proof/Machine/Kill.lean ====
section
/-!
DEFINITION. Machine/Kill.lean: killing a context (R358, R359), stations becoming LOST (R99), queues that end (R62),
suspension (R357) and teardown (R361).
-/
namespace Sys2Proof.Machine

/-! ### Queues that end (R62) -/

/-- The context a bank of a CTX register belongs to. -/
def regCtx (r : Reg) (bank : Nat) : Nat :=
  match r with
  | .ctxQsqBase | .ctxQcqBase | .ctxQcfg | .ctxQstat | .ctxQpos => bank / 64
  | .ctxRouteSlot0 => bank / 8
  | _ => bank

/-- Queue numbers free (OD 0x6000.02). -/
def countQnums (h : Hub) : Hub := setOdNum h OD.dspFreeQueues 4 (262144 - h.qnums.length)

/-- The slot is FREE and its queue number is free again. -/
def freeQueue (h : Hub) (c s : Nat) : Hub :=
  let n := fld h F.ctxQstatQnum (qkey c s)
  let h := { h with queues := tdel h.queues (qkey c s), qnums := h.qnums.erase n }
  countQnums (setReg h .ctxQstat (qkey c s) 0)

/-- A DRAINING queue whose issued commands and records are done is freed. -/
def drainedQueue (h : Hub) (c s : Nat) : Bool :=
  qState h c s == 3 && (cmdsOf h c s).isEmpty && (qrec h c s).recs.isEmpty

/-- Records that a full ring keeps out of a queue that drains can never be written, since its doorbells are dropped: a teardown drops
them with their commands (R361, log entry 18). -/
def dropStuck (h : Hub) (c s : Nat) : Hub :=
  if cqRoom h c s then h
  else
    let q := qrec h c s
    { setQrec h c s { q with recs := [] } with
      cmds := dropIf h.cmds fun x => x.ctx == c && x.slot == s && q.recs.any fun r => r.cmd == some x.count }

/-- DESTROY (R62): nothing more is issued, what was issued finishes. -/
def destroyQueue (h : Hub) (c s : Nat) : Hub :=
  if qState h c s != 1 && qState h c s != 2 then h
  else
    let rest := (cmdsOf h c s).filter fun x => !x.begun
    let h := dropWaits { h with cmds := dropIf h.cmds fun x => x.ctx == c && x.slot == s && !x.begun } c s fun n =>
      rest.any fun x => x.count == n
    setFld h F.ctxQstatState (qkey c s) 3

/-! ### Kills (R358, R359) -/

/-- The oldest command of a queue that has not ended: at or above HEAD, and without its record. -/
def oldest (h : Hub) (c s : Nat) : Option Nat :=
  let q := qrec h c s
  let head := qHead h c s
  let n := Nat.min ((q.sqTail + 2 ^ 32 - head) % 2 ^ 32) (q.doneSet.length + 2)
  ((List.range n).map fun i => (head + i) % 2 ^ 32).find? fun k => !(q.doneSet.contains k || q.ended == some k)

/-- A killed context's queue: the records in line for the ring, as far as it has room, then one KILLED record for the oldest
command that has not ended, and no more; its commands go (R71, log entry 18). -/
def killQueue (h : Hub) (c s : Nat) : Hub :=
  let q := qrec h c s
  let room := 2 ^ fld h F.ctxQcfgCqLog2 (qkey c s) - (q.written + 2 ^ 32 - q.cqHead) % 2 ^ 32
  let last : List CplRec := match oldest h c s with
    | some n => [⟨((findCmd h c s n).map Cmd.tag).getD 0, 9, 0, none⟩]
    | none => []
  let recs := ((q.recs.map fun (r : CplRec) => { r with cmd := none }) ++ last).take room
  let h := haltQueue (setQrec h c s { q with recs := recs }) c s 9
  flushRecords { h with cmds := dropIf h.cmds fun x => x.ctx == c && x.slot == s } c s

/-- A ring page of queue `s` of context `c`: the next command it reads (true), or its next record (false). -/
def ringPage (h : Hub) (c s page : Nat) (sq : Bool) : Bool :=
  let q := qrec h c s
  if sq then
    let a := getReg h .ctxQsqBase (qkey c s) + q.nextRd % 2 ^ fld h F.ctxQcfgSqLog2 (qkey c s) * 64
    q.nextRd != q.sqTail && a / 4096 == page
  else
    let a := getReg h .ctxQcqBase (qkey c s) + q.written % 2 ^ fld h F.ctxQcfgCqLog2 (qkey c s) * 16
    !q.recs.isEmpty && a / 4096 == page

/-- A request for the page of a completion ring that a record waits for. -/
def recordAsks (h : Hub) (t : TransReq) : Bool :=
  t.write && (queuesOf h t.ctx).any fun s => dspWho h t.ctx s == t.who && ringPage h t.ctx s (t.va / 4096) false

/-- Steps 1 to 6 of R359. -/
def killCore (h : Hub) (c cause : Nat) : Hub :=
  let h := setFld (setFld h F.ctxStatusState c 5) F.ctxStatusKillCause c cause
  let h := endOps h fun o => o.ctx == c
  let h := syncKill h c
  let h := each (queuesOf h c) h fun h s => killQueue h c s
  let h := { h with atc := dropIf h.atc fun e => e.ctx == c
                    tc := dropIf h.tc fun e => e.ctx == c
                    trReqs := dropIf h.trReqs fun t => t.ctx == c && !recordAsks h t }
  let h := abortLoads (dropHost (refuseHeld h c) c) c
  let h := each (h.pools.filter fun e => e.2.ctx == c && e.2.next.isSome) h fun h e => bindEnd h e.1 3
  let h := raise h E.ctxKilled c
  let h := if flag h F.ctxCfgIntEn c then sendMsix h (ctxFunc h c) (fld h F.ctxCfgVector c) else h
  let h := faultRecord h 0x10 false false c cause 0
  let (r, h) := drawFree h 6
  trace h 0 r 0x41 (some c) (c + cause * 2 ^ 16)

/-- Kill context `c` (R358, R359). One that is not ACTIVE, SUSPENDING or SUSPENDED is left as it is. -/
def killCtx (h : Hub) (c cause : Nat) : Hub :=
  if !ctxLive h c then h
  else
    let h := killCore h c cause
    let h := each (leasesOf h c) h fun h e => leaseEnd h e.1 e.2 true
    podCloseCtx h c true

/-! ### Stations LOST (R99, R106, R143) -/

/-- The LOST state and event of a house station. -/
def markLost (h : Hub) (stn : Nat) : Hub :=
  match houseEnd stn with
  | some (1, n) => raise (setFld h F.crankStatusState n 3) E.crankLost n
  | some (2, n) => raise (setFld h F.vecStatusState n 3) E.vecLost n
  | some (3, n) => raise (setFld h F.drlStatusState n 3) E.drlLost n
  | some (_, n) => raise (setFld h F.casStatusState n 3) E.casLost n
  | none => h

/-- State of a house station: 0 ABSENT, 1 IDLE, 2 BUSY, 3 LOST. -/
def stnState (h : Hub) (stn : Nat) : Nat :=
  match houseEnd stn with
  | some (1, n) => if h.variant.crankOn n then fld h F.crankStatusState n else 0
  | some (2, n) => fld h F.vecStatusState n
  | some (3, n) => fld h F.drlStatusState n
  | some (_, n) => fld h F.casStatusState n
  | none => 0

/-- Tile operations at a house station. -/
def resident (h : Hub) (stn : Nat) : Nat := (h.ops.filter fun o => o.station == stn && o.range == 0).length

/-- The state a station shows: an IDLE one with operations is BUSY. -/
def stnShown (h : Hub) (stn : Nat) : Nat := if stnState h stn = 1 && resident h stn != 0 then 2 else stnState h stn

/-- The policy that kills the contexts of a lost station. -/
def lostKills (h : Hub) (stn : Nat) : Bool :=
  match stnKind stn with
  | 1 => odOn h OD.crankLostKill
  | 4 => odOn h OD.casLostKill
  | _ => odOn h OD.vdrLostKill

/-- A house station becomes LOST (R99): its operations and those still to come to it end STATION_LOST. -/
def stationLost (h : Hub) (stn : Nat) : Hub :=
  if stnState h stn = 3 || stnState h stn = 0 then h
  else
    let ctxs := ((h.ops.filter fun o => o.station == stn).map (·.ctx)).eraseDups
    let h := notice (markLost h stn) 0x0131 stn
    let doomed := if lostKills h stn then ctxs else []
    let h := loseStations h [stn] doomed
    let h := { h with ops := dropIf h.ops fun o => o.station == stn }
    each doomed h fun h c => later h (.kill c 3)

/-! ### Suspension (R357) -/

/-- A SUSPENDING context whose last operation retired is SUSPENDED. -/
def suspendSettle (h : Hub) (c : Nat) : Hub :=
  if ctxState h c = 3 && !(h.ops.any fun o => o.ctx == c) then setFld h F.ctxStatusState c 4 else h

/-! ### Teardown (R361) -/

/-- The entries of the context's route window are set empty (R356, R361): an entry without a list reads as empty. -/
def emptyWindow (h : Hub) (c : Nat) : Hub :=
  let base := fld h F.ctxRouteWinBase c
  { h with routes := dropIf h.routes fun e => decide (base ≤ e.1) && decide (e.1 < base + fld h F.ctxRouteWinCount c) }

/-- Steps 3 and on, one after another, as far as they go without waiting. Step 3 starts the sweep of the context, which
CONTEXT_SWEEP_DONE ends. -/
def tearRest (h : Hub) (c : Nat) : Hub :=
  let h := casUnbindCtx h c
  let h := if odOn h OD.syncAudit then syncAudit h c else h
  let h := syncFree h c
  let h := setReg h .syncCtxCfg c (regReset h.variant .syncCtxCfg c)
  let h := emptyWindow h c
  let h := { h with atc := dropIf h.atc fun e => e.ctx == c
                    tc := dropIf h.tc fun e => e.ctx == c
                    trReqs := dropIf h.trReqs fun t => t.ctx == c
                    teardown := tdel h.teardown c }
  let h := abortLoads (dropHost (refuseHeld h c) c) c
  let cfg := fld h F.ctxCfgVector c
  let int := flag h F.ctxCfgIntEn c
  let h := resetRegs h fun r b => r.info.block == .ctx && regCtx r b == c && r != .ctxFunc && r != .ctxEvtCnt
  let h := raise (setFld h F.ctxStatusState c 1) E.ctxTornDown c
  let h := if int then sendMsix h (ctxFunc h c) cfg else h
  if h.freeAfter.contains c then
    setReg { h with freeAfter := h.freeAfter.erase c } .ctxFunc c 0 |> fun h => setFld h F.ctxStatusState c 0
  else h

/-- The teardown of `c` goes on: 1 queues drain, 2 leases end, 3 the sweep (R209). -/
def tearRun : Nat → Hub → Nat → Hub
  | 0, h, _ => h
  | n + 1, h, c =>
    match tget h.teardown c with
    | none => h
    | some 1 =>
      let h := each (queuesOf h c) h fun h s =>
        let h := dropStuck h c s
        if drainedQueue h c s then freeQueue h c s else h
      if !(queuesOf h c).isEmpty then h
      else
        let h := each (leasesOf h c) h fun h e => leaseEnd h e.1 e.2 false
        tearRun n { h with teardown := tset h.teardown c 2 } c
    | some 2 =>
      if !(leasesOf h c).isEmpty then h
      else tearRun n (sweepContext { h with teardown := tset h.teardown c 3 } c []) c
    | some 3 => if h.sweeps.any fun s => s.1 == 0 && s.2.1 == c then h else tearRest h c
    | some _ => h

/-- TEARDOWN (R361). A killed context's queues have nothing to finish. -/
def tearStart (h : Hub) (c : Nat) : Hub :=
  let h := setFld { h with teardown := tset h.teardown c 1 } F.ctxStatusState c 6
  let h := each (queuesOf h c) h fun h s => destroyQueue h c s
  let h := podCloseCtx h c false
  tearRun 8 h c

end Sys2Proof.Machine
end

