-- ==== Sys2Proof/Machine/Reset.lean ====
section
/-!
DEFINITION. Machine/Reset.lean: fatal data-half sources (R19, R540), the data-half reset (R20), bring-up failures (R511)
and hub-fatal errors (R541).
-/
namespace Sys2Proof.Machine

/-! ### Holding the data half in reset -/

/-- Registers of the data half: every block but the hub globals (R30), the VF block (R432) and those the control half
serves. -/
def dataBlock (b : Block) : Bool :=
  match b with
  | .hub => false
  | .vf => false
  | .boot => false
  | .fault => false
  | .trc => false
  | .mbx => false
  | .pwr => false
  | _ => true

/-- Dictionary values that mirror the data half (R461): OD 0x6000.02, the regions' and their binding's entries, a guest's vendor,
product and digest, the rim's totals, the pod roster. -/
def dataOd (k : Nat) : Bool :=
  let i := k / 256
  k == OD.dspFreeQueues || (decide (0x5100 ≤ i) && decide (i < 0x5140)) || (decide (0x8080 ≤ i) && decide (i < 0x80C0))
    || (decide (0x4000 ≤ i) && decide (i < 0x4880) && i % 64 == 0 && [2, 3, 14].contains (k % 256))
    || k == OD.rimCeTotal || k == OD.rimRetryTotal || k == OD.podRoster

/-- Everything the data half holds returns to its value after reset; HBM contents are not preserved (R20). -/
def clearData (h : Hub) : Hub :=
  let h := { h with od := dropIf h.od fun e => dataOd e.1 }
  let h := resetRegs h fun r _ => dataBlock r.info.block
  { h with
    hbm := [], poison := [], hostBuf := [], hostHave := [], hostReads := [], live := [], portCap := 0, reserve := 0
    hbms := [], ports := [], regions := [], dir := [], cohTxns := [], cohQ := [], cohPend := [], sweeps := []
    agents := [], agentLines := [], snpOut := [], tc := [], tcHold := [], queues := [], qnums := [], cmds := [], ops := [], routes := []
    redQ := [], atc := [], trReqs := [], invals := [], teardown := [], freeAfter := [], sems := [], waits := [], grants := []
    barriers := [], parts := [], posts := [], acqWait := [], guests := [], links := [], leases := [], strs := []
    podTx := [], podRx := [], podAck := [], podCh := [], podRxQ := [], podIn := [], podBar := [], podHas := false, podGen := []
    pools := [], casSlots := [], rimTries := [], wheels := [], frozenBy := 0, fatalPend := 0, dataReset := true
    binds := [], bindQ := []
    pwr := { h.pwr with state := if h.pwr.state = 3 then 3 else 0, holdClk := none, avs := {}, held := [], guests := [], want := none }
    mg := { h.mg with fatalNew := false }
    funcs := h.funcs.map fun e => (e.1, { e.2 with slots := [], suspended := [] }) }

/-- `DATA_UP`, `READY` and `FROZEN` read 0 and the guests are held in reset, their supplies untouched (R20). -/
def dataDown (h : Hub) : Hub :=
  let h := each h.present (clearData h) fun h s => emit h .grstN s [0]
  setFld (setFld (setFld h F.hubStatusDataUp 0 0) F.hubStatusReady 0 0) F.hubStatusFrozen 0 0

/-- Bring-up stops (R511) in the phase that runs, and the data half is held in reset. -/
def bringUpFail (h : Hub) (code : Nat) : Hub :=
  if fld h F.bootStatusPhase = 15 then h
  else
    let h := setFld (setFld h F.bootStatusFailPhase 0 (fld h F.bootStatusPhase)) F.bootStatusFailCode 0 code
    let h := raise (setFld h F.bootStatusPhase 0 15) E.bootFailed
    setFld (dataDown h) F.hubStatusDataResetting 0 0

/-- A new bring-up attempt begins: one more in `ATTEMPTS`, the results of the last one cleared (R520, R523). -/
def beginBringUp (h : Hub) (warm : Bool) (phase : Nat) : Hub :=
  let n := fld h F.bootStatusAttempts
  let h := setFld (setFld h F.bootStatusAttempts 0 (Nat.min 255 (n + 1))) F.bootStatusPhase 0 phase
  let h := setFld (setFld h F.bootStatusFailCode 0 0) F.bootStatusFailPhase 0 0
  let h := setReg (setReg (setReg (setReg h .bootTime0 0 0) .bootTime1 0 0) .bootResult 0 0) .bootResult2 0 0
  { h with warmRun := warm, retried := false, bootMs := 0 }

/-- The data-half reset of R20, and the start of its warm restart (R520). What `PHASE` reads in the reset phase, which
has no number, is free below 8. -/
def dataHalfReset (h : Hub) : Hub :=
  let h := podRaise h 5 0
  let h := each ((usedCtx h).filter fun c => ctxLive h c) h fun h c => killCore h c 8
  let h := each h.invals h fun h v => emit h .invalComplete v.func [v.itag]
  let h := setFld (dataDown h) F.hubStatusDataResetting 0 1
  let (p, h) := drawFree h 3
  let h := if h.pwr.level = 0 then { h with pwr := { h.pwr with level := 1 } } else h
  beginBringUp { h with todo := [], mg := { h.mg with warmReset := true } } true p

/-! ### Fatal sources (R540) -/

/-- Firmware's record of a source: counted always, kept where it is the first (R540). -/
def countFatal (h : Hub) (src : Nat) (first : Bool) : Hub :=
  let h := bumpOd h OD.fatalCount 4
  if first then deliverNotice (setOdNum h OD.fatalLast 1 src) 0x0100 src else h

/-- The control half acts on a data half frozen by a fatal source (R540 steps 1 to 3). -/
def actOnFatal (h : Hub) (src : Nat) : Hub :=
  let h := countFatal h src true
  if odOn h OD.fatalAutoReset then dataHalfReset h else h

/-- The data half freezes (R18). -/
def freeze (h : Hub) : Hub := if frozen h then h else raise (setFld h F.hubStatusFrozen 0 1) E.hubFroze

/-- A fatal data-half source (R19, R540). While the control half is down it is reported when the stem link is up again
(R19): `fatalPend` counts the sources not yet reported. -/
def fatalSource (h : Hub) (src : Nat) : Hub :=
  if h.dataReset || !flag h F.hubStatusReady then bringUpFail (countFatal h src true) 5
  else if h.frozenBy != 0 then
    if h.ctlDown then { h with fatalPend := h.fatalPend + 1 } else countFatal h src false
  else
    let h := freeze { h with frozenBy := src }
    if h.ctlDown then { h with fatalPend := h.fatalPend + 1, mg := { h.mg with fatalNew := true } } else actOnFatal h src

/-- A hub-fatal error (R541): the data half is held in reset, the management core stops, and Uncorrectable Internal Error
is logged in the PF's AER registers (bit 22). -/
def hubFatal (h : Hub) (cause : Nat) : Hub :=
  if h.dead != 0 then h
  else
    let h := if h.ctlDown then h else deliverNotice h 0x0102 cause
    let h := setFld (dataDown h) F.hubStatusCtlUp 0 0
    let h := setFld (setFld h F.hubStatusDataResetting 0 0) F.hubStatusRideThrough 0 0
    let f := func h 0
    setFunc { h with dead := cause, ctlDown := true, todo := [] } 0 { f with errors := f.errors ++ [22] }

end Sys2Proof.Machine
end

