-- ==== Sys2Proof/Machine/Retire.lean ====
section
/-!
DEFINITION. Machine/Retire.lean: tile operations and range operations that end (R70), and the steps 8 to 10 of the commands
they belong to (R53).
-/
namespace Sys2Proof.Machine

/-- Every operation of a command has retired (R53 step 8): a failure ends it; FLUSH_OUT starts the flush of its output in the
last station (R221); else it completes. -/
def opsDone (h : Hub) (x : Cmd) : Hub :=
  if 1 < x.status then conclude h x
  else if x.bit1 2 && x.out.isSome then
    let last := (x.stations.getLast?).toList
    if last.isEmpty then conclude h x
    else match startRange h x 1 x.out.toList last with
      | none => putCmd h { x with step := 8 }
      | some (id, h) => putCmd h { x with step := 9, rangeOp := some id }
  else conclude h x

/-- Operation `o` leaves the scoreboard: its status goes to its command (R70, R71). -/
def retireOp (h : Hub) (o : TileOp) : Hub :=
  let h := { h with ops := dropIf h.ops fun y => y.opid == o.opid }
  let st := if o.bad = 0 then 0 else 1
  let h := trace h 0 (sliceRouter (o.opid / 65536)) 0x22 (some o.ctx) (o.opid + o.ctx * 2 ^ 18 + o.station * 2 ^ 32 + st * 2 ^ 48)
  let h := match houseEnd o.station with
    | some (1, n) => addFld h F.crankOpsOps n 1
    | some (2, n) => addFld h F.vecOpsOps n 1
    | some (3, n) => addFld h F.drlOpsOps n 1
    | _ => h
  match findCmd h o.ctx o.slot o.count with
  | none => h
  | some x =>
    let x := { (if o.bad = 0 then x else x.worse 4 o.badDetail) with retired := x.retired + 1 }
    let h := putCmd h x
    if x.retired = x.total && x.step = 7 then opsDone h x else h

/-- Its station is done and every write of it is acknowledged (R70). -/
def opRetires (h : Hub) (o : TileOp) : Bool :=
  o.range == 0 && o.doneSt.isSome && o.acks == 0 && !(o.bufs.any fun b => decide (0x100 ≤ b.input)) && !(h.redQ.any fun r => r.tag == .op o.opid)

/-- A range operation of a RANGE command that every station has answered. -/
def rangeEnds (h : Hub) (o : TileOp) : Bool :=
  o.range != 0 && o.waitFor.isEmpty && match findCmd h o.ctx o.slot o.count with
    | some x => x.opcode == 2 && x.step == 7
    | none => true

/-- Retire what can retire. -/
def retireAll (h : Hub) : Hub :=
  let h := each (h.ops.filter fun o => opRetires h o && !o.dead) h retireOp
  let h := { h with ops := dropIf h.ops fun o => o.dead && o.doneSt.isSome }
  each (h.ops.filter (rangeEnds h)) h fun h o =>
    let h := { h with ops := dropIf h.ops fun y => y.opid == o.opid }
    match findCmd h o.ctx o.slot o.count with
    | some x => conclude h { x with retired := x.total }
    | none => h

/-- Streaming writes whose line writes are all acknowledged are answered (R276). -/
def strEnds (h : Hub) : Hub :=
  let overI := h.strs.filter fun r => r.write && r.sent && r.left == 0
  each overI { h with strs := dropIf h.strs fun r => r.write && r.sent && r.left == 0 } fun h r => strCmp h r.stn r.txn (b2n r.bad)

end Sys2Proof.Machine
end

