-- ==== Sys2Proof/Machine/Settle.lean ====
section
/-!
DEFINITION. Machine/Settle.lean: the consequences that a step starts in other units are carried out before the step ends:
kills, isolations, lost stations, fatal sources, queues that can go on, teardowns and pod messages.
-/
namespace Sys2Proof.Machine

/-- Carry out one consequence. -/
def carryOut (h : Hub) (t : Todo) : Hub :=
  match t with
  | .kill c cause => killCtx h c cause
  | .isolate a cause => isolate h a cause
  | .violation a kind c src agent va stn opid => violation h a kind c src agent va stn opid
  | .lost stn => stationLost h stn
  | .fatal src => fatalSource h src
  | .suspect a => suspectAgent h a
  | .hubFatal cause => hubFatal h cause
  | .teardown c => tearRun 8 h c
  | .podNotice kind arg => podRaise h kind arg
  | .podPump => podPump (2 * h.podRxQ.length + 8) [] h
  | .podWaited ch status => podWaited h ch status
  | .run c s => runQueue h c s
  | .recBad c s => haltQueue h c s 4

/-- Carry out consequences in order, those they start behind them. -/
def drainTodo : Nat → Hub → Hub
  | 0, h => { h with todo := [] }
  | n + 1, h =>
    match h.todo with
    | [] => h
    | t :: r => drainTodo n (carryOut { h with todo := r } t)

/-- The data half serves register accesses and doorbells: out of reset and ready (R20, R509). A frozen one is readable. -/
def serving (h : Hub) : Bool := dataUp h && flag h F.hubStatusReady && h.dead == 0

/-! ### Host reads of HBM (R420, R424) -/

/-- The completions of a read: (address, length), none larger than `m` bytes, split only at multiples of `m`. -/
def cplSplit (m : Nat) : Nat → Nat → Nat → List (Nat × Nat)
  | 0, _, _ => []
  | n + 1, a, left => if left = 0 then [] else
      let k := Nat.min left (m - a % m)
      (a, k) :: cplSplit m n (a + k) (left - k)

/-- A BAR4 read is completed with these bytes and poisoned sectors. -/
def barComplete (h : Hub) (r : BarRead) (bs : List Byte) (bad : List Nat) : Hub :=
  each (cplSplit (128 * 2 ^ (func h 0).mps) r.len r.addr r.len) { h with pcie := { h.pcie with reads := h.pcie.reads.erase r } } fun h e =>
    let ep := (sectorsOf e.1 e.2).any bad.contains
    emit h (if ep then .cplEp else .cplD) 0 [r.tag, e.1] (sliceB bs (e.1 - r.addr) e.2)

/-- A read at the homes that needs a snoop first asks for it, unless it did (R208). `8192` is no context's number. -/
def lineAsk (h : Hub) (line : Nat) : Hub :=
  let mine (x : CohReq) : Bool := x.agent == 0xFF && x.line == line && x.op == 3
  if homeReady h (64 * line) || h.cohTxns.any (fun t => mine t.req) || h.cohQ.any mine then h
  else cohArrive h { op := 3, agent := 0xFF, txn := 0, ctx := 8192, vline := 0, line := line }

/-- A BAR4 read goes on: zeros with EP while the data half is down, else once no owner holds a line of it; in Park it waits (R497). -/
def barServe (h : Hub) (r : BarRead) : Hub :=
  let secs := sectorsOf r.addr r.len
  if !serving h then barComplete h r (List.replicate r.len 0) secs
  else if 2 ≤ h.pwr.state then h
  else if secs.all fun s => homeReady h (32 * s) then
    let (bs, bad, h) := homeRead h (r.addr / 32 * 32) (32 * secs.length)
    let bs := secs.zipIdx.flatMap fun e => if bad.contains e.1 then List.replicate 32 0 else sliceB bs (32 * e.2) 32
    barComplete h r (sliceB bs (r.addr % 32) r.len) bad
  else each (secs.map (· / 2)).eraseDups h lineAsk

/-- The memory window's read goes on: its data, poison and result once no owner holds a line of it (R553). -/
def memServe (h : Hub) : Hub :=
  match h.mg.ctl.memRead with
  | none => h
  | some (a, n) =>
    let secs := sectorsOf a (32 * n)
    if !serving h || decide (2 ≤ h.pwr.state) then h
    else if secs.all fun s => homeReady h (32 * s) then
      let (bs, bad, h) := homeRead h a (32 * n)
      let bs := secs.zipIdx.flatMap fun e => if bad.contains e.1 then List.replicate 32 0 else sliceB bs (32 * e.2) 32
      let mask := secs.zipIdx.foldl (fun m e => m + b2n (bad.contains e.1) * 2 ^ e.2) 0
      let h := setOdNum (setOdNum (setOdBytes h OD.dbgMemData bs) OD.dbgMemPoison 4 mask) OD.dbgMemResult 1 0
      { h with mg := { h.mg with ctl := { h.mg.ctl with memRead := none } } }
    else each (secs.map (· / 2)).eraseDups h lineAsk

/-- Operations retire, and a SUSPENDING context whose last one did is SUSPENDED (R357); BAR4 reads and the memory window's go on. -/
def housekeeping (h : Hub) : Hub :=
  let h := strEnds (retireAll h)
  let h := each ((usedCtx h).filter fun c => ctxState h c = 3) h suspendSettle
  memServe (each h.pcie.reads h barServe)

/-- Coast ends, because work came or the host called (R491, R501). -/
def coastExit (h : Hub) : Hub :=
  if h.pwr.state = 1 then
    let h := addFld { h with pwr := { h.pwr with state := 0 } } F.pwrCoastExitsExits 0 1
    trace h 1 0 0x81 none (1 + h.pwr.level * 2 ^ 4)
  else h

/-- In Park an access of the host starts a wake (R497, R501): the lowest source is kept. -/
def wantWake (h : Hub) (src : Nat) : Hub :=
  if h.pwr.state = 2 then
    { h with pwr := { h.pwr with want := some (match h.pwr.want with
        | some s => Nat.min s src
        | none => src) } }
  else h

/-- The host reaches for the data half. -/
def hostCalls (h : Hub) : Hub := wantWake (coastExit h) 1

/-- All consequences of a step. -/
def settle (h : Hub) : Hub :=
  let h := drainTodo 4096 (housekeeping (drainTodo 4096 h))
  if h.ops.isEmpty && h.cmds.isEmpty then h else coastExit h

/-- The effect `f` with its consequences. -/
def act (s : State) (f : Hub → Hub) : Host.Outcome State Fault Refusal := onHub s fun h => settle (f h)

/-- The effect `f` with its consequences where the command's unit exists. -/
def actUnit (ok : Bool) (s : State) (f : Hub → Hub) : Host.Outcome State Fault Refusal := onUnit ok s fun h => settle (f h)

/-- A register access to a half that is down is dropped (R17, R20, R31). -/
def regDropped (h : Hub) : Hub := raise h E.hubRegDropped

/-- Function `f` takes memory requests: the link is up, its memory space is enabled, it is in D0 and in no function-level reset
(R420, R425). A VF's memory space is enabled by the PF (R417). -/
def memOpen (h : Hub) (f : Nat) : Bool :=
  let fn := func h f
  let pf := func h 0
  h.pcie.up && !fn.flr && fn.pm == 0 && (if f = 0 then pf.memEn else pf.vfEn && pf.vfMse && decide (f ≤ pf.numVfs))

/-- An action of a data-half register: dropped while the data half does not serve. In Park it takes effect on the state kept there,
and starts the wake (DESIGN CHOICE, log entry 41). -/
def dataReg (s : State) (ok : Bool) (f : Hub → Hub) : Host.Outcome State Fault Refusal :=
  actUnit ok s fun h => if serving h then f (hostCalls h) else regDropped h

/-- An action of a control-half register: dropped while the control half is down. -/
def ctlReg (s : State) (f : Hub → Hub) : Host.Outcome State Fault Refusal :=
  act s fun h => if ctlUp h then f h else regDropped h

/-- An operation inside the data half happens only while it is out of reset and not parked. -/
def inData (s : State) (ok : Bool) (f : Hub → Hub) : Host.Outcome State Fault Refusal :=
  actUnit ok s fun h => if h.dataReset || h.dead != 0 || decide (2 ≤ h.pwr.state) then h else f h

end Sys2Proof.Machine
end

