-- ==== Sys2Proof/Machine/GuestMsg.lean ====
section
/-!
DEFINITION. Machine/GuestMsg.lean: a guest's message at the spoke entry: the checks of R304 in order, the answer of a
refused one (R305), the violation it counts as (R306).
-/
namespace Sys2Proof.Machine

/-- Sites and UCIe ports that carry guest messages. -/
def isLink (s : Nat) : Bool := decide (s < 34)

/-- The form in which a message comes: 0 legal; 1 a protocol error of R278; 2 legal but for a DPA or reserved field of a
coherent or sync request that is not 0 (check 7). -/
def formOk (f : Nat) : Bool := decide (f < 3)

/-- A message from the guest on link `site`: class `cls`, `n` cells, what it asks for; `second` marks the flit that
completes a wait (R238). A wait whose second flit does not follow is a violation, answered with RIGHTS (R305). `refuse` answers, `ok` goes on. -/
def arrive (h : Hub) (site cls n form : Nat) (q : Ask) (second : Bool) (refuse ok : Hub → Hub) : Hub :=
  let a := anchorOf h site
  if !(siteState h a == 3 || (q.fw && (guest h a).step == 10)) || !linkAlive h site then h
  else
    let src := (q.agent.orElse fun _ => q.stn).getD 0
    let h := match (guest h a).part with
      | some p =>
        if p.site == site && !second then
          let h := semResult (setGuest h a { guest h a with part := none }) (.guest a p.txn p.stn) 4 0
          violation h a 8 0 0 false 0 none none
        else h
      | none => h
    if form = 1 then violation h a 8 0 src q.agent.isSome 0 none none
    else match takeCells h site cls n with
      | none =>
        let h := if site < 32 then raise h E.spkCreditViol site else raise h E.uciCreditViol (site - 32)
        violation h a 9 0 src q.agent.isSome 0 none none
      | some h =>
        let vio (h : Hub) (k : Nat) : Hub :=
          violation (refuse h) a k (q.ctx.getD 0) src q.agent.isSome (q.vas.headD 0)
            (if q.ctx.isSome then q.stn.map (stnNum site) else none) none
        match permit h site { q with seven := form == 2 } with
        | none => ok h
        | some k => if k = 3 && (guest h a).grace.contains (q.ctx.getD 0) then refuse h else vio h k

/-- The writes of the guest at `a` under context `c` that are not acknowledged at their homes: streaming writes, output
rows, contributions, and coherent writes (R240). -/
def pendingWrites (h : Hub) (a c : Nat) : List (AckTo × Nat) :=
  let g := guest h a
  let opOf (i : Nat) : Bool := h.ops.any fun o => o.opid == i && o.ctx == c && g.stations.any fun r => r.number == o.station
  let reqs := h.cohPend ++ h.cohQ ++ h.cohTxns.map (·.req)
  ((h.strs.filter fun r => r.anchor == a && r.ctx == c && r.write).map fun r => (.str r.stn r.txn, 0))
    ++ (reqs.filterMap fun r => match r.tag with
        | .op i => if r.op == 5 && opOf i then some (.op i, r.line) else none
        | _ => if r.op == 5 && r.ctx == c && g.agentIds.contains r.agent then some (.nobody, r.line * 256 + r.agent) else none)
    ++ (h.redQ.filterMap fun r => match r.tag with
        | .op i => if opOf i then some (.op i, 2 ^ 60 + r.dpa) else none
        | _ => none)

end Sys2Proof.Machine
end

