-- ==== Sys2Proof/Machine/Lanes.lean ====
section
/-!
DEFINITION. Machine/Lanes.lean: lanes, spares and width states of the spokes (R280 to R283) and of the UCIe ports (R320 to
R322, R329, R330).
-/
namespace Sys2Proof.Machine

/-! ### Spokes -/

/-- Bank of SPK.LANE_STAT of a lane: `dir` 0 DN, 1 UP; lanes 0 to 127, spares 128 to 131. -/
def laneBank (s dir g l : Nat) : Nat := ((s * 32 + g) * 2 + dir) * 256 + l

/-- The FAILED lanes of site `s`: direction, group, lane. -/
def failedLanes (h : Hub) (s : Nat) : List (Nat × Nat × Nat) :=
  h.regs.filterMap fun e =>
    let b := e.1 / 1024
    if e.1 % 1024 = Reg.spkLaneStat.num && b / 16384 = s && bitOf e.2.toNat 6 then some (b / 256 % 2, b / 512 % 32, b % 256) else none

/-- A working spare carries the lane. -/
def repaired (h : Hub) (s dir g l : Nat) : Bool :=
  (List.range 4).any fun k =>
    let b := laneBank s dir g (128 + k)
    flag h F.spkLaneStatSubst b && fld h F.spkLaneStatForLane b == l && !flag h F.spkLaneStatFailed b

/-- Failed lanes that no spare carries. -/
def unrepaired (h : Hub) (s : Nat) : List (Nat × Nat × Nat) :=
  (failedLanes h s).filter fun e => decide (e.2.2 < 128) && !repaired h s e.1 e.2.1 e.2.2

/-- Free spares of a group and direction. -/
def freeSpares (h : Hub) (s dir g : Nat) : List Nat :=
  ((List.range 4).map (· + 128)).filter fun k => !flag h F.spkLaneStatSubst (laneBank s dir g k) && !flag h F.spkLaneStatFailed (laneBank s dir g k)

/-- Groups of a width state: 0 full, 1 half, 2 quarter, with its class (R283). -/
def widthGroups (width cls : Nat) : List Nat :=
  (List.range 32).filter fun g => match width with
    | 0 => true
    | 1 => g % 2 == cls
    | 2 => g % 4 == cls
    | _ => false

/-- Width states that may follow, in order of preference (R283); `first` when the site is trained (R280). -/
def nextWidths (first : Bool) (width cls : Nat) : List (Nat × Nat) :=
  if first then [(0, 0), (1, 0), (1, 1), (2, 0), (2, 1), (2, 2), (2, 3)]
  else match width with
    | 0 => [(1, 0), (1, 1), (2, 0), (2, 1), (2, 2), (2, 3)]
    | 1 => [(2, cls), (2, cls + 2)]
    | _ => []

/-- No lane of the state's groups is unrepaired, in either direction. -/
def widthClean (h : Hub) (s : Nat) (w : Nat × Nat) : Bool :=
  !((unrepaired h s).any fun e => (widthGroups w.1 w.2).contains e.2.1)

/-- Spares the group and direction still has, counted over the active groups. -/
def setSpares (h : Hub) (s : Nat) : Hub :=
  let gs := widthGroups (fld h F.spkStatusWidth s) (fld h F.spkStatusClass s)
  let n (dir : Nat) : Nat := gs.foldl (fun a g => a + (freeSpares h s dir g).length) 0
  setFld (setFld h F.spkStatusDnSpares s (n 0)) F.spkStatusUpSpares s (n 1)

/-- Lanes fail (R282). A spare in use that fails leaves the lane it carried without one. -/
def failLanes (h : Hub) (s : Nat) (ls : List (Nat × Nat × Nat)) : Hub :=
  setSpares (each ls h fun h e =>
    -- a lane that a spare carries fails the spare
    let sub := ((List.range 4).map (· + 128)).find? fun k =>
      let b := laneBank s e.1 e.2.1 k
      flag h F.spkLaneStatSubst b && fld h F.spkLaneStatForLane b == e.2.2 && !flag h F.spkLaneStatFailed b
    setFld h F.spkLaneStatFailed (laneBank s e.1 e.2.1 (if e.2.2 < 128 then sub.getD e.2.2 else e.2.2)) 1) s

/-- Map a free spare over a lane. -/
def mapSpare (h : Hub) (s dir g l k : Nat) : Hub :=
  let b := laneBank s dir g k
  setFld (setFld h F.spkLaneStatSubst b 1) F.spkLaneStatForLane b l

/-- Map free spares over the unrepaired lanes of the groups `gs`, in the order they are listed, while there are any. -/
def mapSpares (h : Hub) (s : Nat) (gs : List Nat) : Hub :=
  setSpares (each ((unrepaired h s).filter fun e => gs.contains e.2.1) h fun h e => match freeSpares h s e.1 e.2.1 with
    | k :: _ => mapSpare h s e.1 e.2.1 e.2.2 k
    | [] => h) s

/-- Set the width state; `w` none is no width. -/
def setWidth (h : Hub) (s : Nat) (w : Option (Nat × Nat)) : Hub :=
  let (x, c) := w.getD (3, 0)
  setSpares (setFld (setFld h F.spkStatusWidth s x) F.spkStatusClass s c) s

/-- The lanes of site `s` start anew. -/
def clearLanes (h : Hub) (s : Nat) : Hub := resetRegs h fun r b => r == .spkLaneStat && b / 16384 == s

/-! ### UCIe ports -/

/-- Bank of UCI.LANE_STAT of a lane of a module: `dir` 0 hub to guest; lanes 0 to 63, redundant lanes 64 to 67 (log entry 28). -/
def uciBank (p dir m l : Nat) : Nat := ((p * 4 + m) * 2 + dir) * 128 + l

/-- FAILED lanes of port `p`: direction, module, lane. -/
def uciFailed (h : Hub) (p : Nat) : List (Nat × Nat × Nat) :=
  h.regs.filterMap fun e =>
    let b := e.1 / 1024
    if e.1 % 1024 = Reg.uciLaneStat.num && b / 1024 = p && bitOf e.2.toNat 0 then some (b / 128 % 2, b / 256 % 4, b % 128) else none

def uciSpares : List Nat := [64, 65, 66, 67]

def uciRepaired (h : Hub) (p dir m l : Nat) : Bool :=
  uciSpares.any fun k =>
    let b := uciBank p dir m k
    flag h F.uciLaneStatSubst b && fld h F.uciLaneStatForLane b == l && !flag h F.uciLaneStatFailed b

def uciUnrepaired (h : Hub) (p : Nat) : List (Nat × Nat × Nat) :=
  (uciFailed h p).filter fun e => decide (e.2.2 < 64) && !uciRepaired h p e.1 e.2.1 e.2.2

def uciFree (h : Hub) (p dir m : Nat) : List Nat :=
  uciSpares.filter fun k => !flag h F.uciLaneStatSubst (uciBank p dir m k) && !flag h F.uciLaneStatFailed (uciBank p dir m k)

def uciCount (h : Hub) (p : Nat) : Hub :=
  let n (dir : Nat) : Nat := (List.range 4).foldl (fun a m => a + (uciFree h p dir m).length) 0
  setFld (setFld h F.uciStatusTxSpares p (n 0)) F.uciStatusRxSpares p (n 1)

/-- Lanes fail (R329); a lane that a redundant one carries fails that one. -/
def uciFail (h : Hub) (p : Nat) (ls : List (Nat × Nat × Nat)) : Hub :=
  uciCount (each ls h fun h e =>
    let sub := uciSpares.find? fun k =>
      let b := uciBank p e.1 e.2.1 k
      flag h F.uciLaneStatSubst b && fld h F.uciLaneStatForLane b == e.2.2 && !flag h F.uciLaneStatFailed b
    setFld h F.uciLaneStatFailed (uciBank p e.1 e.2.1 (if e.2.2 < 64 then sub.getD e.2.2 else e.2.2)) 1) p

/-- Repair what the redundant lanes can carry. -/
def uciRepair (h : Hub) (p : Nat) : Hub :=
  uciCount (each (uciUnrepaired h p) h fun h e => match uciFree h p e.1 e.2.1 with
    | k :: _ =>
      let b := uciBank p e.1 e.2.1 k
      setFld (setFld h F.uciLaneStatSubst b 1) F.uciLaneStatForLane b e.2.2
    | [] => h) p

/-- The half of module `m` with no unrepaired lane, the lower first (R330): 0 lower, 1 upper. -/
def uciHalf (h : Hub) (p m : Nat) : Option Nat :=
  let bad := (uciUnrepaired h p).filter fun e => e.2.1 == m
  [0, 1].find? fun k => !(bad.any fun e => e.2.2 / 32 == k)

/-- The halves of all modules at x32 as bits; none where a module has none. -/
def uciHalves (h : Hub) (p : Nat) : Option Nat :=
  (List.range 4).foldr (fun m a => match a, uciHalf h p m with
    | some v, some k => some (v + k * 2 ^ m)
    | _, _ => none) (some 0)

/-- An unrepaired lane is in use. -/
def uciHurt (h : Hub) (p : Nat) : Bool :=
  (uciUnrepaired h p).any fun e => !flag h F.uciStatusX32 p || fld h F.uciStatusHalf p / 2 ^ e.2.1 % 2 == e.2.2 / 32

def clearUci (h : Hub) (p : Nat) : Hub := resetRegs h fun r b => r == .uciLaneStat && b / 1024 == p

/-! ### Both -/

/-- The link is narrower than full width or x64. -/
def narrow (h : Hub) (s : Nat) : Bool := if s < 32 then fld h F.spkStatusWidth s != 0 else flag h F.uciStatusX32 (s - 32)

end Sys2Proof.Machine
end

