-- ==== Sys2Proof/Machine/Admit.lean ====
section
/-!
DEFINITION. Machine/Admit.lean: the sideband (R291 to R293), the site descriptor (R294 to R297), admission (R298 to R302,
R327), readiness gates (R512 to R514) and guest firmware (R515 to R518).
-/
namespace Sys2Proof.Machine

/-! ### The descriptor (R294 to R297) -/

def dLen (d : List Byte) : Nat := numAt d 6 2
def dCols (d : List Byte) : Nat := numAt d 14 1 % 16
def dRows (d : List Byte) : Nat := numAt d 14 1 / 16
def dScrub (d : List Byte) : Bool := bitOf (numAt d 15 1) 0
def dSigned (d : List Byte) : Bool := bitOf (numAt d 15 1) 1
def dFw (d : List Byte) : Bool := bitOf (numAt d 15 1) 2
def dStns (d : List Byte) : Nat := numAt d 16 1
def dAgents (d : List Byte) : Nat := numAt d 17 1
def dStn (d : List Byte) (i : Nat) : List Byte := sliceB d (64 + 32 * i) 32
def dAgent (d : List Byte) (i : Nat) : List Byte := sliceB d (64 + 32 * dStns d + 8 * i) 8
def dBuf (d : List Byte) : List Nat := (List.range 6).map fun i => numAt d (36 + 2 * i) 2
def dCrc (d : List Byte) : Nat := numAt d 60 4

/-- All bytes of a range are 0. -/
def zeros (d : List Byte) (o n : Nat) : Bool := (sliceB d o n).all fun b => b == 0

/-- A number lies in a range. -/
def inRange (v lo hi : Nat) : Bool := decide (lo ≤ v) && decide (v ≤ hi)

/-- The shapes of R261. -/
def shapeOk (cols rows : Nat) : Bool := [(1, 1), (1, 2), (2, 1), (1, 4), (2, 2), (4, 1), (1, 8), (2, 4), (4, 2)].contains (rows, cols)

def dBufOk (d : List Byte) : Bool := (dBuf d).all fun v => decide (32 ≤ v)

/-- A station record's fields are in range (R295). -/
def stnFieldsOk (d r : List Byte) : Bool :=
  let b (i : Nat) : Nat := numAt r i 1
  let push := bitOf (b 2) 0
  let pull := bitOf (b 2) 1
  let tc := bitOf (b 2) 2
  decide (b 0 < 64) && decide (b 1 < dCols d * dRows d) && decide (b 2 < 8) && (push || pull) && (!tc || (pull && decide (0 < numAt d 20 4)))
    && inRange (b 3) 1 16 && (if push then decide (8 ≤ numAt r 4 2) else numAt r 4 2 == 0)
    && (numAt r 8 2 &&& 0x8001) == 0 && (numAt r 10 2 &&& 0x8001) == 0 && zeros r 12 4

/-- An agent record's fields are in range (R296). -/
def agentFieldsOk (d r : List Byte) : Bool :=
  decide (numAt r 0 1 < dCols d * dRows d) && decide (numAt r 1 1 < 4) && zeros r 2 2 && decide (0 < numAt r 4 4)

/-- No element twice. -/
def unique (xs : List (Nat × Nat)) : Bool := xs.eraseDups.length == xs.length

/-- The fields of R294 to R297 are in range; of a UCIe guest also those of R327. -/
def descFieldsOk (d : List Byte) (uci : Bool) : Bool :=
  let s := dStns d
  let a := dAgents d
  let stns := (List.range s).map (dStn d)
  let ags := (List.range a).map (dAgent d)
  let sig := dLen d - 104
  decide (dLen d = 64 + 32 * s + 8 * a + if dSigned d then 104 else 0) && decide (dLen d ≤ 4096)
    && (if uci then dCols d == 1 && dRows d == 1 && decide (a ≤ 4) else shapeOk (dCols d) (dRows d))
    && decide (numAt d 15 1 < 8) && inRange s 1 64 && decide (a ≤ 4 * dCols d * dRows d) && zeros d 18 2
    && (if dScrub d then inRange (numAt d 28 2) 1 100 else numAt d 28 2 == 0) && inRange (numAt d 30 2) 1 10000
    && inRange (numAt d 32 1) 1 80 && zeros d 33 3 && dBufOk d && (dFw d || numAt d 48 4 == 0) && zeros d 52 8
    && stns.all (stnFieldsOk d) && ags.all (agentFieldsOk d)
    && unique (stns.map fun r => (numAt r 1 1, numAt r 0 1)) && unique (ags.map fun r => (numAt r 0 1, numAt r 1 1))
    && numAt d 24 4 == ags.foldl (fun t r => t + numAt r 4 4) 0
    && (!dSigned d || zeros d (sig + 2) 6)

/-- The descriptor with DESC_CRC taken as 0. -/
def dNoCrc (d : List Byte) : List Byte := sliceB d 0 60 ++ List.replicate 4 0 ++ d.drop 64

/-- The refusal code of a descriptor: 2, 3, or 0 (R299). -/
def descFault (d : List Byte) (uci : Bool) : Nat :=
  if numAt d 0 4 != 0x4B475344 || numAt d 4 2 != 1 then 2
  else if inRange (dLen d) 64 4096 && crc32c (dNoCrc (sliceB d 0 (dLen d))) != dCrc d then 2
  else if descFieldsOk d uci then 0
  else if inRange (dLen d) 64 4096 then 3 else 2

/-- The sites a descriptor read at site `a` covers, index 0 first; none where they run off the array (R261, R299). -/
def rectSites (a : Nat) (d : List Byte) : Option (List Nat) :=
  if 32 ≤ a then some [a]
  else if a / 8 + dRows d ≤ 4 && a % 8 + dCols d ≤ 8 then
    some ((List.range (dRows d)).flatMap fun r => (List.range (dCols d)).map fun c => a + 8 * r + c)
  else none

/-! ### The sideband (R291, R325) -/

/-- The hub reads `n` words at `addr` from the sideband of site or port `s`. -/
def sbRead (h : Hub) (s addr n : Nat) : Hub :=
  emit (setGuest h s { guest h s with sbXfer := some (s, addr, n), sbTries := 0 }) .sbRead s [addr, n]

/-- Words of one read: a UCIe request carries one (R325). -/
def sbChunk (s n : Nat) : Nat := if s < 32 then Nat.min 255 n else 1

/-- A UCIe port's link registers, or a spoke's: no link. -/
def linkOff (h : Hub) (s : Nat) : Hub :=
  let h := setLink h s {}
  if s < 32 then setWidth (setFld h F.spkStatusState s 1) s none
  else setFld (setFld (setFld h F.uciStatusState (s - 32) 5) F.uciStatusRate (s - 32) 0) F.uciStatusX32 (s - 32) 0

/-- Leases whose end waits for a re-admission become FREE (R311 step 7). -/
def freeReadmitted (h : Hub) (a : Nat) : Hub :=
  each ((List.range 16).filter fun s => (leaseRec h a s).step == 6) h fun h s => freeLease h a s

/-- Admission stops with a reason of R299: every covered site becomes REFUSED, GRST_N stays low. -/
def refuse (h : Hub) (a code : Nat) : Hub :=
  let g := guest h a
  let h := each g.covered h fun h s =>
    let h := linkOff (emit h .grstN s [0]) s
    let h := setFld (setFld h F.siteStatusState s 5) F.siteStatusRefuse s code
    if s = a then h else { h with guests := tdel h.guests s }
  let h := setGuest h a { guest h a with step := 0, sbXfer := none, sbCur := none, sbQ := [], clearing := [], fwImage := [] }
  let h := each g.agentIds h fun h i => suspectAgent h i
  freeReadmitted (raise h E.siteRefused a) a

/-- A guest refused for its firmware (R518). -/
def refuseFw (h : Hub) (a status : Nat) : Hub := raise (setOdNum (refuse h a 7) (OD.fwStatus a) 1 status) E.bootFwRefused

/-- Step 1 of R298 on one site: GRST_N low, the supply, the sideband. A site without a regulator is refused (R558). What the
last guest left that outlives admission is kept. -/
def startAdmit (h : Hub) (s : Nat) : Hub :=
  if h.ctlDown then { h with held := h.held ++ [.admission s] }
  else
    let g := guest h s
    let h := setGuest h s { covered := [s], step := 1, autoTries := g.autoTries, vlog := g.vlog, grace := g.grace, shown := g.shown,
                            agentIds := g.agentIds, stations := g.stations, readmit := g.readmit, desc := g.desc }
    let h := setFld (setFld (emit h .grstN s [0]) F.siteStatusState s 2) F.siteCtlReadmit s 0
    let h := setFld (setFld h F.siteStatusVerified s 0) F.siteStatusAnchor s (if s < 32 then s else 32 + (s - 32))
    if s < 32 && odNum h (OD.sitePmbusAddr s) == 0 then refuse h s 1
    else
      let h := if s < 32 then emit h .gpower s [1, odNum h (OD.siteVddMv s)] else h
      sbRead h s 0x400 1

/-- Admission may run: from phase 4 of a bring-up on (R508). -/
def admitting (h : Hub) : Bool := !h.dataReset && inRange (fld h F.bootStatusPhase) 4 8

/-- Site or port `s` is enabled. -/
def linkOn (h : Hub) (s : Nat) : Bool := if s < 32 then h.variant.siteOn s else true

/-- A present guest on an EMPTY site is admitted. -/
def admitPresent (h : Hub) (s : Nat) : Hub :=
  if admitting h && linkOn h s && h.present.contains s && siteState h s == 1 then startAdmit h s else h

/-- Re-admission of the guest at `a` (R316). -/
def readmit (h : Hub) (a : Nat) : Hub :=
  let cov := (guest h a).covered
  let cov := if cov.isEmpty then [a] else cov
  each cov h fun h s =>
    if !h.present.contains s then setFld (linkOff h s) F.siteStatusState s 1
    else startAdmit (emit h .grstN s [0]) s

/-! ### Training (R280, R321) -/

/-- The agent IDs a descriptor needs (R300). -/
def wantedAgents (cov : List Nat) (d : List Byte) : List Nat :=
  (List.range (dAgents d)).map fun i =>
    let r := dAgent d i
    let s := cov.getD (numAt r 0 1) 0
    (if s < 32 then 4 * s else 128 + 4 * (s - 32)) + numAt r 1 1

/-- The rate code of OD 0x4880.01. -/
def uciMaxRate (h : Hub) : Nat := match odNum h OD.uciRateMax with
  | 16 => 1
  | 24 => 2
  | _ => 3

/-- Step 6: every covered link trains, its lanes anew. -/
def startTraining (h : Hub) (a : Nat) : Hub :=
  let g := guest h a
  let h := setGuest h a { g with step := 6, trained := [], gated := [] }
  each g.covered h fun h s =>
    let h := emit h .grstN s [1]
    if s < 32 then setFld (emit (setLink (clearLanes h s) s {}) .fclk s [1]) F.spkStatusState s 2
    else setFld (setLink (clearUci h (s - 32)) s { newWidth := uciMaxRate h }) F.uciStatusState (s - 32) 1

/-- Step 5: every agent ID needed is FREE (R189). -/
def agentsFree (h : Hub) (a : Nat) : Hub :=
  let g := guest h a
  if g.step = 5 && (wantedAgents g.covered g.desc).all fun i => agentState h i == 0 then startTraining h a else h

/-- What follows the signature: the policy of OD .05, then the agents. -/
def afterSignature (h : Hub) (a : Nat) : Hub :=
  if odOn h (OD.siteReqSigned a) && !flag h F.siteStatusVerified a then refuse h a 5
  else agentsFree (setGuest h a { guest h a with step := 5 }) a

/-- TRAIN_CLR to every covered site (R512 step 1). -/
def trainClr (h : Hub) (a : Nat) : Hub :=
  let g := guest h a
  each g.covered (setGuest h a { g with step := 7, clearing := g.covered }) fun h s => emit h .sbCmd s [5, 0]

/-- The policy at a link's gate result: narrow is refused under strict (R514). -/
def strict (h : Hub) (a : Nat) : Bool := if a < 32 then odNum h (OD.sitePolicy a) == 1 else odNum h OD.uciPolicy == 1

/-! ### Admission proper -/

/-- The stations of a guest (R300). -/
def wantedStns (cov : List Nat) (d : List Byte) : List StnRec :=
  (List.range (dStns d)).map fun i =>
    let r := dStn d i
    let f := numAt r 2 1
    ⟨stnNum (cov.getD (numAt r 1 1) 0) (numAt r 0 1), cov.getD (numAt r 1 1) 0, bitOf f 0, bitOf f 1, numAt r 3 1, numAt r 4 2,
      numAt r 8 2, numAt r 10 2, numAt r 4 2⟩

/-- Step 9: the permit table (R302), the limits (R376), the numbers (R300) and the credits (R272). -/
def install (h : Hub) (a : Nat) : Hub :=
  let g := guest h a
  let d := g.desc
  let stns := wantedStns g.covered d
  let ags := wantedAgents g.covered d
  let pull := stns.any (·.pull)
  let n := g.covered.length
  let cls := b2n pull * 3 + b2n (!ags.isEmpty) * 12 + b2n (odOn h (OD.siteSemOk a)) * 16 + b2n (odOn h (OD.siteReduceOk a)) * 32
  let cap (v : Nat) : Nat := Nat.min 65535 v
  let h := setFld h F.siteClassesClasses a cls
  let h := setFld (setFld h F.siteLimitsRdMax a (cap (odNum h OD.guestRdSite * n))) F.siteLimitsWrMax a (cap (odNum h OD.guestWrSite * n))
  let h := setFld (setFld h F.siteLimitsCohMax a (cap (odNum h OD.guestCohAgent * ags.length))) F.siteLimitsSemMax a (cap (odNum h OD.guestSem))
  let h := setFld h F.regCfgMode (guestRouter a) (if stns.any (·.push) then 1 else 2)
  let h := each ags h fun h i => setAgent h i 1
  let h := each g.covered h fun h s => setLink h s { link h s with guestCr := dBuf d }
  setGuest h a { guest h a with stations := stns, agentIds := ags, winCount := 0 }

/-- Step 11 (R298). -/
def admitted (h : Hub) (a : Nat) : Hub :=
  let g := guest h a
  let h := each g.covered h fun h s =>
    let h := if narrow h s then raise h E.bootDegraded else h
    setFld h F.siteStatusState s 3
  let h := setGuest h a { g with step := 0, autoTries := 0, shown := g.desc, fwImage := [], fwMissing := [], readmit := false }
  let h := setOdNum (setOdNum h (OD.siteVendor a) 2 (numAt g.desc 8 2)) (OD.siteProduct a) 2 (numAt g.desc 10 2)
  freeReadmitted (raise h E.siteAdmitted a) a

/-! ### Guest firmware (R515 to R518) -/

/-- The key by which deliveries are ordered. -/
def fwKey (h : Hub) (a : Nat) : Nat := numAt (guest h a).desc 8 2 * 2 ^ 32 + numAt (guest h a).desc 48 4

/-- The image of a guest: of equal entries the one with the higher SEQ (R536). -/
def fwImageOf (h : Hub) (a : Nat) : Option GuestImg :=
  (h.guestImgs.filter fun i => i.vendor * 2 ^ 32 + i.fwId == fwKey h a).foldl (fun b i => match b with
    | none => some i
    | some j => if j.seq < i.seq then some i else some j) none

/-- Block `b` of an image, and the rows of B (R516). -/
def fwBlock (d : List Byte) (b : Nat) : List Byte := sliceB d (4096 * b) 4096
def fwBlocks (d : List Byte) : Nat := ceilDiv d.length 4096
def fwRowB (d : List Byte) (r : Nat) : List Byte :=
  let n := fwBlocks d
  let q := ceilDiv n 8
  let dig := Config.sha384 d
  if r < q then (List.range 8).flatMap fun i => leBytes 4 (if 8 * r + i < n then crc32c (fwBlock d (8 * r + i)) else 0)
  else if r = q then sliceB dig 0 32
  else sliceB dig 32 16 ++ leBytes 8 d.length ++ leBytes 8 0

/-- One round of the pseudo-operation (R516): TOP.START, every row of B, the blocks. -/
def fwSend (h : Hub) (a round : Nat) (blocks : List Nat) : Hub :=
  let d := (guest h a).fwImage
  let n := fwBlocks d
  let q := ceilDiv n 8 + 2
  let stn := stnNum a 0
  let h := setGuest h a { guest h a with fwRound := round, fwMissing := [] }
  let rec_ (len rows : Nat) : List Nat := [0, 0, 0, 0, len, rows, 0, 1]
  let h := toGuest h a 2 9 .topStart stn ([0x3FFFE, 0, 0, round, 0, 0] ++ rec_ 128 n ++ rec_ 1 q ++ rec_ 8 (ceilDiv n 2048))
  let h := each (List.range q) h fun h r => toGuest h a 5 (datLen 1) .topRow stn [0x3FFFE, r, 0, 1, 1, 0] (fwRowB d r)
  each blocks h fun h b => each (List.range 16) h fun h f =>
    toGuest h a 5 (datLen 8) .topRow stn [0x3FFFE, b, f, 255, 0, 0] (sliceB (fwBlock d b) (256 * f) 256)

/-- A delivery starts where none is in progress: the waiting guests of the lowest image (R518). Firmware broadcast waits for the
control half (R17). -/
def fwTurn (h : Hub) : Hub :=
  let waits := (h.guests.filter fun g => g.2.step == 9).map (·.1)
  if h.ctlDown || h.guests.any fun g => g.2.step == 10 then h
  else
    let k := (waits.map (fwKey h)).foldl Nat.min ((waits.map (fwKey h)).headD 0)
    each (waits.filter fun a => fwKey h a == k) h fun h a => match fwImageOf h a with
      | none => refuseFw h a 2
      | some i =>
        if Config.sha384 i.data != i.digest then refuseFw h a 6
        else fwSend (setGuest h a { guest h a with step := 10, fwImage := i.data }) a 0 (List.range (fwBlocks i.data))

/-- The turns of all images that end without a delivery. -/
def fwTurns : Nat → Hub → Hub
  | 0, h => h
  | n + 1, h => if h.guests.any fun g => g.2.step == 9 then fwTurns n (fwTurn h) else h

def fwNext (h : Hub) : Hub := fwTurns (h.guests.length + 1) h

/-- A delivery's end or next round, by the status of its TOP.DONE (R518). -/
def fwDone (h : Hub) (a status : Nat) : Hub :=
  let g := guest h a
  if status = 0 then fwNext (admitted (setOdNum (setOdNum h (OD.fwStatus a) 1 1) (OD.fwRounds a) 1 g.fwRound) a)
  else if status = 1 && decide (g.fwRound < 3) then
    fwSend (setOdNum h (OD.fwRounds a) 1 (g.fwRound + 1)) a (g.fwRound + 1) g.fwMissing
  else if status = 1 then fwNext (setOdNum (refuseFw h a 3) (OD.fwMissed a) 4 g.fwMissing.length)
  else fwNext (refuseFw h a 4)

/-- Step 8 has succeeded: the permit table, then firmware or the end (R298 steps 9 to 11). -/
def afterAdmit (h : Hub) (a : Nat) : Hub :=
  let h := install h a
  if dFw (guest h a).desc then fwNext (setGuest h a { guest h a with step := 9 })
  else admitted (setOdNum h (OD.fwStatus a) 1 0) a

/-! ### The rectangle (R299 code 4) -/

/-- A candidate at index 0 whose descriptor is read: checked once every site it names has been read or has failed. -/
def checkRect (h : Hub) (a : Nat) : Hub :=
  let g := guest h a
  let d := g.desc
  if g.step != 3 || g.sbXfer.isSome || (g.seen.headD (9, 0, 0)).1 != 0 then h
  else
    let code := descFault d (decide (32 ≤ a))
    match rectSites a d with
    | none => refuse h a (if code != 0 then code else 4)
    | some cov =>
      let cov' := if code = 0 then cov else [a]
      let done (s : Nat) : Bool := siteState h s != 2 || ((guest h s).step == 3 && (guest h s).sbXfer.isNone) || 3 < (guest h s).step
      if code != 0 then refuse (setGuest h a { g with covered := cov' }) a code
      else if cov.any fun s => linkOn h s && h.present.contains s && !done s then h
      else
        let bad (e : Nat × Nat) : Bool :=
          let s := e.1
          !linkOn h s || !h.present.contains s || siteState h s != 2 || (guest h s).step != 3
            || (guest h s).seen != [(e.2, dCrc d, 0)]
        if (a :: cov).any fun s => siteState h s == 5 && (guest h s).step == 0 then refuse h a 1
        else if cov.zipIdx.any bad then refuse h a 4
        else
          let h := each (cov.filter (· != a)) h fun h s => { h with guests := tdel h.guests s }
          let h := each cov h fun h s => setFld h F.siteStatusAnchor s (if s < 32 then a else s)
          let h := setGuest h a { g with covered := cov }
          if dSigned d then setGuest h a { guest h a with step := 4 } else afterSignature h a

/-- Check every candidate that waits. -/
def checkRects (h : Hub) : Hub := each ((h.guests.filter fun g => g.2.step == 3).map (·.1)) h checkRect

/-! ### GUEST_PRESENCE (R262, R326) -/

/-- Presence low starts admission; high reads EMPTY. A guest that is ADMITTED stays so until it is isolated (log entry 29). -/
def presence (h : Hub) (s : Nat) (low : Bool) : Hub :=
  if low then
    let h := { h with present := s :: h.present.erase s }
    admitPresent h s
  else
    let h := { h with present := h.present.erase s }
    if siteState h s = 3 || siteState h s = 0 || h.dataReset then h
    else
      let h := if siteState h s = 2 then refuse h (anchorOf h s) 4 else h
      let h := linkOff h s
      let h := if s < 32 then h else setFld h F.uciStatusState (s - 32) 0
      setFld h F.siteStatusState s 1

def execGuestPresence (site : Nat) (low : Bool) (s : State) : Host.Outcome State Fault Refusal :=
  actUnit (isLink site) s fun h => if linkOn h site && h.dead == 0 then presence h site low else h

/-- PREQ changes (R493): sampled on admitted guests. -/
def execGuestPreq (site : Nat) (high : Bool) (s : State) : Host.Outcome State Fault Refusal :=
  inData s (isLink site) fun h => if siteState h (anchorOf h site) = 3 then setLink h site { link h site with preq := high } else h

/-! ### Sideband transfers -/

/-- The words a read brought. -/
def sbWords (h : Hub) (s : Nat) (ws : List Nat) : Hub :=
  let g := guest h s
  match g.sbXfer with
  | none => h
  | some (_, addr, n) =>
    let bs := (ws.take n).flatMap (leBytes 4)
    let h := setGuest h s { g with sbXfer := none }
    match g.step with
    | 1 => if bitOf (ws.headD 0) 0 then sbRead (setGuest h s { guest h s with step := 2 }) s 0x401 1 else sbRead h s 0x400 1
    | 2 =>
      let pos := ws.headD 0 % 8
      let h := setGuest h s { guest h s with step := 3, seen := [(pos, 0, 0)], desc := [] }
      if 32 ≤ s && pos != 0 then refuse h s 4
      else if pos = 0 then sbRead h s 0 (sbChunk s 16) else sbRead h s 15 1
    | 3 =>
      if (g.seen.headD (0, 0, 0)).1 != 0 then
        checkRects (setGuest h s { guest h s with seen := [((g.seen.headD (0, 0, 0)).1, leNat bs, 0)] })
      else
        let d := sliceB g.desc 0 (4 * addr) ++ bs
        let want := if d.length < 64 then 16 else Nat.max 16 (ceilDiv (Nat.min 4096 (dLen d)) 4)
        let h := setGuest h s { guest h s with desc := d }
        if 4 * want ≤ d.length then
          let h := setOdBytes h (OD.siteDescDigest s) (Config.sha384 (sliceB d 0 (dLen d)))
          checkRects (setGuest h s { guest h s with seen := [(0, dCrc d, 0)] })
        else sbRead h s (d.length / 4) (sbChunk s (want - d.length / 4))
    | _ => h

def execSidebandTransferDone (site : Nat) (words : List Nat) (s : State) : Host.Outcome State Fault Refusal :=
  inData s (isLink site && words.all fun w => decide (w < 2 ^ 32)) fun h => sbWords h site words

/-- A transfer failed: three tries more, then the step that needed it fails (R291). -/
def sbRetry (h : Hub) (s : Nat) : Hub :=
  let g := guest h s
  match g.sbXfer with
  | none => h
  | some (_, addr, n) =>
    if g.sbTries < 3 then emit (setGuest h s { g with sbTries := g.sbTries + 1 }) .sbRead s [addr, n]
    else
      let h := if s < 32 then h else raise h E.uciSbErr (s - 32)
      checkRects (refuse h s 1)

def execSidebandRetry (site : Nat) (s : State) : Host.Outcome State Fault Refusal := inData s (isLink site) fun h => sbRetry h site

/-- No completion of a UCIe sideband request inRange 1 ms: as an ERR answer (R325). -/
def execUcieSbTimeout (port : Nat) (s : State) : Host.Outcome State Fault Refusal := inData s (decide (port < 2)) fun h => sbRetry h (32 + port)

/-- READY is late (R298 step 2, R299 code 1). -/
def execSbReadyTimeout (site : Nat) (s : State) : Host.Outcome State Fault Refusal :=
  inData s (isLink site) fun h => if (guest h site).step = 1 then checkRects (refuse h site 1) else h

/-! ### The signature (R297) -/

/-- The registered key of a vendor and key number (OD 0x3200). -/
def guestKeyOf (h : Hub) (vendor no : Nat) : Option (List Byte) :=
  ((List.range 16).map fun i => odBytes h (OD.guestKey i) 100).find? fun k =>
    numAt k 0 2 == vendor && numAt k 2 2 == no && !zeros k 0 100

/-- The check ends: VERIFIED, or SIG_FAIL. -/
def signatureDone (h : Hub) (a : Nat) : Hub :=
  let g := guest h a
  if g.step != 4 then h
  else
    let d := g.desc
    let b := dLen d - 104
    let ok := match guestKeyOf h (numAt d 8 2) (numAt d b 2) with
      | some k => Config.ecdsaOk (k.drop 4) (Config.sha384 (dNoCrc (sliceB d 0 b))) (sliceB d (b + 8) 96)
      | none => false
    let h := each g.covered h fun h s => setFld h F.siteStatusVerified s (b2n ok)
    let h := if ok then h else raise h E.siteSigFail a
    afterSignature h a

def execSignatureCheckDone (anchor : Nat) (s : State) : Host.Outcome State Fault Refusal := inData s (isLink anchor) fun h => signatureDone h anchor

/-! ### Training and gates end -/

/-- Every covered link is trained: the gates start. -/
def trainedAll (h : Hub) (a s : Nat) : Hub :=
  let g := guest h a
  let h := setGuest h a { g with trained := s :: g.trained }
  if g.covered.all fun x => x == s || g.trained.contains x then trainClr h a else h

/-- Choose a width state after lanes failed: spares first, then the first clean state (R280 steps 4 and 5, R512). -/
def chooseWidth (h : Hub) (s : Nat) (first : Bool) : Option Hub :=
  let w := (fld h F.spkStatusWidth s, fld h F.spkStatusClass s)
  let h := mapSpares h s (if first then List.range 32 else widthGroups w.1 w.2)
  let states := if first then nextWidths true 0 0 else w :: nextWidths false w.1 w.2
  (states.find? (widthClean h s)).map fun x => setWidth h s (some x)

/-- Steps 2 to 5 of R280 end. -/
def spokeTrained (h : Hub) (s : Nat) (locked : Bool) (bad : List (Nat × Nat × Nat)) : Hub :=
  let a := anchorOf h s
  let g := guest h a
  if g.step != 6 || !g.covered.contains s || g.trained.contains s || 32 ≤ s then h
  else if !locked then refuse h a 6
  else match chooseWidth (failLanes h s bad) s true with
    | none => refuse h a 6
    | some h => trainedAll h a s

def laneOk (e : Nat × Nat × Nat) : Bool := decide (e.1 < 2) && decide (e.2.1 < 32) && decide (e.2.2 < 132)
def uciLaneOk (e : Nat × Nat × Nat) : Bool := decide (e.1 < 2) && decide (e.2.1 < 4) && decide (e.2.2 < 68)

def execSpokeTrainingDone (site : Nat) (locked : Bool) (failed : List (Nat × Nat × Nat)) (s : State) : Host.Outcome State Fault Refusal :=
  inData s (isLink site && failed.all laneOk) fun h => spokeTrained h site locked failed

/-- The port settles its repairs and its width: x64, else x32 (R330). -/
def uciSettle (h : Hub) (p : Nat) : Option Hub :=
  let h := uciRepair h p
  if !uciHurt h p then some h
  else if flag h F.uciStatusX32 p then none
  else (uciHalves h p).map fun v => setFld (setFld h F.uciStatusX32 p 1) F.uciStatusHalf p v

/-- UCIe training at the present rate ends (R321): `able`, the partner supplies the parameters and offers the rate; `ok`, it
trained; `bad`, lanes found failed. -/
def uciTrained (h : Hub) (p : Nat) (able ok : Bool) (offer : Nat) (bad : List (Nat × Nat × Nat)) : Hub :=
  let a := 32 + p
  let g := guest h a
  let r := (link h a).newWidth
  -- the highest rate both offer, from the one being tried down
  let at_ := ([3, 2, 1].find? fun k => decide (k ≤ r) && bitOf offer (k - 1)).getD 0
  if g.step != 6 then h
  else if !able || at_ = 0 then refuse h a 6
  else if !ok then (if at_ = 1 then refuse h a 6 else setLink h a { link h a with newWidth := at_ - 1 })
  else
    let h := setFld (setFld (setFld h F.uciStatusRate p at_) F.uciStatusX32 p 0) F.uciStatusHalf p 0
    match uciSettle (uciFail h p bad) p with
    | none => refuse h a 6
    | some h => trainedAll h a a

def execUcieTrainingDone (port : Nat) (able ok : Bool) (offer : Nat) (failed : List (Nat × Nat × Nat)) (s : State) : Host.Outcome State Fault Refusal :=
  inData s (decide (port < 2) && failed.all uciLaneOk) fun h => uciTrained h port able ok offer failed

/-- A gate run of one link ends: passed, or with the lanes that showed errors (R512 to R514). -/
def gateRun (h : Hub) (s : Nat) (bad : List (Nat × Nat × Nat)) : Hub :=
  let a := anchorOf h s
  let g := guest h a
  if g.step != 7 || !g.covered.contains s || g.gated.contains s || g.clearing.contains s then h
  else if bad.isEmpty then
    if strict h a && narrow h s then refuse h a 6
    else
      let h := if s < 32 then setFld h F.spkStatusState s 3 else setFld h F.uciStatusState (s - 32) 2
      let h := setGuest h a { g with gated := s :: g.gated }
      if g.covered.all fun x => x == s || g.gated.contains x then
        sbCmd (emit (setGuest h a { guest h a with step := 8 }) .sbHeader a [0x403, a]) a 1 0 0
      else h
  else
    match (if s < 32 then chooseWidth (failLanes h s bad) s false else uciSettle (uciFail h (s - 32) bad) (s - 32)) with
    | none => refuse h a 6
    | some h => trainClr h a

def execGateRunEnd (site : Nat) (errors : List (Nat × Nat × Nat)) (s : State) : Host.Outcome State Fault Refusal :=
  inData s (isLink site && errors.all (if site < 32 then laneOk else uciLaneOk)) fun h => gateRun h site errors

def execGateDeadline (anchor : Nat) (s : State) : Host.Outcome State Fault Refusal :=
  inData s (isLink anchor) fun h => if [6, 7].contains (guest h anchor).step then refuse h anchor 6 else h

/-! ### Guest commands end (R293) -/

/-- The end of an exclusive lease (R311 step 6): the guest is reset and re-admitted. -/
def exclusiveEnd (h : Hub) (a s : Nat) : Hub :=
  let h := setLeaseRec h a s { leaseRec h a s with step := 6 }
  let g := guest h a
  let h := each g.covered h fun h x => linkOff (emit h .grstN x [0]) x
  let h := each g.agentIds (setGuest h a { g with readmit := true }) fun h i => suspectAgent h i
  readmit h a

/-- The guest is time-shared (R309). -/
def shared (h : Hub) (a : Nat) : Bool := flag h F.siteStatusVerified a && dScrub (guest h a).shown && !odOn h (OD.siteExclusive a)

/-- Step 6 of a lease's end. -/
def leaseSwept (h : Hub) (a s : Nat) : Hub :=
  if shared h a then
    sbCmd (setLeaseRec (setFld h F.siteLeaseState (lkey a s) 3) a s { leaseRec h a s with step := 5 }) a 4 (leaseCtx h a s) s
  else exclusiveEnd h a s

/-- Step 5: the sweep over the guest's agents; one without agents has nothing to sweep. -/
def leaseSweep (h : Hub) (a s : Nat) : Hub :=
  let h := setLeaseRec h a s { leaseRec h a s with step := 4 }
  let ags := (guest h a).agentIds
  if ags.isEmpty then leaseSwept h a s else sweepContext h (leaseCtx h a s) ags

/-- RESULT of SITE.LEASE_CTL (R318). -/
def leaseRes (h : Hub) (a r : Nat) : Hub := setFld h F.siteLeaseCtlResult a r

/-- A context whose leases have all ended goes on with its teardown. -/
def leaseFreed (h : Hub) (a s : Nat) : Hub :=
  let c := leaseCtx h a s
  later (freeLease h a s) (.teardown c)

/-- LEASE_START ended: ACTIVE, or refused. A context that ended meanwhile gives its lease up again. -/
def leaseStarted (h : Hub) (a c s : Nat) (ok : Bool) : Hub :=
  let h := { h with leases := tdel h.leases (lkey a s) }
  if !ok then leaseRes h a 5
  else
    let h := leaseRes (setFld (setFld h F.siteLeaseState (lkey a s) 1) F.siteLeaseCtx (lkey a s) c) a 0
    if ctxLive h c then h else leaseEnd h a s true

/-- The guest ended the command under way with DONE or FAIL. -/
def guestCmdEnd (h : Hub) (site : Nat) (ok : Bool) : Hub :=
  let a := anchorOf h site
  let g := guest h a
  if g.clearing.contains site then setGuest h a { g with clearing := g.clearing.erase site }
  else if site != a then h
  else match g.sbCur with
    | none => h
    | some (cmd, c, s) =>
      let h := sbNext h a
      match cmd with
      | 1 => if ok then afterAdmit h a else refuse h a 8
      | 2 => leaseStarted h a c s ok
      | 3 => leaseSweep h a s
      | _ => if ok then leaseFreed h a s else isolate h a 3

def execGuestCmdEnd (site : Nat) (ok : Bool) (s : State) : Host.Outcome State Fault Refusal :=
  inData s (isLink site) fun h => guestCmdEnd h site ok

def guestCmdTimeout (h : Hub) (site : Nat) : Hub :=
  let a := anchorOf h site
  let g := guest h a
  if g.clearing.contains site then isolate h a 3
  else if site != a then h
  else match g.sbCur with
    | none => h
    | some (1, _, _) => refuse h a 8
    | some _ => isolate h a 3

def execGuestCmdTimeout (site : Nat) (s : State) : Host.Outcome State Fault Refusal := inData s (isLink site) fun h => guestCmdTimeout h site

/-- No TOP.DONE inRange 100 ms after a round (R518). -/
def execFwAnswerTimeout (anchor : Nat) (s : State) : Host.Outcome State Fault Refusal :=
  inData s (isLink anchor) fun h => if (guest h anchor).step = 10 then fwNext (refuseFw h anchor 5) else h

end Sys2Proof.Machine
end

