-- ==== Sys2Proof/Machine/Route.lean ====
section
/-!
DEFINITION. Machine/Route.lean: routes (R47 to R49), what each station's chapter demands of its slot (R81, R107, R109, R114,
R117, R120, R133), and the checks a command passes when it is decoded (R40 to R52, R79 to R84, R104, R109, R115 to R120,
R133 to R138, R147).
-/
namespace Sys2Proof.Machine

/-! ### Stations a context may use -/

/-- Bit of a house station in OD 0x6001.01 (R74). -/
def houseBit (stn : Nat) : Nat :=
  if stn = 0x40 then 22 else match houseEnd stn with
    | some (1, n) => n
    | some (2, n) => 8 + n
    | some (3, n) => 16 + n
    | some (_, n) => 20 + n
    | none => 31

/-- The station number is defined, present and a route station (R48). -/
def stnPresent (h : Hub) (stn : Nat) : Bool :=
  if stn = 0x40 then true
  else match houseEnd stn with
    | some (1, n) => h.variant.crankOn n
    | some _ => true
    | none => (stnRec h stn).isSome

/-- The context may use it: a house station enabled for tenants, a guest station whose guest leases the context (R48). -/
def stnAllowed (h : Hub) (c stn : Nat) : Bool :=
  if stn < 0x100 then bitOf (odNum h OD.houseStations) (houseBit stn)
  else match stnRec h stn with
    | some (a, _) => leased h a c
    | none => false

/-- A station that is LOST, or whose guest is isolated or being re-admitted (R49, R314). -/
def stnGone (h : Hub) (stn : Nat) : Bool :=
  if stn < 0x100 then stnState h stn == 3
  else match stnRec h stn with
    | some (a, _) => siteState h a == 4 || siteState h a == 2
    | none => false

/-! ### A slot's own rules -/

def vecOps : List Nat := [1, 2, 3, 4, 5, 6, 7, 0x10, 0x11, 0x12, 0x13, 0x14, 0x15, 0x16, 0x17, 0x18, 0x19, 0x1A, 0x20, 0x21,
  0x30, 0x31, 0x32, 0x33, 0x40, 0x41, 0x42, 0x43, 0x44]

/-- One unit per row comes out (R108). -/
def vecUnit (op : Nat) : Bool := (decide (0x30 ≤ op) && decide (op ≤ 0x33)) || op == 0x41

/-- The operation takes an input B (R108). -/
def vecTakesB (op : Nat) : Bool := (decide (1 ≤ op) && decide (op ≤ 5)) || op == 0x17 || op == 0x20 || op == 0x21 || (decide (0x41 ≤ op) && decide (op ≤ 0x44))

/-- The delivery mode a station offers (R68): cassettes and some guests both. -/
def modeOk (h : Hub) (s : Nat) : Bool :=
  match stnKind (slotStn s) with
  | 4 => true
  | 6 => match stnRec h (slotStn s) with
    | some (_, r) => if slotPull s then r.pull else r.push
    | none => false
  | _ => !slotPull s

/-- Reserved fields, values and source rules of slot `i` of a route (R47, R81, R103, R107, R109, R114, R117, R120, R133, R302). -/
def slotLegal (sl : List Nat) (i : Nat) : Bool :=
  let s := sl.getD i 0xFFFF
  let f := slotFunc s
  let a := slotSrcA s
  let b := slotSrcB s
  let last := i + 1 == sl.length
  let prev := sl.getD (i - 1) 0xFFFF
  decide (s / 2 ^ 50 = 0) && !(i == 0 && (a == 1 || b == 1)) &&
    match stnKind (slotStn s) with
    | 1 => a != 0 && b != 0 && decide (f % 8 ≤ 4) && decide (bitsOf f 5 4 ≤ 2) && decide (f < 256)
        && !(bitOf f 3 && slotSplitB s) && !(bitOf f 6 && bitsOf f 5 4 == 2)
    | 2 => vecOps.contains (vecOp f) && decide (bitsOf f 10 8 ≤ 4) && decide (f < 4096) && !slotSplitB s
        && !(vecUnit (vecOp f) && bitsOf f 10 8 != 0) && (b == 0 || vecTakesB (vecOp f))
    | 3 =>
      let o := bitsOf f 15 8
      decide (1 ≤ drlOp f) && decide (drlOp f ≤ 5) && bitsOf f 7 6 == 0 && decide (o ≤ 14) && (o == 14) == (drlOp f == 5)
        && (o != 0 || last) && (b == 0 || drlOp f == 3 || drlOp f == 4) && (drlOp f != 2 || (slotRows s % 32 == 0 && !slotSplitB s))
    | 4 => decide (1 ≤ f % 16) && decide (f % 16 ≤ 8) && decide (f < 512) && sl.length == 1 && a == 2
        && b == (if f % 16 = 3 then 3 else 0) && !slotSplitB s && slotRows s == 0
    | 5 => decide (f % 4 ≤ 2) && decide (f < 8) && last && b == 0 && a == (if sl.length = 1 then 2 else 1) && !slotSplitB s
        && !(i != 0 && isGuest (slotStn prev) && slotPull prev)
    | _ => true

/-- RED after a guest slot whose guest lacks REDUCE (R302). -/
def redBarred (h : Hub) (sl : List Nat) (i : Nat) : Bool :=
  let prev := slotStn (sl.getD (i - 1) 0xFFFF)
  slotStn (sl.getD i 0) == 0x40 && i != 0 && isGuest prev && match stnRec h prev with
    | some (a, _) => !bitOf (fld h F.siteClassesClasses a) 5
    | none => true

/-- The result of checking slot `i` (R48): 0 passes. -/
def slotResult (h : Hub) (c : Nat) (sl : List Nat) (i : Nat) : Nat :=
  let s := sl.getD i 0xFFFF
  if !stnPresent h (slotStn s) then 3
  else if !stnAllowed h c (slotStn s) || redBarred h sl i then 2
  else if !modeOk h s then 4
  else if !slotLegal sl i then 5
  else 0

/-- The first failure of a route's slots. -/
def routeResult (h : Hub) (c : Nat) (slots : List Nat) : Nat :=
  let sl := routeSlots slots
  (((List.range sl.length).map (slotResult h c sl)).find? (· != 0)).getD 0

/-! ### Command fields (R50, R51) -/

/-- Detail of a reserved field, value or address of the command itself: 0 none. -/
def fieldsDetail (x : Cmd) : Nat :=
  let p := x.param
  if 2 < x.opcode || x.bit1 5 || x.bit1 6 || x.bit1 7 || numAt x.raw 36 4 / 2 ^ 18 != 0 || numAt x.raw 48 4 / 2 ^ 20 != 0 then 1
  else if x.opcode = 2 && !(decide (1 ≤ p) && decide (p ≤ 3)) then 1
  else if x.opcode = 0 && p != 0 then 1
  else if [8, 16, 24].any fun o => numAt x.raw o 8 % 64 != 0 || numAt x.raw o 8 / 2 ^ 57 != 0 then 2
  else if x.opcode = 1 && (p % 64 != 0 || p / 2 ^ 57 != 0) then 2
  else 0

/-- A descriptor address of the command; none where it is 0. -/
def Cmd.desc (x : Cmd) (o : Nat) : Option Nat := if numAt x.raw o 8 = 0 then none else some (numAt x.raw o 8)

/-- The route names input `src`. -/
def named (sl : List Nat) (src : Nat) : Bool := sl.any fun s => slotSrcA s == src || slotSrcB s == src

/-- A missing or unneeded descriptor (R51). -/
def descDetail (x : Cmd) (sl : List Nat) : Nat :=
  let has (o : Nat) : Bool := (x.desc o).isSome
  let ok := match x.opcode with
    | 0 => !has 8 && !has 16 && !has 24
    | 2 => has 8 && !has 16 && !has 24
    | _ => has 8 == named sl 2 && has 16 == named sl 3 && has 24
  if ok then 0 else 0x0B

/-- A semaphore the context may not use (R52). -/
def semDetail (h : Hub) (x : Cmd) : Nat :=
  if (x.waitEn && !semRight h x.ctx x.waitSem false) || (x.postBit 17 && !semRight h x.ctx x.postSem true) then 0x0D else 0

/-! ### Tiles (R40 to R46) -/

/-- Reserved fields and values, then alignment. -/
def tileForm (d : List Byte) : Nat :=
  let t := tileOf d
  let mx := isMx t.format
  if numAt d 15 1 != 0 || !(sliceB d 40 24).all (· == 0) || t.format = 0 || 14 < t.format
      || (!mx && (t.scaleBase != 0 || t.scalePitch != 0 || t.scalePlanePitch != 0)) then 1
  else if t.base % 32 != 0 || t.base / 2 ^ 57 != 0 || t.rowPitch % 32 != 0 || t.planePitch % 32 != 0
      || t.scaleBase % 32 != 0 || t.scaleBase / 2 ^ 57 != 0 || t.scalePitch % 32 != 0 || t.scalePlanePitch % 32 != 0
      || (t.format == 14 && (t.base % 65536 != 0 || t.rowPitch % 65536 != 0)) then 2
  else 0

/-- `ROW_LEN` against its format (R41). -/
def rowLenOk (t : Tile) : Bool :=
  if t.format = 8 || t.format = 9 then t.rowLen % 3 == 0 else if t.format = 14 then t.rowLen == 2048 else true

/-- Geometry of a tile that is not empty (R41, R43). -/
def tileGeom (t : Tile) (bound : Nat) : Nat :=
  let overI (n : Nat) : Bool := decide (bound ≠ 0) && decide (bound * 4096 < n)
  if !rowLenOk t then 6
  else if 2 ^ 32 < t.extent || 2 ^ 32 < t.scaleExtent then 3
  else if 2 ^ 57 < t.base + t.extent || 2 ^ 57 < t.scaleBase + t.scaleExtent then 4
  else if overI t.extent || overI t.scaleExtent then 5
  else 0

/-- The stricter pitches of an output (R44). -/
def outPitch (t : Tile) : Nat :=
  let bad (rp pp len : Nat) : Bool :=
    (decide (1 < t.rowCount) && decide (rp < len))
      || (decide (1 < t.planeCount) && decide (pp < (t.rowCount - 1) * rp + len))
  if bad t.rowPitch t.planePitch (t.rowLen * 32) || (scaleLen t != 0 && bad t.scalePitch t.scalePlanePitch (scaleLen t)) then 7 else 0

/-- Two extents share a byte. -/
def crosses (a la b lb : Nat) : Bool := decide (0 < la) && decide (0 < lb) && decide (a < b + lb) && decide (b < a + la)

/-- The same tile, and the same scale area (R45). -/
def sameTile (o i : Tile) : Bool :=
  o.base == i.base && o.rowLen == i.rowLen && o.rowCount == i.rowCount && o.rowPitch == i.rowPitch
    && o.planeCount == i.planeCount && o.planePitch == i.planePitch && o.format == i.format
    && (!isMx o.format || (o.scaleBase == i.scaleBase && o.scalePitch == i.scalePitch && o.scalePlanePitch == i.scalePlanePitch))

/-- The output overlaps input `i` where R45 does not allow it. -/
def outOverlap (o i : Tile) : Bool :=
  let same := sameTile o i
  (!same && crosses o.base o.extent i.base i.extent)
    || (!same && crosses o.scaleBase o.scaleExtent i.scaleBase i.scaleExtent)
    || crosses o.base o.extent i.scaleBase i.scaleExtent
    || crosses o.scaleBase o.scaleExtent i.base i.extent

/-! ### Stations' checks -/

/-- Formats a crank pairs (R79), W's KPW already decoded. -/
def crankPair (a w : Nat) : Bool :=
  if [4, 5, 6, 7, 8, 9, 10].contains a then [4, 5, 6, 7, 8, 9, 10].contains w
  else (a == 12 || a == 11 || a == 2 || a == 3) && w == a

/-- The operation 0 of slot `i`, from which the checks read the parts of its inputs: no later operation takes more. -/
def firstOp (x : Cmd) (i : Nat) : TileOp :=
  { opid := 0, ctx := x.ctx, slot := x.slot, count := x.count, stage := i, station := slotStn (x.route.getD i 0) }

/-- Bytes of the part of an input that operation 0 takes, with its scales. -/
def partBytes (x : Cmd) (i input : Nat) : Nat :=
  let w := if input = 0 then stageA x i else stageB x i
  let p := (inPart x (firstOp x i) input).1
  p.rows * (bytesOf w.fmt p.cols + if isMx w.fmt then p.cols / 32 else 0)

/-- The slot's source is a KPW tile. -/
def fromKpw (x : Cmd) (src : Nat) : Bool :=
  match x.source src with
  | some (t, _) => t.format == 14
  | none => false

/-- The output tile fits what a last slot gives: planes, rows, elements (R83, R104, R108, R115 to R119; log entry 21). -/
def outFits (x : Cmd) (o : LTile) (f : Nat) : Bool :=
  match x.out with
  | none => false
  | some t => t.rowCount == o.rows && t.planeCount == o.planes && (f == 14 || elemsOf t.format t.rowLen == o.elems)

/-- Format of a last slot against the output tile: equal, or, before RED, left to R120 (R104). -/
def outFormat (x : Cmd) (sl : List Nat) (i f : Nat) : Nat :=
  if i + 1 = sl.length && (x.out.map (·.format)).getD 0 != f then 0x0E else 0

/-- Elements of a row make whole units and blocks of format `f` (R41). -/
def wholeUnits (f e : Nat) : Bool := decide (bytesOf f e % 32 = 0) && elemsOf f (bytesOf f e / 32) == e && (!isMx f || e % 32 == 0)

/-- A crank's slot (R79, R82, R83): `empty` leaves out the dimensions (R46). -/
def crankDetail (x : Cmd) (sl : List Nat) (i : Nat) (empty : Bool) : Nat :=
  let s := sl.getD i 0
  let f := crankFunc (slotFunc s)
  let a := stageA x i
  let b := stageB x i
  let o := stageOut x i
  let kpwA := fromKpw x (slotSrcA s)
  let kpwB := fromKpw x (slotSrcB s)
  let fb := if empty && kpwB then 6 else b.fmt
  if kpwA || !crankPair a.fmt fb || (f.fmt == 13 && !(a.fmt == 12 && b.fmt == 12)) || (f.wt && (isMx b.fmt || kpwB)) then 0x0E
  else if lastSlot sl i && outFormat x sl i f.fmt != 0 then 0x0E
  else if empty then 0
  else if a.elems != (if f.wt then b.rows else b.elems) || !(a.planes == b.planes || a.planes == 1 || b.planes == 1) then 0x0A
  else if lastSlot sl i && !outFits x o f.fmt then 0x0A
  else if 2048 < (inPart x (firstOp x i) 0).1.rows || 2 ^ 23 < partBytes x i 0 + partBytes x i 1 then 0x0A
  else 0

/-- The shape of B a vector operation takes (R109); `none` where the slot has no B. -/
def vecB (op : Nat) (a : LTile) (b : Option LTile) : Bool :=
  let binary := (decide (1 ≤ op) && decide (op ≤ 5)) || op == 0x17
  match b with
  | none => !binary && !(decide (0x42 ≤ op) && decide (op ≤ 0x44))
  | some b =>
    let lock := b.rows == a.rows && b.planes == a.planes
    if binary then (b.elems == a.elems || b.elems == elemsOf b.fmt 1) && (lock || (b.rows == 1 && b.planes == 1))
    else if op = 0x20 then b.rows == 1 && b.planes == 1 && b.elems == a.elems
    else if op = 0x21 then b.rows == 2 && b.planes == 1 && b.elems == a.elems
    else decide (0x41 ≤ op) && decide (op ≤ 0x44) && b.fmt == 1 && b.elems == 8 && lock

/-- A vector station's slot (R104, R109). -/
def vecDetail (x : Cmd) (sl : List Nat) (i : Nat) (empty : Bool) : Nat :=
  let s := sl.getD i 0
  let a := stageA x i
  let b := if slotSrcB s = 0 then none else some (stageB x i)
  let okF (f : Nat) : Bool := [1, 2, 3, 4, 5, 12, 13].contains f
  if !okF a.fmt || !((b.map fun t => okF t.fmt).getD true) then 0x0E
  else if lastSlot sl i && outFormat x sl i (vecFmt (slotFunc s)) != 0 then 0x0E
  else if empty then 0
  else if slotSrcA s = 0 || !vecB (vecOp (slotFunc s)) a b then 0x0A
  else if lastSlot sl i && !outFits x (stageOut x i) 0 then 0x0A
  else 0

/-- The value of an integer-valued number; 0 for every other. -/
def intValue (n : Num) : Nat :=
  match n with
  | .fin false m e => if 0 ≤ e then m * 2 ^ e.toNat else if m % 2 ^ (-e).toNat = 0 then m / 2 ^ (-e).toNat else 0
  | _ => 0

/-- A derailleur's slot (R104, R114 to R119, R147). -/
def drlDetail (x : Cmd) (sl : List Nat) (i : Nat) (empty : Bool) : Nat :=
  let s := sl.getD i 0
  let f := slotFunc s
  let op := drlOp f
  let a := stageA x i
  let b := stageB x i
  let o := stageOut x i
  let last := lastSlot sl i
  if last && outFormat x sl i (drlFmt f x.outTile.fmt) != 0 then 0x0E
  else if op = 5 && !([6, 7, 10].contains a.fmt) then 0x0E
  else if empty then 0
  else if slotSrcA s = 0 then 0x0A
  else match op with
    | 1 => if !wholeUnits o.fmt o.elems then 6 else if last && !outFits x o 0 then 0x0A else 0
    | 2 => if a.rows % 32 != 0 || (last && !outFits x o 0) then 0x0A else 0
    | 3 =>
      if !slotSplitB s || slotSrcB s = 0 || b.fmt != 13 || a.planes != 1 || b.planes != 1 then 0x0A
      else if !wholeUnits o.fmt o.elems then 6
      else if last && (!outFits x o 0 || decide (b.rows * b.elems < o.rows)) then 0x0A else 0
    | 4 =>
      if !last || !slotSplitB s || slotSrcB s = 0 || b.fmt != 13 || a.planes != 1 || b.planes != 1
          || !outFits x o 0 || decide (b.rows * b.elems < a.rows) then 0x0A else 0
    | _ =>
      let e := if x.param = 0 then a.elems else intValue (fp32.decode (numAt x.params (8 * i) 4))
      if e = 0 || a.elems % e != 0 || e % 32 != 0 || decide (kpwLimit a.fmt < a.elems) || !last || !outFits x o 14 then 0x0A else 0

/-- A RED slot (R120): target type, pairing, and a shape that covers the output exactly. -/
def redDetail (x : Cmd) (sl : List Nat) (i : Nat) (empty : Bool) : Nat :=
  let a := stageA x i
  let t := x.outTile
  let i64 := bitOf (slotFunc (sl.getD i 0)) 2
  if !([1, 2, 3, 4, 5, 13].contains t.fmt) || (i64 && t.fmt != 13) || !(a.fmt == t.fmt || (a.fmt == 1 && t.fmt != 13)) then 0x0E
  else if empty then 0
  else if a.planes != t.planes || a.rows != t.rows || a.elems != t.elems then 0x0A
  else 0

/-- A cassette's slot (R133, R134, R136, R137). A pool that is not bound to the context is refused as a broken source rule
(log entry 22). -/
def casDetail (h : Hub) (x : Cmd) (s : Nat) (empty : Bool) : Nat :=
  let op := slotFunc s % 16
  let k := (slotStn s - 0x30) * 32 + bitsOf (slotFunc s) 8 4
  let t0 : Tile := x.in0.getD ⟨0, 0, 0, 0, 0, 0, 0, 0, 0, 0⟩
  let o : Tile := x.out.getD ⟨0, 0, 0, 0, 0, 0, 0, 0, 0, 0⟩
  match poolOf h k with
  | none => 0x0A
  | some p =>
    if p.ctx != x.ctx then 0x0A
    else if t0.format != 13 || (op < 7 && o.format != 13) || (7 ≤ op && o.format != p.fmt) then 0x0E
    else if empty then 0
    else if t0.rowLen != 1 || t0.planeCount != 1 || 1024 < t0.rowCount then 0x0A
    else if op < 7 && (o.rowLen != 1 || o.planeCount != 1 || o.rowCount != t0.rowCount) then 0x0A
    else if 7 ≤ op && (o.planeCount != 1 || o.rowLen * 32 != p.rowBytes) then 0x0A
    else match x.in1 with
      | none => 0
      | some t1 =>
        if t1.format != p.fmt || t1.rowLen * 32 != 2 * p.heads * p.rowBytes || t1.planeCount != 1 then 0x0A
        else if !slotPull s && decide (2 ^ 23 < t0.rowCount * 32 + t1.rowCount * t1.rowLen * 32) then 0x0A
        else 0

/-- A guest station's slot: the formats its descriptor declares (R295). -/
def guestDetail (h : Hub) (x : Cmd) (sl : List Nat) (i : Nat) : Nat :=
  let s := sl.getD i 0
  match stnRec h (slotStn s) with
  | none => 0x0A
  | some (_, r) =>
    let raw (src : Nat) (t : LTile) : Nat := if slotPull s && fromKpw x src then 14 else t.fmt
    let inOk (src : Nat) (t : LTile) : Bool := src == 0 || bitOf r.fmtIn (raw src t)
    if !inOk (slotSrcA s) (stageA x i) || !inOk (slotSrcB s) (stageB x i) then 0x0E
    else if lastSlot sl i && !bitOf r.fmtOut x.outTile.fmt then 0x0E
    else 0

/-- Slot `i`'s station accepts the command. -/
def stationDetail (h : Hub) (x : Cmd) (sl : List Nat) (empty : Bool) (i : Nat) : Nat :=
  match stnKind (slotStn (sl.getD i 0)) with
  | 1 => crankDetail x sl i empty
  | 2 => vecDetail x sl i empty
  | 3 => drlDetail x sl i empty
  | 4 => casDetail h x (sl.getD i 0) empty
  | 5 => redDetail x sl i empty
  | _ => guestDetail h x sl i

/-- Bytes [7:4] of a crank's parameter word must be 0 where it reads one (R84). -/
def alphaDetail (x : Cmd) (sl : List Nat) : Nat :=
  if x.param != 0 && (sl.zipIdx.any fun e => stnKind (slotStn e.1) == 1 && bitOf (slotFunc e.1) 6
      && numAt x.params (8 * e.2 + 4) 4 != 0) then 1 else 0

/-- The first detail that is not 0. -/
def firstDetail (ds : List Nat) : Nat := (ds.find? (· != 0)).getD 0

end Sys2Proof.Machine
end

