-- ==== Sys2Proof/Machine/Disp.lean ====
section
/-!
DEFINITION. Machine/Disp.lean: the dispatcher's commands: doorbells and queues (R55 to R62), reading and checking commands
(R50 to R54), their waits, translation and issue (R63 to R70), and their records (R59, R60).
-/
namespace Sys2Proof.Machine

/-! ### Reading commands (R53 step 1) -/

/-- A context, a queue slot. -/
def isQueue (c s : Nat) : Bool := decide (c < 8192) && decide (s < 64)

/-- The context issues: ACTIVE, and the data half runs (R18, R357). -/
def issuing (h : Hub) (c : Nat) : Bool := running h && ctxState h c == 2

/-- The command ends as refused or failed before it issued anything. -/
def failCmd (h : Hub) (x : Cmd) (status detail : Nat) : Hub := conclude (putCmd h x) { x with status := status, detail := detail }

/-- The commands of the queue before `x` have all begun or ended. -/
def myTurn (h : Hub) (x : Cmd) : Bool := ((cmdsOf h x.ctx x.slot).takeWhile fun y => y.count != x.count).all Cmd.begun

/-! ### Decoding (R53 step 2) -/

/-- The route entry a command names: none where the index lies outside the context's window (R47). -/
def routeEntry (h : Hub) (c i : Nat) : Option (List Nat) :=
  if i < fld h F.ctxRouteWinCount c then some (tgetD h.routes (fld h F.ctxRouteWinBase c + i) [0xFFFF]) else none

/-- Read a descriptor or parameter block for a command. -/
def readBlock (h : Hub) (x : Cmd) (a : Option Nat) : Option (List Byte × Bool) × Hub :=
  match a with
  | none => (some ([], false), h)
  | some va =>
    match vaRead h x.ctx va 64 (dspWho h x.ctx x.slot) with
    | (some (bs, bad), h) => (some (bs, !bad.isEmpty), h)
    | (none, h) => (none, h)

/-- Read several. -/
def readBlocks (x : Cmd) : List (Option Nat) → Hub → Option (List (List Byte × Bool)) × Hub
  | [], h => (some [], h)
  | a :: r, h0 =>
    let (v, h) := readBlock h0 x a
    let (vs, h) := readBlocks x r h
    match v, vs with
    | some v, some vs => (some (v :: vs), h)
    | _, _ => (none, { h with hostHave := h0.hostHave })

/-- Addresses of the first and the last page header of a KPW input (R80, R147). -/
def kpwAddrs (t : Option Tile) (empty : Bool) : List (Option Nat) :=
  match t with
  | some t => if t.format = 14 && !empty then [some t.base, some (t.base + (t.rowCount - 1) * t.rowPitch)] else [none, none]
  | none => [none, none]

/-- What two headers say of a KPW tile: 0x0E where one is invalid, or the last page's rows, format or row length do not go
with the first's (R147). -/
def kpwGeom (a b : List Byte) : Option (Nat × Nat × Nat × Nat) :=
  match kpwHeader a, kpwHeader b with
  | some x, some y => if y.rows ≤ x.rows && y.fmt == x.fmt && y.elems == x.elems then some (x.fmt, x.elems, x.rows, y.rows) else none
  | _, _ => none

/-- The slots of a route that hold operations: RED after another station has none of its own. -/
def opSlots (sl : List Nat) : Nat := if decide (1 < sl.length) && slotStn (sl.getLast?.getD 0) == 0x40 then sl.length - 1 else sl.length

/-- A command whose checks passed goes to step 3. -/
def decoded (h : Hub) (x : Cmd) : Hub :=
  let sl := routeSlots x.route
  let x := { x with step := 3, total := if x.opcode = 1 && !x.empty then opCount x * opSlots sl else 0 }
  advance (traceCmd (putCmd h x) 0x11 x) x.ctx x.slot x.count

/-- Checks that need the descriptors: tiles, then stations (R40 to R46 and the stations' rules). -/
def checkTiles (h : Hub) (x : Cmd) (sl : List Nat) (ds : List (Option (List Byte))) (kp : List (List Byte × Bool)) : Hub :=
  let bound := numAt x.raw 32 4
  let forms := firstDetail ((ds.filterMap id).map tileForm)
  let tiles := (ds.filterMap id).map tileOf
  let x := { x with in0 := (ds.getD 0 none).map tileOf, in1 := (ds.getD 1 none).map tileOf, out := (ds.getD 2 none).map tileOf
                    empty := tiles.any Tile.empty }
  let isK (t : Option Tile) : Bool := !x.empty && x.opcode == 1 && match t with
    | some t => t.format == 14
    | none => false
  let g0 := if isK x.in0 then kpwGeom (kp.getD 0 ([], false)).1 (kp.getD 1 ([], false)).1 else none
  let g1 := if isK x.in1 then kpwGeom (kp.getD 2 ([], false)).1 (kp.getD 3 ([], false)).1 else none
  let geom := if x.empty then 0 else firstDetail (tiles.map (tileGeom · bound))
  let outs := if x.empty then 0 else match x.out with
    | none => 0
    | some o => firstDetail [outPitch o, if x.inputs.any (outOverlap o) then 8 else 0]
  if forms ≠ 0 then failCmd h x 2 forms
  else if firstDetail [geom, outs] ≠ 0 then failCmd h x 2 (firstDetail [geom, outs])
  else if x.opcode ≠ 1 then decoded h x
  else if kp.any (·.2) then failCmd h x 4 0x41
  else if (isK x.in0 && g0.isNone) || (isK x.in1 && g1.isNone) then failCmd h x 2 0x0E
  else
    let x := { x with kpw0 := g0, kpw1 := g1 }
    let d := firstDetail (alphaDetail x sl :: (List.range sl.length).map (stationDetail h x sl x.empty))
    if d ≠ 0 then failCmd h x 2 d else decoded h x

/-- Decode a command at step 2 (R53). Of several details that apply, the one reported is the model's order (log entry 24). -/
def decodeCmd (h : Hub) (x : Cmd) : Hub :=
  if x.status ≠ 0 then conclude h x
  else
    let f := fieldsDetail x
    let entry := if x.opcode = 0 then some [] else routeEntry h x.ctx (numAt x.raw 2 2)
    let sl := routeSlots (entry.getD [])
    let noRoute := x.opcode != 0 && sl.isEmpty
    let x := { x with route := entry.getD [] }
    let gone := sl.find? fun s => stnGone h (slotStn s)
    let barred := (List.range sl.length).any fun i =>
      let s := slotStn (sl.getD i 0)
      !stnPresent h s || !stnAllowed h x.ctx s || redBarred h sl i
    match (if x.opcode ≤ 2 then gone else none) with
      | some s => failCmd h x 5 (slotStn s)
      | none =>
        let d := firstDetail [f, if noRoute then 9 else 0, if barred then 0x0A else 0, descDetail x sl, semDetail h x]
        if d ≠ 0 then failCmd h x 2 d
        else
          match readBlocks x [x.desc 8, x.desc 16, x.desc 24, if x.opcode = 1 && x.param != 0 then some x.param else none] h with
          | (none, h) => h
          | (some bs, h) =>
            if bs.any (·.2) then failCmd h x 4 (dspWho h x.ctx x.slot)
            else
              let x := { x with params := (bs.getD 3 ([], false)).1 }
              let ds := [8, 16, 24].zipIdx.map fun o => (x.desc o.1).map fun _ => (bs.getD o.2 ([], false)).1
              let tl (i : Nat) : Option Tile := (ds.getD i none).map tileOf
              let empty := (ds.filterMap id).any fun d => (tileOf d).empty
              let ks := if x.opcode = 1 && (ds.filterMap id).all (fun d => tileForm d == 0 && (tileOf d).rowLen != 0)
                then kpwAddrs (tl 0) empty ++ kpwAddrs (tl 1) empty else []
              match readBlocks x ks h with
              | (none, h) => h
              | (some kp, h) => checkTiles h x sl ds kp

/-- Decode the queue's next command, in queue order (R58). -/
def decodeNext (h : Hub) (c s : Nat) : Hub :=
  if !issuing h c || qState h c s != 1 then h
  else match (cmdsOf h c s).find? fun x => x.step == 2 with
    | none => h
    | some x => if myTurn h x then decodeCmd h x else h

def execCmdDescriptorRead (ctx slot : Nat) (s : State) : Host.Outcome State Fault Refusal :=
  inData s (isQueue ctx slot) fun h => decodeNext h ctx slot

/-- Read the queue's next 64 B command once (R54), where `want` takes it. A poisoned one ends POISONED with TAG 0 in its
turn. A command without descriptors is checked at once where it is its turn. -/
def readCmd (h : Hub) (c s : Nat) (want : List Byte → Bool) : Hub :=
  let q := qrec h c s
  if !issuing h c || qState h c s != 1 || q.nextRd == q.sqTail then h
  else
    let va := getReg h .ctxQsqBase (qkey c s) + q.nextRd % 2 ^ fld h F.ctxQcfgSqLog2 (qkey c s) * 64
    match vaRead h c va 64 (dspWho h c s) with
    | (none, h) => h
    | (some (bs, bad), h1) =>
      if bad.isEmpty && !want bs then h
      else
        let x : Cmd := if bad.isEmpty then { ctx := c, slot := s, count := q.nextRd, raw := bs, step := 2 }
          else { ctx := c, slot := s, count := q.nextRd, raw := List.replicate 64 0, step := 2, status := 4, detail := dspWho h1 c s }
        let h := setQrec h1 c s { qrec h1 c s with nextRd := (q.nextRd + 1) % 2 ^ 32 }
        let h := { h with cmds := h.cmds ++ [x] }
        if (x.opcode == 0 || x.status != 0) && myTurn h x then decodeCmd h x else h

/-- The command is a RANGE of kind `k`. -/
def isRange (k : Nat) (bs : List Byte) : Bool := numAt bs 0 1 == 2 && numAt bs 56 1 == k

def execCmdNop (ctx slot : Nat) (s : State) : Host.Outcome State Fault Refusal :=
  inData s (isQueue ctx slot) fun h => readCmd h ctx slot fun b => numAt b 0 1 == 0

/-- CMD_ROUTE also takes the commands whose opcode or kind is reserved, which fail at their checks (R50). -/
def execCmdRoute (ctx slot : Nat) (s : State) : Host.Outcome State Fault Refusal :=
  inData s (isQueue ctx slot) fun h => readCmd h ctx slot fun b =>
    numAt b 0 1 != 0 && !isRange 1 b && !isRange 2 b && !isRange 3 b

def execRangeFlush (ctx slot : Nat) (s : State) : Host.Outcome State Fault Refusal :=
  inData s (isQueue ctx slot) fun h => readCmd h ctx slot (isRange 1)
def execRangeClean (ctx slot : Nat) (s : State) : Host.Outcome State Fault Refusal :=
  inData s (isQueue ctx slot) fun h => readCmd h ctx slot (isRange 2)
def execRangeInval (ctx slot : Nat) (s : State) : Host.Outcome State Fault Refusal :=
  inData s (isQueue ctx slot) fun h => readCmd h ctx slot (isRange 3)

/-! ### Waits, acquires and translation (R53 steps 3 to 6) -/

/-- Fences that are met, and whatever of the queue can go on. -/
def execCmdFenceRelease (ctx slot : Nat) (s : State) : Host.Outcome State Fault Refusal :=
  inData s (isQueue ctx slot) fun h => runQueue h ctx slot

/-- A wait the table had no room for is tried again (R66). -/
def retryWait (h : Hub) (c s : Nat) : Hub :=
  if !issuing h c then h
  else match (cmdsOf h c s).find? fun x => x.step == 4 && x.tried && !x.waiting with
    | none => h
    | some x => semWait h (.cmd s x.count) c x.waitSem (toSigned 64 (numAt x.raw 40 8)) none

def execWaitTableRetry (ctx slot : Nat) (s : State) : Host.Outcome State Fault Refusal :=
  inData s (isQueue ctx slot) fun h => retryWait h ctx slot

/-- The command of a queue that has a range operation under way at step `n`, or wants one. -/
def atStep (h : Hub) (c s n : Nat) : Option Cmd := (cmdsOf h c s).find? fun x => x.step == n

/-- ACQ_IN ends (R53 step 5): the house stations drop their sectors; once the guests have answered, translation begins. -/
def acqDone (h : Hub) (c s : Nat) : Hub :=
  match (cmdsOf h c s).find? fun x => x.step == 5 && x.rangeOp.isSome with
  | none => runQueue h c s
  | some x =>
    let id := x.rangeOp.getD 0
    let h := houseRange h id x.inputs
    if (findOp h id).any fun o => !o.waitFor.isEmpty then h
    else
      let x := { x with step := 6, rangeOp := none }
      askPages (putCmd { h with ops := dropIf h.ops fun o => o.opid == id } x) x

def execCmdAcqInvalDone (ctx slot : Nat) (s : State) : Host.Outcome State Fault Refusal :=
  inData s (isQueue ctx slot) fun h => acqDone h ctx slot

/-- A page of a reduction's output lies in host memory (R120). -/
def redToHost (h : Hub) (x : Cmd) : Bool :=
  (routeSlots x.route).any (fun s => slotStn s == 0x40) && (pagesOf (x.out.toList.flatMap Tile.foot)).any fun p =>
    match atcFind h x.ctx (p * 4096) true with
    | some e => e.host
    | none => false

/-- The command names a cassette pool that an invalidation broke (R141). -/
def brokenPoolNamed (h : Hub) (x : Cmd) : Bool :=
  let s := x.route.getD 0 0
  x.opcode == 1 && stnKind (slotStn s) == 4 && fld h F.casPoolStatState ((slotStn s - 0x30) * 32 + bitsOf (slotFunc s) 8 4) == 2

/-- Footprint pages that a shared region does not permit, and whether to write: those written in a region that refuses writes (R173), and those read in a
bound region (R453) where the context is not listed, or a slot names their tile otherwise than as the weight input of a crank, or
they are no tile's. -/
def boundPages (h : Hub) (x : Cmd) : List (Nat × Bool) :=
  let region (p : Nat) : Option Nat := match atcFind h x.ctx (p * 4096) false with
    | some e => if e.host then none else boundAt h (e.target (p * 4096))
    | none => none
  let asWeights (src : Nat) : Bool := (routeSlots x.route).all fun s => slotSrcA s != src && (slotSrcB s != src || stnKind (slotStn s) == 1)
  let bad (fp : List (Nat × Nat)) (ok : Bool) : List Nat := (pagesOf fp).filter fun p => match region p with
    | some i => !(ok && x.opcode == 1 && bindListed h i x.ctx)
    | none => false
  let shut (p : Nat) : Bool := match atcFind h x.ctx (p * 4096) true with
    | some e => !e.host && sealed h (e.target (p * 4096))
    | none => false
  ((pagesOf (x.out.toList.flatMap Tile.foot)).filter shut).map (·, true) ++ ((bad (x.in0.toList.flatMap Tile.foot) (asWeights 2) ++ bad (x.in1.toList.flatMap Tile.foot) (asWeights 3)
    ++ bad ((x.foot.filter (!·.2)).map (·.1) |>.filter fun e => e.2 == 64 && e.1 == x.param) false).map (·, false))

/-- Step 6 ends where every page is translated: with a fault the command ends TRANSLATION_FAULT and the context is killed
(R53, R366). -/
def translated (h : Hub) (c s : Nat) : Hub :=
  match atStep h c s 6 with
  | none => h
  | some x =>
    let h := askPages h x
    match findCmd h c s x.count with
    | none => h
    | some x =>
      let x := { x with faults := x.faults ++ (boundPages h x).map fun (p : Nat × Bool) => (p.1, 2, false, some p.2) }
      if !x.missing.isEmpty then h
      else match x.lowestFault with
        | some (va, kind, w, host) => trFault (conclude h { x with status := 3 }) c kind w host (dspWho h c s) va
        | none =>
          if redToHost h x then conclude h { x with status := 2, detail := 0x0A }
          else if brokenPoolNamed h x then later (conclude h { x with status := 3 }) (.kill c 1)
          else putCmd h { x with step := 7 }

def execCmdTranslationDone (ctx slot : Nat) (s : State) : Host.Outcome State Fault Refusal :=
  inData s (isQueue ctx slot) fun h => if issuing h ctx then translated h ctx slot else h

/-! ### Issue (R64 to R66) -/

/-- The page extents (first page, last page) of rows [r0, r0 + n) of plane `p` of a tile, elements from byte `o` to byte
`o + l` of each row, and of their scales. -/
def partPages (t : Tile) (k : Option (Nat × Nat × Nat × Nat)) (p r0 n o l : Nat) : List (Nat × Nat) :=
  let p := if t.planeCount ≤ p then 0 else p
  let q := match k with
    | some (_, _, q, _) => Nat.max 1 q
    | none => 1
  let a := r0 / q
  let b := (r0 + n - 1) / q
  let l := if k.isSome then t.rowLen * 32 else l
  if n = 0 || l = 0 then []
  else ((t.rowAt p a + o) / 4096, (t.rowAt p b + o + l - 1) / 4096) ::
    (if scaleLen t = 0 then [] else [(t.scaleAt p a / 4096, (t.scaleAt p b + scaleLen t - 1) / 4096)])

/-- What an input of the operation may read (R65): the rows of its part; of a gathered tile and at a pull station, the
whole tile. -/
def readPages (x : Cmd) (o : TileOp) (input : Nat) : List (Nat × Nat) :=
  let (p, src) := inPart x o input
  match x.source src with
  | none => []
  | some (t, k) =>
    if o.pull || (input = 0 && (isGather x o || isScatter x o)) then
      (List.range t.planeCount).flatMap fun q => partPages t none q 0 t.rowCount 0 (t.rowLen * 32)
    else partPages t k p.plane p.row0 p.rows 0 (t.rowLen * 32)

/-- What it writes: its part of the output tile; of SCATTER, RED's whole rows and a pull station, the whole tile. -/
def writePages (x : Cmd) (o : TileOp) : List (Nat × Nat) :=
  match x.out with
  | none => []
  | some t =>
    if !lastSlot (routeSlots x.route) o.stage then []
    else if o.pull || isScatter x o || stnKind o.station = 4 then
      (List.range t.planeCount).flatMap fun q => partPages t none q 0 t.rowCount 0 (t.rowLen * 32)
    else
      let p := outPart x o.k o.stage
      partPages t none p.plane p.row0 p.rows (bytesOf t.format p.col0) (bytesOf t.format p.cols)

/-- A tile record of TOP.START (R273): base, scale base, pitches, row length, rows, format, present. -/
def tileRecord (x : Cmd) (o : TileOp) (input : Nat) : List Nat :=
  let s := x.route.getD o.stage 0
  let (p, src) := inPart x o input
  let w := if input = 0 then stageA x o.stage else stageB x o.stage
  let len := ceilDiv (bytesOf w.fmt p.cols) 32
  let has := if input = 0 then slotSrcA s != 0 else slotSrcB s != 0
  match (if o.pull then x.source src else none) with
  | some (t, _) => [t.rowAt p.plane p.row0, if isMx t.format then t.scaleAt p.plane p.row0 else 0, t.rowPitch, t.scalePitch, t.rowLen,
      p.rows, t.format, b2n has]
  | none => [0, 0, 0, 0, len, p.rows, w.fmt, b2n has]

/-- The output's record. -/
def outRecord (x : Cmd) (o : TileOp) : List Nat :=
  let p := outPart x o.k o.stage
  let w := stageOut x o.stage
  let last := lastSlot (routeSlots x.route) o.stage
  match (if o.pull && last then x.out else none) with
  | some t => [t.rowAt p.plane p.row0, if isMx t.format then t.scaleAt p.plane p.row0 else 0, t.rowPitch, t.scalePitch, t.rowLen,
      p.rows, t.format, 1]
  | none => [0, 0, 0, 0, ceilDiv (bytesOf w.fmt p.cols) 32, p.rows, w.fmt, 1]

/-- The station has room: a guest's operation slots and lease (R273, R311), and no hold of its tile cache (R223). -/
def stnRoom (h : Hub) (c stn : Nat) : Bool :=
  !h.tcHold.contains stn &&
    if isGuest stn then match stnRec h stn with
      | some (a, r) => siteState h a == 3 && leased h a c && decide ((h.ops.filter fun o => o.station == stn && o.range == 0).length < r.slots)
      | none => false
    else true

/-- Issue the next tile operation of command `x`: the operations of one part follow each other through the route's stations
(R64, R65). -/
def issueOp (h : Hub) (x : Cmd) : Hub :=
  let sl := routeSlots x.route
  let n := Nat.max 1 (opSlots sl)
  let stage := x.issued % n
  let s := sl.getD stage 0
  let stn := slotStn s
  let o : TileOp := { opid := 0, ctx := x.ctx, slot := x.slot, count := x.count, stage := stage, k := x.issued / n, station := stn
                      func := slotFunc s, pull := slotPull s, autoMax := odNum h OD.crankAutoMax }
  let p := outPart x o.k stage
  let o := { o with plane := p.plane, row0 := p.row0, rows := p.rows }
  let o := { o with rds := readPages x o 0 ++ readPages x o 1, wrs := writePages x o }
  if opBlocked h x.ctx [stn] o.rds o.wrs || !stnRoom h x.ctx stn then h
  else match freeOp h (qSlice h x.ctx x.slot) with
    | none => h
    | some id =>
      let o := { o with opid := id }
      let h := putCmd { h with ops := h.ops ++ [o] } { x with issued := x.issued + 1 }
      let h := trace h 0 (sliceRouter (id / 65536)) 0x21 (some x.ctx) (id + x.ctx * 2 ^ 18 + stn * 2 ^ 32)
      toStation h 2 9 .topStart stn ([id, x.ctx, b2n o.pull, stn % 64, o.func, x.param, o.plane] ++ tileRecord x o 0 ++ tileRecord x o 1
        ++ outRecord x o)

/-- Issue for a queue: its oldest command at step 7 that has operations left; a RANGE command starts its range operation
(R222). A halted queue goes on with what has begun (R61), and so does a context that is torn down (R361); a full completion ring
stops issue (R60). -/
def issueNext (h : Hub) (c s : Nat) : Hub :=
  match (cmdsOf h c s).find? fun x => x.step == 7 && (decide (x.issued < x.total) || (x.opcode == 2 && x.rangeOp.isNone)) with
  | none => h
  | some x =>
    let st := qState h c s
    if !(issuing h c || (running h && ctxState h c == 6)) || (st != 1 && x.issued == 0) || !myTurn h x || (st != 3 && !cqRoom h c s)
        || decide (odNum h OD.dspQueueOps ≤ queueOps h c s) then h
    else if x.opcode = 2 then
      match startRange h x x.rangeKind x.inputs x.stations with
      | none => h
      | some (id, h) => houseRange (putCmd h { x with rangeOp := some id, issued := 1, total := 1 }) id x.inputs
    else issueOp h x

def execTileOpIssue (ctx slot : Nat) (s : State) : Host.Outcome State Fault Refusal :=
  inData s (isQueue ctx slot) fun h => issueNext h ctx slot

/-! ### Delivery to stations (R68, R69) -/

/-- The command an operation belongs to. -/
def opCmd (h : Hub) (o : TileOp) : Option Cmd := findCmd h o.ctx o.slot o.count

/-- Set the input-window credits held for a guest station. -/
def setCredit (h : Hub) (stn n : Nat) : Hub :=
  match stnRec h stn with
  | none => h
  | some (a, _) =>
    let g := guest h a
    setGuest h a { g with stations := mapIf g.stations (fun r => r.number == stn) fun r => { r with credit := n } }

/-- Errors met while the next flit is read: in the station's tile cache (1 corrected, 2 uncorrectable: the line is dropped and read
again, R216), and at the home of its first sector (R164, R169). -/
def flitErrors (h : Hub) (id tcErr memErr : Nat) : Hub :=
  match findOp h id with
  | none => h
  | some o => match (opCmd h o).bind fun x => (opFlits x o)[o.posA]? with
    | some ⟨_, _, .mem va _ sva _, scale, off, _⟩ =>
      let a := (if scale then sva else va) + off
      let cached := h.tc.any fun y => y.stn == o.station && y.ctx == o.ctx && y.sec == a / 32
      let h := if !cached || tcErr = 0 then h
        else if tcErr = 1 then raise h E.tcEccCorr (stnRouter o.station)
        else raise { h with tc := dropIf h.tc fun y => y.stn == o.station && y.ctx == o.ctx && y.sec / 2 == a / 64 } E.tcEccUncorr
          (stnRouter o.station)
      match atcFind h o.ctx a false with
      | some e => if e.host || (cached && tcErr < 2) then h else memError h (e.target a) (memErrOf memErr)
      | none => h
    | _ => h

/-- Push the next input flit of an operation: to a guest, against its input window (R69); to a house station's store. The
sectors `hurt` of the flit arrive with a code that fails (R98, R277). -/
def pushRow (h : Hub) (id : Nat) (hurt : List Nat) : Hub :=
  match findOp h id with
  | none => h
  | some o =>
    match opCmd h o with
    | none => h
    | some x =>
      let fs := opFlits x o
      match fs[o.posA]? with
      | none => h
      | some f =>
        if o.dead || o.range != 0 || (isGuest o.station && o.pull) then h
        else
          let rec_ := stnRec h o.station
          let room := match rec_ with
            | some (_, r) => decide (0 < r.credit)
            | none => true
          if isGuest o.station && !room then h
          else match fetchFlit h o f with
            | (none, h) => h
            | (some (bs, bad), h) =>
              let bad := (bad ++ (hurt.map (· + f.off / 32)).filter fun s => decide (s * 32 < f.off + f.len)).eraseDups
              let o := (findOp h id).getD o
              if isGuest o.station then
                let h := match rec_ with
                  | some (_, r) => setCredit h r.number (r.credit - 1)
                  | none => h
                let n := ceilDiv f.len 32
                let h := putOp h { o with posA := o.posA + 1 }
                toStation h 5 (datLen n) .topRow o.station
                  ([id, f.row, f.off / 256, 2 ^ n - 1, f.input, b2n f.scale] ++ bad.map (· - f.off / 32)) (sliceB bs 0 (n * 32))
              else
                let o := (o.addBytes f.input f.row f.scale bs bad)
                let o := { o with posA := o.posA + 1 }
                if stnKind o.station = 5 && opReady x o then putOp h { o with bufs := outBufs (opCompute h x o), computed := true }
                else putOp h o

def execTopRow (opid tcErr memErr : Nat) (hurt : List Nat) (s : State) : Host.Outcome State Fault Refusal :=
  inData s true fun h => pushRow (flitErrors h opid tcErr memErr) opid hurt

/-! ### A station's output (R68, R118, R121) -/

/-- The output flits of a house station's operation: row, whether scales, first byte, length (R274). -/
def outFlits (o : TileOp) : List (Nat × Bool × Nat × Nat) :=
  (o.bufs.filter (·.input == 2)).flatMap fun b => (flitsOf b.bytes.length).map fun f => (b.row, b.scale, f.1, f.2)

/-- The sectors that `n` bytes from address `a` on touch: address, offset into the bytes, length. -/
def sectorParts (a n : Nat) : List (Nat × Nat × Nat) :=
  (sectorsOf a n).map fun s =>
    let lo := Nat.max a (s * 32)
    let hi := Nat.min (a + n) (s * 32 + 32)
    (lo, lo - a, hi - lo)

/-- The targets of some addresses for writing; none while a page is not translated. -/
def writeTargets (c who : Nat) : List Nat → Hub → Option (List VaTarget) × Hub
  | [], h => (some [], h)
  | a :: r, h =>
    let (t, h) := vaTarget h c a who
    let (ts, h) := writeTargets c who r h
    match t, ts with
    | .wait, _ => (none, h)
    | t, some ts => (some (t :: ts), h)
    | _, none => (none, h)

/-- Add to the writes an operation has outstanding. -/
def addAcks (h : Hub) (id n : Nat) : Hub := { h with ops := mapIf h.ops (fun o => o.opid == id) fun o => { o with acks := o.acks + n } }

/-- The number under which a house station marks the sector of byte `b` of an output row as poisoned: a crank and a transposing
derailleur count sectors of the output tile, the others those of the row they send. -/
def rowSector (x : Cmd) (o : TileOp) (b : Nat) : Nat :=
  (b + if stnKind o.station = 1 || (stnKind o.station = 3 && drlOp o.func = 2) then outOff x o else 0) / 32

/-- A house station's write of `bs` at `va`, inside one sector, also updates the sector where its own tile cache holds it (R214). -/
def tcOwn (h : Hub) (stn c va : Nat) (bs : List Byte) (bad : Bool) : Hub :=
  if !hasTc stn then h
  else { h with tc := mapIf h.tc (fun y => y.stn == stn && y.ctx == c && y.sec == va / 32) fun y =>
    { y with bytes := y.bytes.take (va % 32) ++ bs ++ y.bytes.drop (va % 32 + bs.length), bad := bad || (y.bad && bs.length != 32) } }

/-- Bytes of an output row go to memory, sector by sector; `bad` lists the poisoned sectors of the row. -/
def writeOut (h : Hub) (x : Cmd) (o : TileOp) (row : Nat) (scale : Bool) (off : Nat) (bs : List Byte) (bad : List Nat) : Option Hub × Hub :=
  let a := outAddr x o row scale off
  let ps := sectorParts a bs.length
  match writeTargets o.ctx o.station (ps.map (·.1)) h with
  | (none, h) => (none, h)
  | (some ts, h) =>
    let h := addAcks h o.opid ps.length
    (some (each (ps.zip ts) h fun h e =>
      let part := (bs.drop e.1.2.1).take e.1.2.2
      let spoilt := bad.contains (rowSector x o (off + e.1.2.1))
      let h := tcOwn h o.station o.ctx e.1.1 part spoilt
      match e.2 with
      | .hbm d => streamWrite h o.ctx d part spoilt (.op o.opid)
      | .host d => ackWrite (hostWrite h o.ctx d part) (.op o.opid) true
      | .wait => h), h)

/-- Bytes of an output row become contributions, one for each sector of the target (R121): elements of format `src` onto
elements of the output tile. -/
def contribute (h : Hub) (x : Cmd) (o : TileOp) (func row off : Nat) (bs : List Byte) (bad : List Nat) : Option Hub × Hub :=
  let src := (stageOut x o.stage).fmt
  let src := if stnKind o.station = 5 then (stageA x o.stage).fmt else src
  let dst := x.outTile.fmt
  let w := bytesOf src 1
  let v := bytesOf dst 1
  let a := (match x.out with | some t => t.rowAt (outPart x o.k o.stage).plane (outRow x o row) | none => 0)
    + ((outPart x o.k o.stage).col0 + off / w) * v
  let ps := sectorParts a (bs.length / w * v)
  match writeTargets o.ctx o.station (ps.map (·.1)) h with
  | (none, h) => (none, h)
  | (some ts, h) =>
    let h := addAcks h o.opid ps.length
    (some (each (ps.zip ts) h fun h e =>
      let part := (bs.drop (e.1.2.1 / v * w)).take (e.1.2.2 / v * w)
      let at_ := off + e.1.2.1 / v * w
      let isBad := bad.any fun s => decide (rowSector x o at_ ≤ s) && decide (s ≤ rowSector x o (at_ + part.length - 1))
      match e.2 with
      | .hbm d => redArrive h ⟨d, func, dst, src, part, isBad, .op o.opid, 0⟩
      | _ => ackWrite h (.op o.opid) false), h)

/-- One flit of output goes where its slot sends it: to the next station's input, to RED, or to the output tile; none while
the next operation is not issued or a page is not translated. -/
def sendOut (h : Hub) (x : Cmd) (o : TileOp) (row : Nat) (scale : Bool) (off : Nat) (bs : List Byte) (bad : List Nat) : Option Hub × Hub :=
  let sl := routeSlots x.route
  if lastSlot sl o.stage then
    let next := sl.getD (if stnKind o.station = 5 then o.stage else o.stage + 1) 0xFFFF
    if slotStn next = 0x40 then contribute h x o (slotFunc next) row off bs bad else writeOut h x o row scale off bs bad
  else match h.ops.find? fun y => y.ctx == o.ctx && y.slot == o.slot && y.count == o.count && y.k == o.k && y.stage == o.stage + 1 with
    | none => (none, h)
    | some y =>
      let s := sl.getD (o.stage + 1) 0
      let y := if slotSrcA s = 1 then y.addBytes 4 row scale bs bad else y
      let y := if slotSrcB s = 1 then y.addBytes 5 row scale bs bad else y
      (some (putOp h y), h)

/-- A house station sends its next output flit. -/
def houseOut (h : Hub) (id : Nat) : Hub :=
  match findOp h id with
  | none => h
  | some o =>
    match opCmd h o, (outFlits o)[o.outPos]? with
    | some x, some (row, scale, off, len) =>
      if !o.computed then h
      else
        let b := o.buf 2 row scale
        let bs := ((b.map (·.bytes)).getD []).drop off |>.take len
        match sendOut h x o row scale off bs ((b.map (·.bad)).getD []) with
        | (some h, _) => { h with ops := mapIf h.ops (fun y => y.opid == id) fun y => { y with outPos := y.outPos + 1 } }
        | (none, h) => h
    | _, _ => h

/-! ### Completion of operations, flushes and records (R53, R70, R241) -/

/-- A fast post: every operation of the command has returned OK (R241). -/
def fastPost (h : Hub) (x : Cmd) : Hub :=
  let mine := h.ops.filter fun o => o.ctx == x.ctx && o.slot == x.slot && o.count == x.count && o.range == 0
  if x.postBit 17 && x.postBit 19 && odOn h OD.syncFastPost && !x.fastPosted && x.status ≤ 1 && x.issued == x.total && x.step == 7
      && mine.all fun o => o.doneSt == some 0 then
    semPost (putCmd h { x with fastPosted := true }) (.cmd x.slot x.count) x.ctx x.postSem x.postValue (x.postBit 18)
  else h

/-- The operation's station is done, with status `st` and, where it is not 0, the detail for its command (R70, R71). -/
def opDone (h : Hub) (o : TileOp) (st detail : Nat) : Hub :=
  let o := { o with doneSt := some st, bad := if st = 0 then o.bad else 1, badDetail := if st = 0 || o.bad != 0 then o.badDetail else detail }
  let h := putOp h o
  match opCmd h o with
  | some x => fastPost h x
  | none => h

/-- A house station's TOP.DONE: it has computed and sent all its output. -/
def houseDone (h : Hub) (id : Nat) : Hub :=
  match findOp h id with
  | none => h
  | some o =>
    if o.range != 0 || !o.computed || o.doneSt.isSome || decide (o.outPos < (outFlits o).length) then h
    else opDone h o (if o.bad = 0 then 0 else 1) o.badDetail

/-- FLUSH_OUT ends (R53 step 9). -/
def flushDone (h : Hub) (c s : Nat) : Hub :=
  match (cmdsOf h c s).find? fun x => x.issued != 0 && (x.step == 8 || x.step == 9) with
  | none => h
  | some x =>
    match x.rangeOp with
    | none => opsDone h x
    | some id =>
      let h := houseRange h id x.out.toList
      if (findOp h id).any fun o => !o.waitFor.isEmpty then h
      else conclude { h with ops := dropIf h.ops fun o => o.opid == id } { x with rangeOp := none }

def execCmdFlushDone (ctx slot : Nat) (s : State) : Host.Outcome State Fault Refusal :=
  inData s (isQueue ctx slot) fun h => flushDone h ctx slot

/-- The record's home acknowledged it: the post and the MSI-X message follow, or, of a record that did not take effect, do
not (R53). -/
def recordAcked (h : Hub) (c s n : Nat) : Hub :=
  match findCmd h c s n with
  | none => h
  | some x => if x.recAck = 1 then postCmd h x else if x.recAck = 2 then dropCmd h x else h

def execCplRecordAck (ctx slot count : Nat) (s : State) : Host.Outcome State Fault Refusal :=
  inData s (isQueue ctx slot) fun h => recordAcked h ctx slot count

/-! ### Doorbells (R56, R57) -/

/-- The context behind page `j` of a function's BAR2: of the PF, context j; of a VF, the one in its slot j (R418). -/
def pageCtx (h : Hub) (fn j : Nat) : Option Nat := if fn = 0 then (if j < 8192 then some j else none) else tget (func h fn).slots j

/-- The halt of an overrun (R57). -/
def overrun (h : Hub) (c s : Nat) : Hub :=
  let h := bareRecord (haltQueue h c s 2) c s 0 2 0x0C
  if odOn h OD.descErrKill then later h (.kill c 5) else h

/-- SQ_TAIL is written. -/
def sqTail (h : Hub) (c s v : Nat) : Hub :=
  let q := qrec h c s
  let d := (v + 2 ^ 32 - q.sqTail) % 2 ^ 32
  if d = 0 then h
  else if 2 ^ 31 ≤ d then sevt h E.ctxSevtDbStale c s
  else
    let h1 := setQrec h c s { q with sqTail := v }
    if 2 ^ fld h F.ctxQcfgSqLog2 (qkey c s) < (v + 2 ^ 32 - qHead h c s) % 2 ^ 32 then
      if qState h c s = 2 then sevt h1 E.ctxSevtDbStale c s else overrun h1 c s
    else h1

/-- CQ_HEAD is written: records that waited for room follow, and the queue goes on. -/
def cqHead (h : Hub) (c s v : Nat) : Hub :=
  let q := qrec h c s
  let d := (v + 2 ^ 32 - q.cqHead) % 2 ^ 32
  if d = 0 then h
  else if 2 ^ 31 ≤ d || (q.written + 2 ^ 32 - q.cqHead) % 2 ^ 32 < d then sevt h E.ctxSevtDbStale c s
  else runQueue (flushRecords (setQrec h c s { q with cqHead := v }) c s) c s

/-- A doorbell write: `sq` and `cq` are the counts it covers (R56). Dropped while the data half is down (R20, R509), for a killed
context (R359), and from the PF for a context of a VF (R419). -/
def doorbell (h : Hub) (fn j s : Nat) (sq cq : Option Nat) : Hub :=
  match pageCtx h fn j with
  | none => h
  | some c =>
    if !serving h then h
    else if h.pwr.state = 2 then
      wantWake { h with pwr := { h.pwr with held := h.pwr.held ++ [.doorbell fn j s sq cq] } } 1
    else
    let h := coastExit h
    if qState h c s = 0 || qState h c s = 3 || wasKilled h c || (fn = 0 && ctxFunc h c != 0) then sevt h E.ctxSevtDbDropped c s
    else
      let h := match sq with
        | some v => sqTail h c s (v % 2 ^ 32)
        | none => h
      match cq with
      | some v => cqHead h c s (v % 2 ^ 32)
      | none => h

def execDoorbellWrite (fn page slot : Nat) (sq cq : Option Nat) (s : State) : Host.Outcome State Fault Refusal :=
  actUnit (decide (fn < 64) && decide (page < 8192) && decide (slot < 64)) s fun h => if memOpen h fn then doorbell h fn page slot sq cq else h

/-! ### Queue and route registers (R48, R62) -/

def queueRefused (h : Hub) (c s : Nat) : Hub := sevt h E.ctxSevtCfgRefused c s

/-- The slot selected by CTX.QSEL. -/
def qsel (h : Hub) (c : Nat) : Nat := fld h F.ctxQselSlot c

/-- A write of QSQ_BASE (0), QCQ_BASE (1) or QCFG (2): dropped whole while the slot is not FREE. -/
def queueCfg (h : Hub) (c which v : Nat) : Hub :=
  let s := qsel h c
  let r : Reg := if which = 0 then .ctxQsqBase else if which = 1 then .ctxQcqBase else .ctxQcfg
  if qState h c s != 0 then queueRefused h c s else setReg h r (qkey c s) (v &&& r.info.rw)

def execQueueCfgWrite (ctx which value : Nat) (s : State) : Host.Outcome State Fault Refusal :=
  dataReg s (decide (ctx < 8192) && decide (which < 3)) fun h => queueCfg h ctx which value

/-- A free queue number; which one the hub takes is left free (log entry 25). -/
def pickQueue (h : Hub) : Option (Nat × Hub) :=
  if 262144 ≤ h.qnums.length then none
  else
    let (r, h) := drawFree h 18
    ((List.range (h.qnums.length + 1)).find? fun i => !h.qnums.contains ((r + i) % 262144)).map fun i => ((r + i) % 262144, h)

/-- CREATE. -/
def queueCreate (h : Hub) (c : Nat) : Hub :=
  let s := qsel h c
  let k := qkey c s
  let okLog (n : Nat) : Bool := decide (4 ≤ n) && decide (n ≤ 16)
  let ok := qState h c s == 0 && okLog (fld h F.ctxQcfgSqLog2 k) && okLog (fld h F.ctxQcfgCqLog2 k)
    && decide (fld h F.ctxQcfgVector k < vectors (ctxFunc h c)) && getReg h .ctxQsqBase k % 4096 == 0
    && getReg h .ctxQcqBase k % 4096 == 0 && ctxLive h c
  match (if ok then pickQueue h else none) with
  | none => queueRefused h c s
  | some (n, h) =>
    let h := { h with queues := tset h.queues k {}, qnums := n :: h.qnums }
    let h := setFld (setFld (setReg (setReg h .ctxQstat k 0) .ctxQpos k 0) F.ctxQstatState k 1) F.ctxQstatQnum k n
    countQnums h

def execQueueCreate (ctx : Nat) (s : State) : Host.Outcome State Fault Refusal :=
  dataReg s (decide (ctx < 8192)) fun h => queueCreate h ctx

/-- DESTROY. -/
def queueDestroy (h : Hub) (c : Nat) : Hub :=
  let q := qsel h c
  if qState h c q = 0 then queueRefused h c q else destroyQueue h c q

def execQueueDestroy (ctx : Nat) (s : State) : Host.Outcome State Fault Refusal :=
  dataReg s (decide (ctx < 8192)) fun h => queueDestroy h ctx

/-- A DRAINING queue whose issued commands have finished is FREE. -/
def execQueueDrained (ctx slot : Nat) (s : State) : Host.Outcome State Fault Refusal :=
  inData s (isQueue ctx slot) fun h => if qState h ctx slot = 3 && drainedQueue h ctx slot then freeQueue h ctx slot else h

/-- RESUME. Commands below RESUME_AT that never ran count as completed (log entry 26). -/
def queueResume (h : Hub) (c : Nat) : Hub :=
  let s := qsel h c
  let k := qkey c s
  let q := qrec h c s
  let at_ := fld h F.ctxQposResumeAt k
  let head := qHead h c s
  let d := (at_ + 2 ^ 32 - head) % 2 ^ 32
  if qState h c s != 2 || (q.sqTail + 2 ^ 32 - head) % 2 ^ 32 < d || !ctxLive h c then queueRefused h c s
  else
    let running := (cmdsOf h c s).map (·.count)
    let skipped := ((List.range d).map fun i => (head + i) % 2 ^ 32).filter fun n => !running.contains n && !q.doneSet.contains n
    let keep := q.doneSet.filter fun n => (n + 2 ^ 32 - head) % 2 ^ 32 < d
    let h := setQrec h c s { q with nextRd := at_, doneSet := keep ++ skipped, ended := none }
    let h := setFld (advanceHead (keep.length + skipped.length + 1) h c s) F.ctxQstatState k 1
    if 2 ^ fld h F.ctxQcfgSqLog2 k < (q.sqTail + 2 ^ 32 - at_) % 2 ^ 32 then overrun h c s else h

def execQueueResume (ctx : Nat) (s : State) : Host.Outcome State Fault Refusal :=
  dataReg s (decide (ctx < 8192)) fun h => queueResume h ctx

/-- CTX.ROUTE_WIN, by the PF: dropped where the window reaches past the table. -/
def routeWin (h : Hub) (c base count : Nat) : Hub :=
  if 65536 < base + count then h else setFld (setFld h F.ctxRouteWinBase c base) F.ctxRouteWinCount c count

def execRouteWinWrite (ctx base count : Nat) (s : State) : Host.Outcome State Fault Refusal :=
  dataReg s (decide (ctx < 8192) && decide (base < 65536) && decide (count < 131072)) fun h => routeWin h ctx base count

def routeRes (h : Hub) (c r : Nat) : Hub :=
  let h := setFld h F.ctxRouteCtlResult c r
  if r = 0 then h else sevt h E.ctxSevtRouteRefused c (qsel h c)

/-- The slot images of a context. -/
def slotImages (h : Hub) (c : Nat) : List Nat := (List.range 8).map fun i => getReg h .ctxRouteSlot0 (c * 8 + i)

/-- ROUTE_CTL.WRITE (R48). -/
def routeWrite (h : Hub) (c : Nat) : Hub :=
  let i := fld h F.ctxRouteSelIndex c
  let sl := slotImages h c
  let r := if i < fld h F.ctxRouteWinCount c then routeResult h c sl else 1
  let h := routeRes h c r
  if r = 0 then { h with routes := tset h.routes (fld h F.ctxRouteWinBase c + i) sl } else h

def execRouteWrite (ctx : Nat) (s : State) : Host.Outcome State Fault Refusal :=
  dataReg s (decide (ctx < 8192)) fun h => routeWrite h ctx

/-- ROUTE_CTL.READ: an entry that was never written reads as empty, 0xFFFF in slot 0. -/
def routeRead (h : Hub) (c : Nat) : Hub :=
  match routeEntry h c (fld h F.ctxRouteSelIndex c) with
  | none => routeRes h c 1
  | some sl => routeRes (each (List.range 8) h fun h i => setReg h .ctxRouteSlot0 (c * 8 + i) (sl.getD i 0)) c 0

def execRouteRead (ctx : Nat) (s : State) : Host.Outcome State Fault Refusal :=
  dataReg s (decide (ctx < 8192)) fun h => routeRead h ctx

end Sys2Proof.Machine
end

