-- ==== Sys2Proof/Machine/House.lean ====
section
/-!
DEFINITION. Machine/House.lean: what the house stations do with an operation whose inputs are in their stores: cranks (R92,
R98), vector stations (R108), derailleurs (R115 to R119), cassettes (R133 to R141), decoders (R148) and reduction adders
(R121), and what befalls their stores, their control state and their self-tests (R98 to R100, R106, R143).
-/
namespace Sys2Proof.Machine

/-! ### Events of a house station -/

/-- Raise the event of a station's kind: one of the crank's, the vector station's, the derailleur's, the cassette's. -/
def stnEvt (h : Hub) (stn : Nat) (c v d s : Evt) : Hub :=
  match houseEnd stn with
  | some (1, n) => raise h c n
  | some (2, n) => raise h v n
  | some (3, n) => raise h d n
  | some (_, n) => raise h s n
  | none => h

/-- A counter of cycles runs on by an amount the model leaves free. -/
def addFree (h : Hub) (f : Fld) (i : Nat) : Hub :=
  let (x, h) := drawFree h 32
  addFld h f i x

/-- Output sectors of an operation that carry poison. -/
def outBad (o : TileOp) : Bool := o.bufs.any fun b => b.input == 2 && !b.bad.isEmpty

/-- The operation's station has computed: its output rows stand in place of the rows it held; those of a derailleur (its
indices) and of a cassette (its records, R140) stay. Poisoned output ends it POISONED with the station's number (R98). -/
def computedOp (h : Hub) (o : TileOp) (c : Computed) : Hub :=
  let keep := if stnKind o.station = 3 || stnKind o.station = 4 then o.bufs.filter fun b => b.input == 1 || b.input == 0 else []
  let o := { o with bufs := keep ++ outBufs c, computed := true }
  let h := putOp { h with freeN := h.freeN + 1 } (if outBad o then { o with bad := 1, badDetail := o.station } else o)
  if outBad o then stnEvt h o.station E.crankPoisonOut E.vecPoisonOut E.drlPoisonOut E.casPoisonOut else h

/-- The operation is at a station of kind `k` that works, has its inputs, and has not been computed. -/
def runsAt (h : Hub) (k : Nat) (x : Cmd) (o : TileOp) : Bool :=
  stnKind o.station == k && !o.computed && !o.dead && o.range == 0 && opReady x o && stnState h o.station != 3

/-- Carry out `f` on an operation that stands ready at a station of kind `k`. -/
def atHouse (h : Hub) (k id : Nat) (f : Hub → Cmd → TileOp → Nat → Hub) : Hub :=
  match findOp h id with
  | none => h
  | some o => match opCmd h o, houseEnd o.station with
    | some x, some (_, n) => if runsAt h k x o then f h x o n else h
    | _, _ => h

/-! ### Cranks -/

/-- C = A · W (R92): the shape taken, the MACs, and what happened on the way. -/
def crankRun (h : Hub) (id : Nat) : Hub :=
  atHouse h 1 id fun h x o n =>
    let c := opCompute h x o
    let h := computedOp h o c
    let h := raiseN (raiseN (raiseN h E.crankFpOvf n c.ovf) E.crankIntSat n c.sat) E.crankShapeDemoted n c.note
    let h := addFld (setFld h F.crankStatusShape n (c.num % 8)) F.crankMacsMacs n (c.num / 8)
    addFree (addFree (addFree h F.crankBusyCycBusy n) F.crankLoadStallLoad n) F.crankInStallIn n

def execCrankMatmul (opid : Nat) (s : State) : Host.Outcome State Fault Refusal := inData s true fun h => crankRun h opid

/-- Mark sector `sec` of a row the operation holds as poisoned. -/
def spoilBuf (o : TileOp) (input row : Nat) (scale : Bool) (sec : Nat) : TileOp :=
  { o with bufs := mapIf o.bufs (fun b => b.input == input && b.row == row && b.scale == scale) fun b => { b with bad := sec :: b.bad } }

/-- A second parity error on the weight set of columns `band` poisons the band (R98): its weight rows count as poisoned. -/
def spoilBand (x : Cmd) (o : TileOp) (band : Nat) : TileOp :=
  let c := crankFunc o.func
  let n := (outPart x o.k o.stage).cols
  let cols := shapeCols (pickShape c.shape o.autoMax (heldRows x o 0).length n).1
  if c.wt then spoilBuf o 1 0 false (bytesOf (stageB x o.stage).fmt (band * cols) / 32) else spoilBuf o 1 (band * cols) false 0

/-- A parity error in the weight registers (R98): counted; the set is loaded again once, and a second error poisons its band. -/
def wregParity (h : Hub) (id band : Nat) (second : Bool) : Hub :=
  match findOp h id with
  | none => h
  | some o => match opCmd h o, houseEnd o.station with
    | some x, some (1, n) =>
      let h := raise h E.crankWregParity n
      if second && !o.computed then putOp h (spoilBand x o band) else h
    | _, _ => h

def execCrankWregParity (opid band : Nat) (second : Bool) (s : State) : Host.Outcome State Fault Refusal :=
  inData s true fun h => wregParity h opid band second

/-- The station number of a station with a store of R98: crank, vector station, derailleur or cassette. -/
def isStore (stn : Nat) : Bool := (houseEnd stn).isSome

/-- An error in a station's store (R98, R106, R143): a corrected one is counted; an uncorrectable one poisons what depends on
the damaged entry, a sector of an input or of an output row of operation `id`. -/
def storeEcc (h : Hub) (stn id input row sec : Nat) (scale uncorr : Bool) : Hub :=
  if stnState h stn = 0 then h
  else if !uncorr then stnEvt h stn E.crankEccCorr E.vecEccCorr E.drlEccCorr E.casEccCorr
  else
    let h := stnEvt h stn E.crankEccUncorr E.vecEccUncorr E.drlEccUncorr E.casEccUncorr
    match findOp h id with
    | none => h
    | some o =>
      if o.station != stn then h
      else
        let p := spoilBuf o input row scale sec
        if outBad p && !outBad o then
          stnEvt (putOp h { p with bad := 1, badDetail := stn }) stn E.crankPoisonOut E.vecPoisonOut E.drlPoisonOut E.casPoisonOut
        else putOp h p

def execCrankStoreEcc (stn opid input row sector : Nat) (scale uncorr : Bool) (s : State) : Host.Outcome State Fault Refusal :=
  inData s (isStore stn) fun h => storeEcc h stn opid input row sector scale uncorr

/-- Crank `n` exists on the die. -/
def isCrank (n : Nat) : Bool := decide (n < 8)

def execCrankControlUe (n : Nat) (s : State) : Host.Outcome State Fault Refusal :=
  inData s (isCrank n) fun h => later h (.lost n)

/-- An operation with all its inputs at station `stn` that has made no progress, which the timeout of R99 is about. -/
def stalled (h : Hub) (stn : Nat) : Bool := h.ops.any fun o => o.station == stn && o.range == 0 && !o.computed && !o.dead

def stallTimeout (h : Hub) (stn : Nat) : Hub := if stalled h stn then later h (.lost stn) else h

def execCrankStallTimeout (n : Nat) (s : State) : Host.Outcome State Fault Refusal :=
  inData s (isCrank n) fun h => stallTimeout h n

/-! ### Self-tests (R100, R106, R143) -/

/-- The SELFTEST bit and the BIST field of a station. -/
def selftestFld (k : Nat) : Fld × Fld :=
  match k with
  | 1 => (F.crankCtlSelftest, F.crankStatusBist)
  | 2 => (F.vecCtlSelftest, F.vecStatusBist)
  | 3 => (F.drlCtlSelftest, F.drlStatusBist)
  | _ => (F.casCtlSelftest, F.casStatusBist)

/-- A write of SELFTEST: the test starts where the station is LOST, or idle and disabled; else BIST reads 3. -/
def selftest (h : Hub) (stn : Nat) : Hub :=
  match houseEnd stn with
  | none => h
  | some (k, n) =>
    let idle := stnState h stn == 1 && !(h.ops.any fun o => o.station == stn && o.range == 0)
    let off := !bitOf (odNum h OD.houseStations) (houseBit stn)
    if stnState h stn = 0 then h
    else if stnState h stn = 3 || (idle && off) then setFld h (selftestFld k).1 n 1
    else setFld h (selftestFld k).2 n 3

/-- A cassette reads its slot records again from the slot areas of its bound pools (R143). -/
def reloadSlots (h : Hub) (cas : Nat) : Hub :=
  let h := { h with casSlots := dropIf h.casSlots fun e => e.1 / 512 == cas }
  let h := each (h.pools.filter fun e => e.1 / 32 == cas && e.2.next.isNone) h fun h e =>
    let p := e.2
    each (List.range p.slots) h fun h i =>
      if poolRead h p (64 * i + 12) 1 % 2 = 1 then
        let r : CasSlot := ⟨poolRead h p (64 * i) 4, poolRead h p (64 * i + 4) 4, poolRead h p (64 * i + 8) 4⟩
        { h with casSlots := tset h.casSlots (casKey cas (p.slot0 + i)) r }
      else h
  setFld h F.casStatusOpenSlots cas (h.casSlots.filter fun e => e.1 / 512 == cas).length

/-- The self-test of a station ends: a LOST one that passed is IDLE again; one that failed is LOST (R99). -/
def selftestDone (h : Hub) (stn : Nat) (pass : Bool) : Hub :=
  match houseEnd stn with
  | none => h
  | some (k, n) =>
    if !flag h (selftestFld k).1 n then h
    else
      let h := setFld (setFld h (selftestFld k).1 n 0) (selftestFld k).2 n (if pass then 1 else 2)
      if !pass then later h (.lost stn)
      else if stnState h stn != 3 then h
      else match k with
        | 1 => setFld h F.crankStatusState n 1
        | 2 => setFld h F.vecStatusState n 1
        | 3 => setFld h F.drlStatusState n 1
        | _ => reloadSlots (setFld h F.casStatusState n 1) n

/-- A vector station or derailleur by its station number. -/
def isVdr (stn : Nat) : Bool := stnKind stn == 2 || stnKind stn == 3

def execCrankSelftest (n : Nat) (s : State) : Host.Outcome State Fault Refusal := dataReg s (isCrank n) fun h => selftest h n
def execCrankSelftestDone (n : Nat) (pass : Bool) (s : State) : Host.Outcome State Fault Refusal :=
  inData s (isCrank n) fun h => selftestDone h n pass
def execVecSelftest (n : Nat) (s : State) : Host.Outcome State Fault Refusal :=
  dataReg s (decide (n < 8)) fun h => selftest h (0x10 + n)
def execDrlSelftest (n : Nat) (s : State) : Host.Outcome State Fault Refusal :=
  dataReg s (decide (n < 4)) fun h => selftest h (0x20 + n)
def execVdrSelftestDone (stn : Nat) (pass : Bool) (s : State) : Host.Outcome State Fault Refusal :=
  inData s (isVdr stn) fun h => selftestDone h stn pass
def execVdrStallTimeout (stn : Nat) (s : State) : Host.Outcome State Fault Refusal :=
  inData s (isVdr stn) fun h => stallTimeout h stn
def execVdrControlUe (stn : Nat) (s : State) : Host.Outcome State Fault Refusal :=
  inData s (isVdr stn) fun h => later h (.lost stn)
def execCasSelftest (n : Nat) (s : State) : Host.Outcome State Fault Refusal :=
  dataReg s (decide (n < 2)) fun h => selftest h (0x30 + n)
def execCasSelftestDone (n : Nat) (pass : Bool) (s : State) : Host.Outcome State Fault Refusal :=
  inData s (decide (n < 2)) fun h => selftestDone h (0x30 + n) pass
def execCasStallTimeout (n : Nat) (s : State) : Host.Outcome State Fault Refusal :=
  inData s (decide (n < 2)) fun h => stallTimeout h (0x30 + n)
def execCasControlUe (n : Nat) (s : State) : Host.Outcome State Fault Refusal :=
  inData s (decide (n < 2)) fun h => later h (.lost (0x30 + n))

/-! ### Vector stations -/

/-- A vector operation of code `op` (R108). -/
def vecRun (h : Hub) (op id : Nat) : Hub :=
  atHouse h 2 id fun h x o n =>
    if vecOp o.func != op then h
    else
      let c := opCompute h x o
      let h := raiseN (computedOp h o c) E.vecFpOvf n c.ovf
      addFree (addFld h F.vecRowsRows n c.num) F.vecBusyCycBusy n

def execVecAdd (opid : Nat) (s : State) : Host.Outcome State Fault Refusal := inData s true fun h => vecRun h 0x01 opid
def execVecSub (opid : Nat) (s : State) : Host.Outcome State Fault Refusal := inData s true fun h => vecRun h 0x02 opid
def execVecMul (opid : Nat) (s : State) : Host.Outcome State Fault Refusal := inData s true fun h => vecRun h 0x03 opid
def execVecMax (opid : Nat) (s : State) : Host.Outcome State Fault Refusal := inData s true fun h => vecRun h 0x04 opid
def execVecMin (opid : Nat) (s : State) : Host.Outcome State Fault Refusal := inData s true fun h => vecRun h 0x05 opid
def execVecScale (opid : Nat) (s : State) : Host.Outcome State Fault Refusal := inData s true fun h => vecRun h 0x06 opid
def execVecCopy (opid : Nat) (s : State) : Host.Outcome State Fault Refusal := inData s true fun h => vecRun h 0x07 opid
def execVecExp (opid : Nat) (s : State) : Host.Outcome State Fault Refusal := inData s true fun h => vecRun h 0x10 opid
def execVecLog (opid : Nat) (s : State) : Host.Outcome State Fault Refusal := inData s true fun h => vecRun h 0x11 opid
def execVecRsqrt (opid : Nat) (s : State) : Host.Outcome State Fault Refusal := inData s true fun h => vecRun h 0x12 opid
def execVecRecip (opid : Nat) (s : State) : Host.Outcome State Fault Refusal := inData s true fun h => vecRun h 0x13 opid
def execVecTanh (opid : Nat) (s : State) : Host.Outcome State Fault Refusal := inData s true fun h => vecRun h 0x14 opid
def execVecSigmoid (opid : Nat) (s : State) : Host.Outcome State Fault Refusal := inData s true fun h => vecRun h 0x15 opid
def execVecSilu (opid : Nat) (s : State) : Host.Outcome State Fault Refusal := inData s true fun h => vecRun h 0x16 opid
def execVecSiluMul (opid : Nat) (s : State) : Host.Outcome State Fault Refusal := inData s true fun h => vecRun h 0x17 opid
def execVecGeluTanh (opid : Nat) (s : State) : Host.Outcome State Fault Refusal := inData s true fun h => vecRun h 0x18 opid
def execVecGeluErf (opid : Nat) (s : State) : Host.Outcome State Fault Refusal := inData s true fun h => vecRun h 0x19 opid
def execVecRelu (opid : Nat) (s : State) : Host.Outcome State Fault Refusal := inData s true fun h => vecRun h 0x1A opid
def execVecRmsnorm (opid : Nat) (s : State) : Host.Outcome State Fault Refusal := inData s true fun h => vecRun h 0x20 opid
def execVecLayernorm (opid : Nat) (s : State) : Host.Outcome State Fault Refusal := inData s true fun h => vecRun h 0x21 opid
def execVecRowSum (opid : Nat) (s : State) : Host.Outcome State Fault Refusal := inData s true fun h => vecRun h 0x30 opid
def execVecRowMax (opid : Nat) (s : State) : Host.Outcome State Fault Refusal := inData s true fun h => vecRun h 0x31 opid
def execVecRowMin (opid : Nat) (s : State) : Host.Outcome State Fault Refusal := inData s true fun h => vecRun h 0x32 opid
def execVecRowSumsq (opid : Nat) (s : State) : Host.Outcome State Fault Refusal := inData s true fun h => vecRun h 0x33 opid
def execVecSoftmax (opid : Nat) (s : State) : Host.Outcome State Fault Refusal := inData s true fun h => vecRun h 0x40 opid
def execVecSmState (opid : Nat) (s : State) : Host.Outcome State Fault Refusal := inData s true fun h => vecRun h 0x41 opid
def execVecSmExp (opid : Nat) (s : State) : Host.Outcome State Fault Refusal := inData s true fun h => vecRun h 0x42 opid
def execVecSmRescale (opid : Nat) (s : State) : Host.Outcome State Fault Refusal := inData s true fun h => vecRun h 0x43 opid
def execVecSmFinal (opid : Nat) (s : State) : Host.Outcome State Fault Refusal := inData s true fun h => vecRun h 0x44 opid

/-! ### Derailleurs -/

/-- Bytes of some rows, scales included. -/
def rowsBytes (rs : List RowData) : Nat := (rs.map fun r => r.bytes.length + r.scales.length).sum

/-- A derailleur operation of code `op` (R115 to R119): its bytes are counted on the larger side. -/
def drlRun (h : Hub) (op id : Nat) : Hub :=
  atHouse h 3 id fun h x o n =>
    if drlOp o.func != op then h
    else
      let c := opCompute h x o
      let h := computedOp h o c
      let h := raiseN (raiseN (raiseN h E.drlSatClip n c.ovf) E.drlNonfinite n c.sat) E.drlIdxRange n c.note
      addFld h F.drlBytesBytes n (Nat.max (rowsBytes (heldRows x o 0) + rowsBytes (heldRows x o 1)) (rowsBytes c.rows))

def execDrlConvert (opid : Nat) (s : State) : Host.Outcome State Fault Refusal := inData s true fun h => drlRun h 1 opid
def execDrlTranspose (opid : Nat) (s : State) : Host.Outcome State Fault Refusal := inData s true fun h => drlRun h 2 opid
def execDrlGather (opid : Nat) (s : State) : Host.Outcome State Fault Refusal := inData s true fun h => drlRun h 3 opid
def execDrlScatter (opid : Nat) (s : State) : Host.Outcome State Fault Refusal := inData s true fun h => drlRun h 4 opid
def execDrlPackKpw (opid : Nat) (s : State) : Host.Outcome State Fault Refusal := inData s true fun h => drlRun h 5 opid

/-! ### Cassettes -/

/-- The slots (of the cassette) that an operation's records name. -/
def recordSlots (h : Hub) (x : Cmd) (o : TileOp) : List Nat :=
  match tget h.pools ((o.station - 0x30) * 32 + bitsOf o.func 8 4) with
  | none => []
  | some p => if o.func % 16 = 1 then [] else
      (heldRows x o 0).filterMap fun r =>
        let q := casReq r.bytes
        if q.slot < p.slots then some (p.slot0 + q.slot) else none

/-- An operation that reached the cassette earlier touches one of its slots: not computed yet, or a gather whose rows are not
all acknowledged (R140). -/
def slotHeld (h : Hub) (x : Cmd) (o : TileOp) : Bool :=
  let mine := recordSlots h x o
  (h.ops.takeWhile fun y => y.opid != o.opid).any fun y =>
    y.station == o.station && y.range == 0 && !y.dead && (!y.computed || 7 ≤ y.func % 16 && !(7 ≤ o.func % 16)) && match opCmd h y with
      | some z => (recordSlots h z y).any fun s => mine.contains s
      | none => false

/-- A pool that an invalidation broke ends the command TRANSLATION_FAULT and kills the context (R141). -/
def brokenPool (h : Hub) (x : Cmd) : Hub := later (endCmd h x 3 0) (.kill x.ctx 1)

/-- A gather (R138): its records are checked whole, then its rows are read. A row whose list entry fails R141 is poisoned. A
gather with a poisoned record gives poisoned rows only (DEDUCED from R98, log entry 27). -/
def casGather (h : Hub) (x : Cmd) (o : TileOp) (cas : Nat) (p : Pool) (v : Bool) : Hub :=
  let rs := heldRows x o 0
  let qs := rs.map fun r => casReq r.bytes
  let n := (stageOut x o.stage).rows
  let lost : RowData := { bytes := List.replicate p.rowBytes 0, bad := List.range (p.rowBytes / 32) }
  if rs.any RowData.poisoned then computedOp h o { rows := List.replicate n lost }
  else if !(qs.all (gatherOk h cas p)) || (qs.map (gatherRows h cas p)).sum != n then endCmd h x 2 0x0A
  else
    let got := qs.flatMap (gatherRecord h cas p v)
    let h := raiseN h E.casListBad cas (got.countP Option.isNone)
    let h := addFld h F.casBytesBytes cas (n * p.rowBytes)
    computedOp h o { rows := got.map fun r => r.getD lost }

/-- A cassette operation of code `op` (R133 to R141). -/
def casRun (h : Hub) (op id : Nat) : Hub :=
  atHouse h 4 id fun h x o cas =>
    let k := cas * 32 + bitsOf o.func 8 4
    if o.func % 16 != op || slotHeld h x o then h
    else match poolOf h k with
      | none => endCmd h x 2 0x0A
      | some p =>
        if fld h F.casPoolStatState k = 2 then brokenPool h x
        else if op = 7 then casGather h x o cas p false
        else if op = 8 then casGather h x o cas p true
        else
          let (rows, h) := casRecords cas k op p (heldRows x o 1) (heldRows x o 0) h
          computedOp h o { rows := rows }

def execCasOpen (opid : Nat) (s : State) : Host.Outcome State Fault Refusal := inData s true fun h => casRun h 1 opid
def execCasFork (opid : Nat) (s : State) : Host.Outcome State Fault Refusal := inData s true fun h => casRun h 2 opid
def execCasAppend (opid : Nat) (s : State) : Host.Outcome State Fault Refusal := inData s true fun h => casRun h 3 opid
def execCasAdvance (opid : Nat) (s : State) : Host.Outcome State Fault Refusal := inData s true fun h => casRun h 4 opid
def execCasTrim (opid : Nat) (s : State) : Host.Outcome State Fault Refusal := inData s true fun h => casRun h 5 opid
def execCasClose (opid : Nat) (s : State) : Host.Outcome State Fault Refusal := inData s true fun h => casRun h 6 opid
def execCasGatherK (opid : Nat) (s : State) : Host.Outcome State Fault Refusal := inData s true fun h => casRun h 7 opid
def execCasGatherV (opid : Nat) (s : State) : Host.Outcome State Fault Refusal := inData s true fun h => casRun h 8 opid

/-- POOL_CTL acts on the pool that POOL_SEL names. -/
def poolSel (h : Hub) (cas : Nat) : Nat := cas * 32 + fld h F.casPoolSelPool cas

def execCasPoolBind (cas : Nat) (s : State) : Host.Outcome State Fault Refusal :=
  dataReg s (decide (cas < 2)) fun h => casBind h (poolSel h cas)
def execCasPoolUnbind (cas : Nat) (s : State) : Host.Outcome State Fault Refusal :=
  dataReg s (decide (cas < 2)) fun h => casUnbind h (poolSel h cas)

/-! ### Decoders (R148, R149) -/

/-- The rows of an input that page `va` holds: (row of the operation, row of the page). -/
def pageRows (x : Cmd) (o : TileOp) (input va : Nat) : List (Nat × Nat) :=
  (inRowsOf x o input).zipIdx.filterMap fun r => match r.1 with
    | .page a i => if a = va then some (r.2, i) else none
    | _ => none

/-- Rows of a page as an input's delivery: decoded ones, or, where the page is lost, rows wholly poisoned. -/
def pageBufs (input e f : Nat) (rows : Option (List RowData)) (want : List (Nat × Nat)) : List RowBuf :=
  let lost : RowData := { bytes := List.replicate (bytesOf f e) 0, scales := List.replicate (e / 32) 0 }
  want.flatMap fun w =>
    let r := match rows with
      | some rs => rs.getD w.2 lost.spoil
      | none => lost.spoil
    [⟨4 + input, w.1, false, r.bytes, r.bad⟩, ⟨4 + input, w.1, true, r.scales, r.sbad⟩]

/-- Deliver a decoded, or lost, page to its operation. -/
def pageDone (h : Hub) (o : TileOp) (input e f port used : Nat) (rows : Option (List RowData)) (want : List (Nat × Nat)) : Hub :=
  let bufs := pageBufs input e f rows want
  let h := addFld (addFld h F.decPagesPages port 1) F.decInBytesIn port used
  let h := addFld h F.decOutBytesOut port ((bufs.map fun b => b.bytes.length).sum)
  let o := (findOp h o.opid).getD o
  putOp h { o with bufs := o.bufs ++ bufs
                   bad := if rows.isNone then 1 else o.bad, badDetail := if rows.isNone && o.bad = 0 then 0x41 else o.badDetail }

/-- Decode the page at `va` for input `input` of an operation: header, used sectors, rows (R144 to R149). A later page whose
format, row length or, but for the last page, row count differs from the first's is delivered as poisoned rows (R80, R147). -/
def decodePage (h : Hub) (id input va : Nat) (codeErr : Bool) : Hub :=
  match findOp h id with
  | none => h
  | some o => match opCmd h o with
    | none => h
    | some x =>
      let want := pageRows x o input va
      let tile := x.source (if input = 0 then slotSrcA (x.route.getD o.stage 0) else slotSrcB (x.route.getD o.stage 0))
      match tile, want with
      | some (t, some (f, e, q, _)), w :: _ =>
        if o.dead || (o.buf (4 + input) w.1 false).isSome then h
        else match vaRead h x.ctx va 64 o.station with
          | (none, h) => h
          | (some (hb, hbad), h1) =>
            let h := { h1 with hostHave := h.hostHave }
            let port := match atcFind h x.ctx va false with
              | some a => portOf h (a.target va)
              | none => 0
            let used := match kpwHeader hb with
              | some k => k.used
              | none => 64
            match vaRead h x.ctx va used o.station with
            | (none, h) => h
            | (some (bs, bad), h) =>
              let last := va == t.rowAt 0 (t.rowCount - 1)
              if !bad.isEmpty || !hbad.isEmpty || codeErr then pageDone (raise h E.decPoisonIn port) o input e f port used none want
              else match kpwHeader hb, kpwDecode (sliceB bs 0 65536) with
                | none, _ => pageDone (raise h E.decHdrBad port) o input e f port used none want
                | _, .inl 0 => pageDone (raise h E.decHdrBad port) o input e f port used none want
                | _, .inl _ => pageDone (raise h E.decStreamBad port) o input e f port used none want
                | some k, .inr rows =>
                  if k.fmt != f || k.elems != e || (k.rows != q && !last) then pageDone h o input e f port used none want
                  else pageDone h o input e f port used (some rows) want
      | _, _ => h

def execDecPageDecode (opid input va : Nat) (codeErr : Bool) (s : State) : Host.Outcome State Fault Refusal :=
  inData s (decide (input < 2)) fun h => decodePage h opid input va codeErr

/-! ### Reduction adders (R121 to R124) -/

/-- The contribution that is next at a sector: nothing that reached its home earlier is due there. -/
def nextRed (h : Hub) (sec : Nat) : Option RedItem :=
  match h.redQ.find? fun i => i.dpa / 32 == sec with
  | none => none
  | some i => if h.cohQ.any fun r => r.op == 5 && r.line == sec / 2 && decide (r.seq ≤ i.seq) then none else some i

/-- Apply a contribution as one read-modify-write. -/
def redApply (h : Hub) (i : RedItem) (codeErr : Bool) : Hub :=
  let p := portOf h i.dpa
  let sec := i.dpa / 32
  let h := addFree { h with redQ := h.redQ.erase i } F.redWaitCycWait p
  let h := if codeErr then raise h E.redCodeErr p else h
  if portFailed h p || sealed h i.dpa then
    let (_, h) := homeWrite h i.dpa [] false
    ackWrite h i.tag false
  else if (tget h.poison sec).isSome then ackWrite (raise h E.redPoisonHit p) i.tag false
  else if i.bad || codeErr then ackWrite (raise (setPoison h sec true) E.redPoisonHit p) i.tag false
  else
    let (bs, ovf, wrap) := redBytes i.func i.fmt i.src (h.hbm.readN i.dpa (i.data.length / bytesOf i.src 1 * bytesOf i.fmt 1)) i.data
    let (_, h) := homeWrite h i.dpa bs false
    let h := raiseN (raiseN h E.redFpOvf p ovf) E.redIntWrap p wrap
    ackWrite (addFld h F.redSectorsSectors p 1) i.tag true

/-- The adder takes the next contribution of a sector, which must be of operation `op`. The home first takes the line from every
agent; while that lasts the contribution waits (R122). -/
def redRun (h : Hub) (op dpa : Nat) (codeErr : Bool) : Hub :=
  match nextRed h (dpa / 32) with
  | none => h
  | some i =>
    let line := dpa / 64
    if i.func % 4 != op || lineBusy h line then h
    else
      let h := match dirFind h line with
        | some (_, e) => invalidateEntry h e
        | none => h
      if lineBusy h line || (dirFind h line).isSome then h else pumpAll (redApply h i codeErr)

def execRedAdd (dpa : Nat) (codeErr : Bool) (s : State) : Host.Outcome State Fault Refusal := inData s true fun h => redRun h 0 dpa codeErr
def execRedMin (dpa : Nat) (codeErr : Bool) (s : State) : Host.Outcome State Fault Refusal := inData s true fun h => redRun h 1 dpa codeErr
def execRedMax (dpa : Nat) (codeErr : Bool) (s : State) : Host.Outcome State Fault Refusal := inData s true fun h => redRun h 2 dpa codeErr

/-! ### Tile caches (R223) -/

/-- INVAL_ALL: nothing more is issued to the station until the drop has ended. -/
def tcInvalAll (h : Hub) (stn : Nat) : Hub :=
  let h := setFld h F.tcCtlInvalAll (stnRouter stn) 1
  if h.tcHold.contains stn then h else { h with tcHold := stn :: h.tcHold }

def execTcInvalAll (stn : Nat) (s : State) : Host.Outcome State Fault Refusal := dataReg s (hasTc stn) fun h => tcInvalAll h stn

/-- The drop ends, once the resident operations have finished. -/
def tcDropDone (h : Hub) (stn : Nat) : Hub :=
  if !h.tcHold.contains stn || h.ops.any fun o => o.station == stn || o.waitFor.contains stn then h
  else setFld { h with tc := dropIf h.tc fun x => x.stn == stn, tcHold := dropIf h.tcHold (· == stn) } F.tcCtlInvalAll (stnRouter stn) 0

def execTcDropDone (stn : Nat) (s : State) : Host.Outcome State Fault Refusal := inData s (hasTc stn) fun h => tcDropDone h stn

end Sys2Proof.Machine
end

