-- ==== Sys2Proof/Machine/GuestTop.lean ====
section
/-!
DEFINITION. Machine/GuestTop.lean: what stations return (R68 to R70, R274, R275, R308), and the streaming messages of pull
stations (R276, R314).
-/
namespace Sys2Proof.Machine

/-! ### TOP.OUT (R274) -/

/-- Bytes of a row of an operation's output, elements or scales. -/
def outRowBytes (x : Cmd) (o : TileOp) (scale : Bool) : Nat :=
  let w := stageOut x o.stage
  let cols := (outPart x o.k o.stage).cols
  if scale then (if isMx w.fmt then cols / 32 else 0) else bytesOf w.fmt cols

/-- A guest's operation that a message names, resident at a station of the guest on link `site`. -/
def guestOp (h : Hub) (site id : Nat) : Option TileOp :=
  h.ops.find? fun o => o.opid == id && o.range == 0 && isGuest o.station && stnLink o.station == site && o.doneSt.isNone

/-- The operation that a message of link `site` names, where it is one of the guest's own: a violation ends its command (R306). -/
def namedOp (h : Hub) (site id : Nat) : Option Nat :=
  if h.ops.any fun o => o.opid == id && isGuest o.station && anchorOf h (stnLink o.station) == anchorOf h site && o.doneSt.isNone && !o.dead
  then some id else none

/-- Try to pass on one sector of output that arrived from a guest (kept in the operation under input 0x100 + its number in the
row): to the next station in order, to RED or to memory. -/
def passHeld (h : Hub) (id : Nat) (b : RowBuf) : Hub :=
  match findOp h id with
  | none => h
  | some o => match opCmd h o with
    | none => h
    | some x =>
      let off := (b.input - 0x100) * 32
      let sl := routeSlots x.route
      let s := sl.getD (o.stage + 1) 0
      let due (y : TileOp) (i : Nat) : Bool := ((y.buf i b.row b.scale).map (·.bytes.length)).getD 0 == off
      let ready := lastSlot sl o.stage || h.ops.any fun y => y.ctx == o.ctx && y.slot == o.slot && y.count == o.count && y.k == o.k
        && y.stage == o.stage + 1 && (slotSrcA s != 1 || due y 4) && (slotSrcB s != 1 || due y 5)
      if !ready then h
      else match sendOut h x o b.row b.scale off b.bytes (b.bad.map fun _ => off / 32) with
        | (some h, _) => { h with ops := mapIf h.ops (fun y => y.opid == id) fun y => { y with bufs := y.bufs.erase b } }
        | (none, h) => h

/-- Pass on what can go, in row and sector order. -/
def drainHeld (h : Hub) (id : Nat) : Hub :=
  match findOp h id with
  | none => h
  | some o =>
    let bs := sortBy (fun (a b : RowBuf) => decide (a.row < b.row) || (a.row == b.row && decide (a.input ≤ b.input)))
      (o.bufs.filter fun b => decide (0x100 ≤ b.input))
    each bs h fun h b => passHeld h id b

/-- A violation of kind 7: it ends the command that owns the operation (R306). -/
def opViolation (h : Hub) (site n : Nat) (id : Option Nat) : Hub := violation h (anchorOf h site) 7 0 n false 0 none id

/-- An output flit of a guest (R274, R304 check 9). A killed operation's is discarded (R311). -/
def guestOut (h : Hub) (site id row flit smask : Nat) (scale : Bool) (data : List Byte) (bad : List Nat) (form : Nat) : Hub :=
  let a := anchorOf h site
  let fw := id == 0x3FFFE
  let ns := ((List.range 8).filter fun i => bitOf smask i).foldl (fun m i => Nat.max m (i + 1)) 1
  arrive h site 5 (datLen ns) form { fw := fw } false id_ fun h =>
    if fw then
      let g := guest h a
      let n := fwBlocks g.fwImage
      if g.step != 10 || site != a then opViolation h site 0 none
      else if flit != 0 || scale || decide (ceilDiv n 2048 ≤ row) then opViolation h site 0 none
      else
        let miss := (List.range 2048).filter fun i => bitOf (data.getD (i / 8) 0).toNat (i % 8) && decide (2048 * row + i < n)
        setGuest h a { g with fwMissing := g.fwMissing ++ miss.map (2048 * row + ·) }
    else match guestOp h site id with
      | none => opViolation h site 0 (namedOp h site id)
      | some o =>
        if o.dead then h
        else match opCmd h o with
          | none => h
          | some x =>
            let len := outRowBytes x o scale
            if o.pull || decide ((outPart x o.k o.stage).rows ≤ row) || decide (len ≤ flit * 256) then opViolation h site (o.station % 64) (some id)
            else
              let secs := (List.range 8).filter fun i => bitOf smask i && decide (flit * 256 + 32 * i < len)
              let held : List RowBuf := secs.map fun i =>
                ⟨0x100 + flit * 8 + i, row, scale, sliceB data (32 * i) (Nat.min 32 (len - flit * 256 - 32 * i)), if bad.contains i then [0] else []⟩
              drainHeld (putOp h { o with bufs := o.bufs ++ held }) id
where id_ (h : Hub) : Hub := h

/-- TOP_OUT: a house station's next output flit (also: output of a guest that waits for its translation goes on), or a guest's. -/
def execTopOut (house : Bool) (site opid row flit smask : Nat) (scale : Bool) (data : List Byte) (bad : List Nat) (form : Nat) (s : State) :
    Host.Outcome State Fault Refusal :=
  inData s (house || (isLink site && formOk form)) fun h =>
    if house then drainHeld (houseOut h opid) opid else guestOut h site opid row flit smask scale data bad form

/-! ### TOP.CREDIT (R69) -/

/-- Commands with an operation at the station end with FIREWALL (R69). -/
def firewallStn (h : Hub) (stn : Nat) : Hub :=
  each (h.ops.filter fun o => o.station == stn && !o.dead) h fun h o => match opCmd h o with
    | some x => endCmd h x 7 stn
    | none => h

/-- Input-window credits returned by station `n`; more than the hub has spent is a violation. -/
def guestCredit (h : Hub) (site n count form : Nat) : Hub :=
  arrive h site 3 1 form { stn := some n } false id_ fun h =>
    match stnRec h (stnNum site n) with
    | none => h
    | some (_, r) =>
      if r.window < r.credit + count then opViolation (firewallStn h r.number) site n none
      else setCredit h r.number (r.credit + count)
where id_ (h : Hub) : Hub := h

def execTopCredit (site stn count form : Nat) (s : State) : Host.Outcome State Fault Refusal :=
  inData s (isLink site && decide (stn < 64) && formOk form) fun h => guestCredit h site stn count form

/-! ### TOP.DONE (R70, R275, R308) -/

/-- The end of an acquire range (R244, R275). -/
def acqEnd (h : Hub) (site n : Nat) : Hub :=
  let stn := stnNum site n
  match h.acqWait.find? fun w => w.stn == stn && w.sent with
  | none => opViolation h site n none
  | some w => sendAcq (semResult { h with acqWait := h.acqWait.erase w } (.guest w.anchor w.txn stn) w.status (toSigned 64 w.count)) stn

/-- An operation's or range operation's end, with status 0 OK, 1 POISONED, 2 station error. -/
def guestDone (h : Hub) (site n id status form : Nat) : Hub :=
  let a := anchorOf h site
  let stn := stnNum site n
  if id = 0x3FFFE then
    arrive h site 3 1 form { fw := true } false id_ fun h =>
      if (guest h a).step = 10 && n == 0 && site == a then fwDone h a status else opViolation h site n none
  else arrive h site 3 1 form { stn := some n } false id_ fun h =>
    if id = 0x3FFFF then acqEnd h site n
    else match h.ops.find? fun o => o.opid == id && (if o.range = 0 then o.station == stn && o.doneSt.isNone else o.waitFor.contains stn) with
      | none => opViolation h site n (namedOp h site id)
      | some o =>
        if o.range != 0 then putOp h { o with waitFor := o.waitFor.erase stn }
        else if o.dead then putOp h { o with doneSt := some status }
        else opDone (if status = 2 then raise h E.siteStnErr a else h) o status stn
where id_ (h : Hub) : Hub := h

def execTopDone (house : Bool) (site stn opid status form : Nat) (s : State) : Host.Outcome State Fault Refusal :=
  inData s (house || (isLink site && decide (stn < 64) && decide (status < 3) && formOk form)) fun h =>
    if house then houseDone h opid else guestDone h site stn opid status form

/-! ### Streaming (R276) -/

/-- The sectors of a mask. -/
def maskSecs (m : Nat) : List Nat := (List.range 8).filter fun i => bitOf m i
/-- Sectors a DAT message carries for a mask: up to the last one present. -/
def maskLen (m : Nat) : Nat := (maskSecs m).foldl (fun a i => Nat.max a (i + 1)) 1

/-- A streaming read goes on: its data, then STR.CMP; it stays while a translation, a snoop or the host is due. -/
def strRead (h : Hub) (r : StrReq) : Hub :=
  match vaSectors r.ctx r.stn ((maskSecs r.smask).map fun i => r.va + 32 * i) h with
  | (none, h) => h
  | (some (bs, bad), h) =>
    let h := { h with strs := h.strs.erase r }
    let ns := maskLen r.smask
    let data := (List.range ns).flatMap fun i =>
      if bitOf r.smask i then sliceB bs (32 * ((maskSecs r.smask).filter (· < i)).length) 32 else List.replicate 32 0
    let h := if (maskSecs r.smask).isEmpty then h
      else toStation h 5 (datLen ns) .strRdata r.stn ([r.txn, r.stn % 64, r.smask] ++ bad.map fun a => (a - r.va) / 32) data
    strCmp h r.stn r.txn (b2n (!bad.isEmpty))

/-- A streaming write goes on once its data is here and its page is translated: one write per sector. -/
def strWrite (h : Hub) (r : StrReq) : Hub :=
  match r.data with
  | none => h
  | some (bs, bad) =>
    match vaTarget h r.ctx r.va r.stn with
    | (.wait, h) => h
    | (t, h) =>
      let secs := maskSecs r.smask
      let h := { h with strs := mapIf h.strs (· == r) fun r => { r with sent := true, left := secs.length } }
      each secs h fun h i =>
        let part := sliceB bs (32 * i) 32
        match t with
        | .hbm d => streamWrite h r.ctx (d + 32 * i) part (bitOf bad i) (.str r.stn r.txn)
        | .host d => ackWrite (hostWrite h r.ctx (d + 32 * i) part) (.str r.stn r.txn) true
        | .wait => h

/-- A streaming request of a station. -/
def strGo (h : Hub) (stn txn : Nat) (write : Bool) : Hub :=
  match h.strs.find? fun r => r.stn == stn && r.txn == txn && r.write == write && !r.sent with
  | none => h
  | some r => if write then strWrite h r else strRead h r

/-- What a streaming request asks of the permit. -/
def askStr (h : Hub) (a n c va smask : Nat) (write : Bool) : Ask :=
  let max := if write then fld h F.siteLimitsWrMax a else fld h F.siteLimitsRdMax a
  { cls := some (b2n write), stn := some n, ctx := some c, vas := (maskSecs smask).map fun i => va + 32 * i, rd := !write, wr := write,
    full := decide (max ≤ (h.strs.filter fun r => r.anchor == a && r.write == write).length) }

/-- STR.RD or STR.WR arrives. A refused write's data will be dropped when it comes. -/
def strReq (h : Hub) (site n txn c va smask : Nat) (write : Bool) (form : Nat) : Hub :=
  let a := anchorOf h site
  let stn := stnNum site n
  let form := if form = 2 then 1 else form
  arrive h site 0 2 form (askStr h a n c va smask write) false
    (fun h => strCmp (if write then setGuest h a { guest h a with dropW := (stn, txn) :: (guest h a).dropW } else h) stn txn 2)
    fun h => strGo { h with strs := h.strs ++ [{ anchor := a, stn := stn, txn := txn, ctx := c, write := write, va := va, smask := smask }] }
      stn txn write

def strOk (site n txn c va smask form : Nat) : Bool :=
  isLink site && decide (n < 64) && decide (txn < 1024) && decide (c < 8192) && decide (va < 2 ^ 57) && decide (va % 256 = 0) && decide (smask < 256)
    && formOk form

def execStrRd (site stn txn ctx va smask form : Nat) (s : State) : Host.Outcome State Fault Refusal :=
  inData s (strOk site stn txn ctx va smask form) fun h => strReq h site stn txn ctx va smask false form

def execStrWr (site stn txn ctx va smask form : Nat) (s : State) : Host.Outcome State Fault Refusal :=
  inData s (strOk site stn txn ctx va smask form) fun h => strReq h site stn txn ctx va smask true form

/-- STR.WDATA: `data` has 32 bytes for every sector up to the last of the mask; `bad` marks those poisoned or with a bad code. Data
without its request, or with another mask, is a protocol error. -/
def strData (h : Hub) (site n txn smask : Nat) (data : List Byte) (bad : Nat) (form : Nat) : Hub :=
  let a := anchorOf h site
  let stn := stnNum site n
  let g := guest h a
  let mine := h.strs.find? fun r => r.stn == stn && r.txn == txn && r.write && r.data.isNone
  let dropped := g.dropW.contains (stn, txn)
  let form := if form != 0 || (!dropped && (mine.map (·.smask)) != some smask) then 1 else 0
  arrive h site 5 (datLen (maskLen smask)) form { cls := some 1, stn := some n } false id_ fun h =>
    if dropped then setGuest h a { guest h a with dropW := (guest h a).dropW.erase (stn, txn) }
    else match mine with
      | none => h
      | some r => strGo { h with strs := mapIf h.strs (· == r) fun r => { r with data := some (data, bad) } } stn txn true
where id_ (h : Hub) : Hub := h

def execStrWdata (site stn txn smask : Nat) (data : List Byte) (bad form : Nat) (s : State) : Host.Outcome State Fault Refusal :=
  inData s (isLink site && decide (stn < 64) && decide (smask < 256) && formOk form) fun h => strData h site stn txn smask data bad form

/-- A streaming read that waited meets the directory (R208). -/
def execStreamingRead (stn txn : Nat) (s : State) : Host.Outcome State Fault Refusal := inData s true fun h => strGo h stn txn false

/-- A streaming write that waited meets the directory (R208). -/
def execStreamingWrite (stn txn : Nat) (s : State) : Host.Outcome State Fault Refusal := inData s true fun h => strGo h stn txn true

end Sys2Proof.Machine
end

