-- ==== Sys2Proof/Machine/Coh.lean ====
section
/-!
DEFINITION. Machine/Coh.lean: the coherence messages: requests and evictions (R194, R199), snoops at the agents (R195, R200),
their answers (R196, R197, R201), completions and acknowledgements (R202), time-outs (R205), the directory window (R211).
-/
namespace Sys2Proof.Machine

/-! ### Requests -/

/-- An eviction at its home, applied on arrival (R198, R199, R201): a crossing dirty one carries a snoop's data. One of an agent
that is not LIVE is refused (R204); one of an agent that a snoop has removed is completed, its data discarded; one of an agent
that is not the line's owner, and that no snoop removed, is a breach (R203). -/
def evict (h : Hub) (r : CohReq) : Hub :=
  let dirty := r.op == 7
  let bad := if r.bad then 3 else 0
  let out := (tget h.snpOut (r.agent * 2 ^ 33 + r.line)).isSome
  let h := { h with snpOut := tdel h.snpOut (r.agent * 2 ^ 33 + r.line) }
  let crossing := h.cohTxns.find? fun t => t.req.line == r.line && t.evicts.contains r.agent
  if agentState h r.agent != 1 then sendNack h r.agent r.txn r.line 1
  else match crossing, dirFind h r.line with
  | some t, _ =>
    let h := if dirty then writeBack h r.line r.data bad else h
    settleTxn (sendCmp h r 0 false) { t with evicts := t.evicts.filter (· != r.agent) }
  | none, some (k, d) =>
    let mine := d.listed.contains r.agent
    if d.st = 2 then
      if mine then sendCmp (dropHolder (if dirty then writeBack h r.line r.data bad else h) k d r.agent) r 0 false
      else if out then sendCmp h r 0 false
      else breach (sendNack h r.agent r.txn r.line 4) r.agent r.ctx r.line r.vline
    else if !dirty && (mine || d.bcast) then sendCmp (dropHolder h k d r.agent) r 0 false
    else sendCmp h r 0 false
  | none, none => sendCmp h r 0 false

/-- A request whose line is known goes to its home. -/
def cohHome (h : Hub) (r : CohReq) : Hub := if r.op = 6 || r.op = 7 then pumpAll (evict h r) else cohArrive h r

/-- The number by which a held request of agent `a` asks for its translation: above every station number and slice. -/
def agentWho (a : Nat) : Nat := 0x20000 + a

/-- A coherent request goes on with its translation (R364, R367): it waits for one, is refused where it names host memory,
or goes to its home. -/
def cohGo (h : Hub) (r : CohReq) : Hub :=
  let va := 64 * r.vline
  let write := r.op == 2 || r.op == 4 || r.op == 5 || r.op == 7
  match lookup h r.ctx va write (agentWho r.agent) with
  | (none, h) => { h with cohPend := h.cohPend ++ [r] }
  | (some e, h) =>
    if e.host then
      let (w, h) := drawFree h 16
      trFault (toAgent h 3 1 .nackPoison r.agent [r.txn, 0, 4]) r.ctx 3 write true w va
    else cohHome h { r with line := e.target va / 64 }

/-- Held requests that a translation may have freed go on, in their order. -/
def cohRetry (h : Hub) (c : Nat) : Hub :=
  let mine := h.cohPend.filter fun r => r.ctx == c
  each mine { h with cohPend := dropIf h.cohPend fun r => r.ctx == c } cohGo

/-- A corrected or uncorrectable error of the directory entry that a request meets (R193): 1 corrected, 2 not. -/
def dirError (h : Hub) (dpa e : Nat) : Hub :=
  let p := portOf h dpa
  if e = 1 then raise h E.cohDirCe p
  else if e = 2 then later (raise h E.cohDirUe p) (.fatal 4)
  else h

/-- What a request meets on its way: errors of the directory and of the memory at the line, where it is translated. -/
def cohMet (h : Hub) (r : CohReq) (dirErr memErr : Nat) : Hub :=
  match atcFind h r.ctx (64 * r.vline) false with
  | some e => if e.host then h else memError (dirError h (e.target (64 * r.vline)) dirErr) (e.target (64 * r.vline)) (memErrOf memErr)
  | none => h

/-- A coherent request of the guest at anchor `a` is outstanding. -/
def cohOut (h : Hub) (a : Nat) : Nat :=
  let ids := (guest h a).agentIds
  (h.cohPend.filter fun r => ids.contains r.agent).length + (h.cohQ.filter fun r => ids.contains r.agent).length
    + (h.cohTxns.filter fun t => ids.contains t.req.agent).length

/-- What a coherent request of the guest at anchor `a` asks of the permit. -/
def cohAsk (h : Hub) (a : Nat) (r : CohReq) : Ask :=
  { cls := some 2, agent := some r.agent, ctx := some r.ctx, vas := [64 * r.vline], rd := true,
    wr := r.op == 2 || r.op == 4 || r.op == 5 || r.op == 7,
    full := !(r.op == 6 || r.op == 7) && decide (fld h F.siteLimitsCohMax a ≤ cohOut h a) }

/-- A coherent request arrives: a guest agent's through the permit (R304), a house agent's directly. `data` is the line of a
write or a dirty eviction, `poison` whether it is poisoned; `form` as `formOk` says. -/
def cohReq (h : Hub) (r : CohReq) (form dirErr memErr : Nat) : Hub :=
  let go (h : Hub) : Hub := cohGo (cohMet h r dirErr memErr) r
  match agentLink r.agent with
  | none => go h
  | some site =>
    arrive h site (if r.op == 6 || r.op == 7 then 1 else 0) 2 form (cohAsk h (anchorOf h site) r) false (fun h => toAgent h 3 1 .nackPoison r.agent [r.txn, 0, 4]) go

/-- Operands of a coherent request that its fields can hold. -/
def cohOk (agent txn ctx vline form : Nat) : Bool :=
  decide (agent < 152) && decide (txn < 1024) && decide (ctx < 8192) && decide (vline < 2 ^ 51) && formOk form

/-- A request without data. -/
def plainReq (s : State) (op agent txn ctx vline form dirErr memErr : Nat) : Host.Outcome State Fault Refusal :=
  inData s (cohOk agent txn ctx vline form) fun h =>
    cohReq h { op := op, agent := agent, txn := txn, ctx := ctx, vline := vline, line := 0 } form dirErr memErr

def execRdShared (agent txn ctx vline form dirErr memErr : Nat) (s : State) : Host.Outcome State Fault Refusal :=
  plainReq s 1 agent txn ctx vline form dirErr memErr

def execRdUnique (agent txn ctx vline form dirErr memErr : Nat) (s : State) : Host.Outcome State Fault Refusal :=
  plainReq s 2 agent txn ctx vline form dirErr memErr

/-- RD_ONCE; `smask` the sectors read. -/
def execRdOnce (agent txn ctx vline smask form dirErr memErr : Nat) (s : State) : Host.Outcome State Fault Refusal :=
  inData s (cohOk agent txn ctx vline form && decide (smask < 4)) fun h =>
    cohReq h { op := 3, agent := agent, txn := txn, ctx := ctx, vline := vline, line := 0, smask := smask } form dirErr memErr

def execUpgrade (agent txn ctx vline form dirErr memErr : Nat) (s : State) : Host.Outcome State Fault Refusal :=
  plainReq s 4 agent txn ctx vline form dirErr memErr

/-- WR_LINE with its data on DAT. -/
def execWrLine (agent txn ctx vline smask : Nat) (data : List Byte) (poison : Bool) (form dirErr memErr : Nat) (s : State) :
    Host.Outcome State Fault Refusal :=
  inData s (cohOk agent txn ctx vline form && decide (smask < 4)) fun h =>
    cohReq h { op := 5, agent := agent, txn := txn, ctx := ctx, vline := vline, line := 0, smask := smask,
               data := sliceB data 0 64, bad := poison } form dirErr memErr

/-- The agent that evicts a line holds it no more (R200). -/
def dropCopy (h : Hub) (agent ctx vline : Nat) : Hub :=
  { h with agentLines := dropIf h.agentLines fun e => e.1 / 2 ^ 33 == agent && e.2.ctx == ctx && e.2.vline == vline }

def execEvictClean (agent txn ctx vline form dirErr : Nat) (s : State) : Host.Outcome State Fault Refusal :=
  inData s (cohOk agent txn ctx vline form) fun h =>
    cohReq (dropCopy h agent ctx vline) { op := 6, agent := agent, txn := txn, ctx := ctx, vline := vline, line := 0 } form dirErr 0

/-- EVICT_DIRTY with its data on DAT. -/
def execEvictDirty (agent txn ctx vline : Nat) (data : List Byte) (poison : Bool) (form dirErr : Nat) (s : State) :
    Host.Outcome State Fault Refusal :=
  inData s (cohOk agent txn ctx vline form) fun h =>
    cohReq (dropCopy h agent ctx vline) { op := 7, agent := agent, txn := txn, ctx := ctx, vline := vline, line := 0,
                                          data := sliceB data 0 64, bad := poison } form dirErr 0

/-! ### Snoops at the agents (R200, R201) -/

/-- The transaction of home `home` with number `stxn` that still awaits agent `a`'s answer. -/
def snoopOf (h : Hub) (home stxn a : Nat) : Option CohTxn :=
  h.cohTxns.find? fun t => t.stxn == home * 1024 + stxn && t.waits.contains a

/-- Agent `a` receives the snoop: `wrote` says that it wrote a line granted E (E to M, R200); `evicting` 1 an EVICT_CLEAN of
the line is on its way, 2 an EVICT_DIRTY. It answers ACK_DATA from M; ACK otherwise, with EVICTED or HELD. -/
def snooped (h : Hub) (share : Bool) (a home stxn : Nat) (wrote : Bool) (evicting : Nat) (data : List Byte) : Hub :=
  match snoopOf h home stxn a with
  | none => h
  | some t =>
    if t.share != share then h
    else
      let k := a * 2 ^ 33 + t.req.line
      let cur : Option AgentLine := tget h.agentLines k
      let st := (cur.map (·.st)).getD 0
      let dirty := st == 3 || (st == 2 && wrote)
      let held := share && st != 0
      let h := { h with agentLines := match cur with
        | some l => if share then tset h.agentLines k { l with st := 1 } else tdel h.agentLines k
        | none => h.agentLines }
      if dirty then emit h .snpAckData a [home, stxn, b2n held] data
      else emit h .snpAck a [0, home, stxn, b2n (st == 0 && evicting == 2), b2n held]

def execSnpInv (agent home stxn : Nat) (wrote : Bool) (evicting : Nat) (data : List Byte) (s : State) : Host.Outcome State Fault Refusal :=
  inData s (decide (agent < 152) && decide (home < 64)) fun h => snooped h false agent home stxn wrote evicting data

def execSnpShare (agent home stxn : Nat) (wrote : Bool) (evicting : Nat) (data : List Byte) (s : State) : Host.Outcome State Fault Refusal :=
  inData s (decide (agent < 152) && decide (home < 64)) fun h => snooped h true agent home stxn wrote evicting data

/-- SNP_ALL is answered as SNP_INV. -/
def execSnpAll (agent home stxn : Nat) (wrote : Bool) (evicting : Nat) (data : List Byte) (s : State) : Host.Outcome State Fault Refusal :=
  inData s (decide (agent < 152) && decide (home < 64)) fun h => snooped h false agent home stxn wrote evicting data

/-! ### Answers at the home -/

/-- PROTO for a message that matches nothing (R203); the message is dropped. -/
def strayAnswer (h : Hub) (a home : Nat) : Hub :=
  let h := raise h E.cohProto home
  match agentAnchor h a with
  | some g => later h (.violation g 10 0 a true 0 none none)
  | none => h

/-- An answer from agent `a`: a guest's enters through its spoke. -/
def answer (h : Hub) (a cls n form : Nat) (ok : Hub → Hub) : Hub :=
  match agentLink a with
  | none => ok h
  | some site => arrive h site cls n form { cls := some 3, agent := some a } false (fun h => h) ok

/-- Agent `a` still owns the line: no eviction of it has arrived. -/
def ownedNow (h : Hub) (line a : Nat) : Bool :=
  match dirFind h line with
  | some (_, d) => d.st == 2 && d.listed.contains a
  | none => false

/-- Agent `a` has answered a snoop of the line; unless it stays as a sharer, an eviction it may have sent before is no breach (R201). -/
def leftBySnoop (h : Hub) (line a : Nat) (stays : Bool) : Hub :=
  if stays then h else { h with snpOut := tset h.snpOut (a * 2 ^ 33 + line) () }

/-- ACK to a snoop (R201): with EVICTED its eviction is awaited, unless it has come already; with HELD the owner stays as a
sharer. -/
def snoopAck (h : Hub) (a home stxn : Nat) (evicted held : Bool) : Hub :=
  match snoopOf h home stxn a with
  | none => strayAnswer h a home
  | some t =>
    settleTxn (leftBySnoop h t.req.line a (t.share && held))
      { t with waits := t.waits.filter (· != a), held := t.held || (t.share && held),
               evicts := if evicted && ownedNow h t.req.line a then t.evicts ++ [a] else t.evicts }

def execSnoopAck (agent home stxn : Nat) (evicted held : Bool) (form : Nat) (s : State) : Host.Outcome State Fault Refusal :=
  inData s (decide (agent < 152) && decide (home < 64) && formOk form) fun h =>
    answer h agent 3 1 form fun h => snoopAck h agent home stxn evicted held

/-- ACK_DATA: the M line, which the home writes first; from an agent that is not the owner it is a breach (R203). -/
def ackData (h : Hub) (a home stxn : Nat) (data : List Byte) (bad : Nat) : Hub :=
  match snoopOf h home stxn a with
  | none => strayAnswer h a home
  | some t =>
    match dirFind h t.req.line with
    | some (_, d) =>
      if d.st = 2 && d.listed.contains a then
        settleTxn (writeBack h t.req.line (sliceB data 0 64) bad) { t with waits := t.waits.filter (· != a), held := t.held || t.share }
      else breach h a t.req.ctx t.req.line t.req.vline
    | none => breach h a t.req.ctx t.req.line t.req.vline

def execAckData (agent home stxn : Nat) (data : List Byte) (bad form : Nat) (s : State) : Host.Outcome State Fault Refusal :=
  inData s (decide (agent < 152) && decide (home < 64) && formOk form) fun h =>
    answer h agent 5 (datLen 2) form fun h => ackData h agent home stxn data bad

/-- Agent `a` owes the transaction its completion acknowledgement. -/
def CohTxn.owes (t : CohTxn) (a : Nat) : Bool :=
  match t.ack with
  | some (b, _) => b == a
  | none => false

/-- The transaction of home `home` that agent `a`'s acknowledgement of request `txn` closes. -/
def ackDue (h : Hub) (a home txn : Nat) : Option CohTxn :=
  h.cohTxns.find? fun t => t.stxn / 1024 == home && t.req.txn == txn && t.owes a

/-- The completion acknowledgement closes the line's transaction (R198, R202). -/
def completionAck (h : Hub) (a home txn : Nat) : Hub :=
  match ackDue h a home txn with
  | none => strayAnswer h a home
  | some t => pumpAll { h with cohTxns := h.cohTxns.filter fun x => x.stxn != t.stxn }

def execCompletionAck (agent home txn form : Nat) (s : State) : Host.Outcome State Fault Refusal :=
  inData s (decide (agent < 152) && decide (home < 64) && formOk form) fun h =>
    answer h agent 3 1 form fun h => completionAck h agent home txn

/-! ### Completions at the agents -/

/-- The grant that a CMP for request `txn` brings agent `a`, with its transaction. -/
def cmpDue (h : Hub) (a txn : Nat) : Option (CohTxn × Nat) :=
  h.cohTxns.findSome? fun t => match t.ack with
    | some (b, g) => if b == a && t.req.txn == txn then some (t, g) else none
    | none => none

/-- CMP at an agent (R200): it holds the line in the state granted, 1 S or 2 E, and acknowledges. -/
def cmpAt (h : Hub) (a txn : Nat) : Hub :=
  match cmpDue h a txn with
  | none => h
  | some (t, g) =>
    let h := { h with agentLines := tset h.agentLines (a * 2 ^ 33 + t.req.line) ⟨g, t.req.ctx, t.req.vline⟩ }
    emit h .snpAck a [1, t.stxn / 1024, txn]

def execCmp (agent txn : Nat) (s : State) : Host.Outcome State Fault Refusal :=
  inData s (decide (agent < 152)) fun h => cmpAt h agent txn

/-- NACK_POISON at an agent: the line is not granted; what the agent holds stays (R199). The home sent it in the request's own
step. -/
def execNackPoison (agent txn reason : Nat) (s : State) : Host.Outcome State Fault Refusal :=
  inData s (decide (agent < 152) && decide (txn < 1024) && decide (1 ≤ reason) && decide (reason < 5)) fun h => h

/-! ### Time-outs (R205) -/

/-- The transaction of home `home` with number `stxn` in which something is due from agent `a`. -/
def timeoutDue (h : Hub) (home stxn a : Nat) : Option CohTxn :=
  h.cohTxns.find? fun t => t.stxn == home * 1024 + stxn && (t.waits.contains a || t.evicts.contains a || t.owes a)

/-- The event and COH.LAST_TO of a time-out. -/
def timeoutShown (h : Hub) (home a line : Nat) : Hub :=
  let own := match dirFind h line with
    | some (_, d) => d.st == 2 && d.listed.contains a
    | none => false
  let h := raise h E.cohTimeout home
  setFld (setFld (setFld (setFld h F.cohLastToAgent home a) F.cohLastToOwner home (b2n own)) F.cohLastToValid home 1) F.cohLastToDpa home line

/-- The wait for agent `a` in one transaction outlasted the snoop timeout. -/
def snoopTimeout (h : Hub) (home stxn a : Nat) : Hub :=
  match timeoutDue h home stxn a with
  | none => h
  | some t =>
    let h := suspectAgent (timeoutShown h home a t.req.line) a
    match agentAnchor h a with
    | some g => later h (.isolate g 6)
    | none =>
      match agentStation a with
      | some stn => later h (.lost stn)
      | none => if decide (150 ≤ a) then later h (.fatal 6) else h

def execSnoopTimeout (agent home stxn : Nat) (s : State) : Host.Outcome State Fault Refusal :=
  inData s (decide (agent < 152) && decide (home < 64)) fun h => snoopTimeout h home stxn agent

/-! ### The directory window (R190, R211) -/

/-- The 128 bits of an entry. -/
def dirBits (h : Hub) (e : DirEntry) : Nat :=
  let a := localAddr h (64 * e.line)
  let pv := e.ptr.zipIdx.foldl (fun n x => if x.1.isSome then n + 2 ^ x.2 else n) 0
  let ptrs := if e.bcast then e.cnt * 2 ^ 8 else e.ptr.zipIdx.foldl (fun n x => n + (x.1.getD 0) * 2 ^ (8 + 8 * x.2)) 0
  e.st + b2n e.bcast * 4 + b2n (lineBusy h e.line) * 8 + (if e.bcast then 0 else pv) * 16 + ptrs + e.ctx * 2 ^ 40 + e.vline * 2 ^ 56
    + bitsOf a 32 18 * 2 ^ 107

/-- COH.DIR_SEL.READ: the selected entry into DIR_LO and DIR_HI; a free way reads 0. Only in an operator debug session. -/
def dirRead (h : Hub) (p : Nat) : Hub :=
  if !debugOpen h || !h.live.contains p then h
  else
    let v := match tget h.dir (p * 65536 + fld h F.cohDirSelIndex p) with
      | some e => dirBits h e
      | none => 0
    setReg (setReg h .cohDirLo p (v % 2 ^ 64)) .cohDirHi p (v / 2 ^ 64)

def execCohDirRead (port : Nat) (s : State) : Host.Outcome State Fault Refusal :=
  dataReg s (decide (port < 64)) fun h => dirRead h port

end Sys2Proof.Machine
end

