-- ==== Sys2Proof/Machine/Codes.lean ====
section
/-!
DEFINITION. Machine/Codes.lean: the codes of the rim (R346, R347): the extended Hamming code of a protected word and the
code of a 32 B sector.
-/
namespace Sys2Proof.Machine

/-- Check bits for k data bits: the least r with 2^r ≥ k + r + 1 (R346 step 1), r at most 9. -/
def checkBits (k : Nat) : Nat := ((List.range 10).find? fun r => decide (k + r + 1 ≤ 2 ^ r)).getD 9

/-- A power of two below 2^10. -/
def isPow2 (n : Nat) : Bool := (List.range 10).any fun i => n == 2 ^ i

/-- Code positions of the data bits d_0, d_1, …: those that are no power of two, rising (R346 step 2). -/
def dataPositions (k : Nat) : List Nat := ((List.range (k + checkBits k + 1)).filter fun p => p != 0 && !isPow2 p).take k

/-- The check bits of k data bits as a number: c_i in bit i (R346 step 3). The positions of the data bits that are 1, XORed. -/
def hamming (k data : Nat) : Nat :=
  ((dataPositions k).zipIdx.filter fun e => bitOf data e.2).foldl (fun a e => a ^^^ e.1) 0

/-- XOR of the low n bits. -/
def parity (v n : Nat) : Nat := ((List.range n).filter fun i => bitOf v i).length % 2

/-- The code word of k data bits: data, check bits, overall parity in the top bit (R346 steps 4 and 5). -/
def secded (k data : Nat) : Nat :=
  let c := hamming k data
  data % 2 ^ k + c * 2 ^ k + ((parity data k + parity c (checkBits k)) % 2) * 2 ^ (k + checkBits k)

/-- What a receiver finds (R346). -/
inductive CodeOutcome where
  | clean | corrected | uncorrectable
deriving DecidableEq, Repr

/-- The outcome for syndrome `syn` and whether the overall parity holds (R346). -/
def secdedOutcome (k syn : Nat) (holds : Bool) : CodeOutcome :=
  if syn = 0 then (if holds then .clean else .corrected)
  else if holds then .uncorrectable
  else if syn ≤ k + checkBits k then .corrected else .uncorrectable

/-- Protected bits of a flit by network: 0 REQ, 1 RSP, 2 SNP, 3 DAT (R345). -/
def flitBits (net : Nat) : Nat := [184, 120, 120, 88].getD net 0

/-- One step of the CRC-6 with polynomial x^6 + x + 1 (R347). -/
def crc6Step (c : Nat) (b : Bool) : Nat :=
  let top := bitOf c 5 != b
  (c * 2 % 64) ^^^ (if top then 3 else 0)

/-- The CRC-6 of 256 data bits, d_0 first. -/
def crc6 (data : Nat) : Nat := (List.range 256).foldl (fun c i => crc6Step c (bitOf data i)) 0

/-- The 16-bit code of a sector's 256 data bits (R347): r is 9, so the SECDED code is 9 check bits and the parity. -/
def sectorCode (data : Nat) : Nat := secded 256 data / 2 ^ 256 + crc6 data * 2 ^ 10

/-- Whether a difference of codes is a single error (R347 step 2). -/
def singleError (d : Nat) : Bool :=
  let lo := d % 1024
  let syn := lo % 512
  let crc := d / 1024
  let odd := parity lo 10 == 1
  if lo = 0 then (List.range 6).any fun i => crc == 2 ^ i
  else if !odd && isPow2 syn then false
  else match (dataPositions 256).zipIdx.find? fun e => e.1 == syn with
    | some e => lo / 512 == (1 + parity syn 9) % 2 && crc == crc6 (2 ^ e.2)
    | none => crc == 0 && (if syn = 0 then lo / 512 == 1 else isPow2 syn && lo / 512 == 0)

/-- How a sector is taken (R347): 0 clean, 1 corrected, 2 poisoned, 3 uncorrectable. -/
def sectorClass (data code : Nat) : Nat :=
  let d := code ^^^ sectorCode data
  if d = 0 then 0
  else
    let e := d ^^^ 0xFDFF
    if e = 0 || singleError e then 2 else if singleError d then 1 else 3

end Sys2Proof.Machine
end

