-- ==== Sys2Proof/Machine/Hbm.lean ====
section
/-!
DEFINITION. Machine/Hbm.lean: the stacks in service: temperature and hold cycles (R176 to R179), scrubbing (R171), truing,
retrains and step-downs (R181 to R184), and the commands on shared regions (R172 to R175).
-/
namespace Sys2Proof.Machine

/-- The ports of stack `n`, and those of them that are live. -/
def portsOf (n : Nat) : List Nat := (List.range 8).map (8 * n + ·)
def livePorts (h : Hub) (n : Nat) : List Nat := (portsOf n).filter h.live.contains
def stack (h : Hub) (n : Nat) : Stack := tgetD h.hbms n {}
def setStack (h : Hub) (n : Nat) (x : Stack) : Hub := { h with hbms := tset h.hbms n x }
def port (h : Hub) (p : Nat) : PortRec := tgetD h.ports p {}
def setPort (h : Hub) (p : Nat) (x : PortRec) : Hub := { h with ports := tset h.ports p x }
/-- MEM.STATUS.STATE. -/
def memState (h : Hub) (p : Nat) : Nat := fld h F.memStatusState p

/-- Every live port of a stack. -/
def eachLive (h : Hub) (n : Nat) (f : Hub → Nat → Hub) : Hub := each (livePorts h n) h f

/-! ### Retrains and step-downs (R182 to R184) -/

/-- A retrain or a step-down runs in the stack. -/
def stackStalled (h : Hub) (n : Nat) : Bool := (portsOf n).any fun p => memState h p == 4 || memState h p == 5

/-- Port `p` retrains, now or when it may (R184). -/
def startRetrain (h : Hub) (p : Nat) : Hub :=
  if memState h p != 3 then h
  else if stackStalled h (p / 8) || (stack h (p / 8)).inWindow then setPort h p { port h p with wanted := true }
  else setFld (setPort h p { port h p with wanted := false }) F.memStatusState p 4

/-- The next waiting retrain of a stack. -/
def nextRetrain (h : Hub) (n : Nat) : Hub :=
  match (livePorts h n).find? fun p => (port h p).wanted && !(port h p).recent && memState h p == 3 with
  | some p => startRetrain h p
  | none => h

/-- The stack must step down for port `p`; at the lowest bin the port becomes FAILED (R182, R183). -/
def decideStep (h : Hub) (p : Nat) : Hub :=
  if fld h F.memStatusBin p ≤ odNum h OD.memBinMin then failPort h p
  else setStack h (p / 8) { stack h (p / 8) with stepPend := true }

/-- The trace event of a retrain or step-down. -/
def stallTrace (h : Hub) (p : Nat) (down : Bool) : Hub :=
  trace h 0 p 0x62 none (p + fld h F.memStatusBin p * 2 ^ 8 + b2n down * 2 ^ 12)

/-- Microseconds a stall lasted: free, up to `n`. -/
def addStallUs (h : Hub) (p n : Nat) : Hub :=
  let (x, h) := drawFree h 16
  addFld h F.memStallUsStall p (x % (n + 1))

/-- A truing window of pseudo-channel `pc` (R181); `recent`: within 100 ms of the port's last retrain. -/
def hbmTruing (h : Hub) (p pc margin : Nat) (recent : Bool) : Hub :=
  if memState h p != 3 || (stack h (p / 8)).inWindow then h
  else
    let x := port h p
    let ms := (x.margins ++ List.replicate (8 - x.margins.length) 63).set pc margin
    let recent := recent && x.recent
    let h := setPort h p { x with margins := ms, recent := recent }
    let h := setFld h F.memStatusMargin p (ms.foldl Nat.min 63)
    if margin < odNum h OD.trueMargin then (if recent then decideStep h p else startRetrain h p)
    else if x.wanted && !recent then startRetrain h p
    else h

def execHbmTruingWindow (port pc margin : Nat) (recent : Bool) (s : State) : Host.Outcome State Fault Refusal :=
  inData s (decide (port < 64) && decide (pc < 8) && decide (margin < 64)) fun h => hbmTruing h port pc margin recent

/-- A retrain ends with these margins (R182). -/
def retrainDone (h : Hub) (p : Nat) (ms : List Nat) : Hub :=
  if memState h p != 4 then h
  else
    let h := setPort h p { port h p with recent := true, margins := sliceN ms }
    let h := setFld (setFld h F.memStatusState p 3) F.memStatusMargin p (ms.foldl Nat.min 63)
    let h := setFld (stallTrace (raise (addStallUs h p 50) E.memRetrain p) p false) F.memCtlRetrain p 0
    let h := if ms.any fun m => decide (m < odNum h OD.trueMargin) then decideStep h p else h
    nextRetrain h (p / 8)
where sliceN (ms : List Nat) : List Nat := (List.range 8).map fun i => ms.getD i 63

def execHbmRetrainDone (port : Nat) (margins : List Nat) (s : State) : Host.Outcome State Fault Refusal :=
  inData s (decide (port < 64) && margins.all fun m => decide (m < 64)) fun h => retrainDone h port margins

/-- MEM.CTL.RETRAIN: a request inside the 100 ms limit waits for it. -/
def memRetrain (h : Hub) (p : Nat) : Hub :=
  if memState h p != 3 then h
  else
    let h := setFld h F.memCtlRetrain p 1
    if (port h p).recent then setPort h p { port h p with wanted := true } else startRetrain h p

def execMemCtlRetrain (port : Nat) (s : State) : Host.Outcome State Fault Refusal := dataReg s (decide (port < 64)) fun h => memRetrain h port

/-- The quiet point: the stack's ports stall (R182). -/
def stepDown (h : Hub) (n : Nat) : Hub :=
  let st := stack h n
  if !st.stepPend || st.inWindow || stackStalled h n then h
  else
    let h := setStack h n { st with stepPend := false, stepping := true }
    eachLive h n fun h p => if memState h p = 3 then setFld h F.memStatusState p 5 else h

def execHbmStepDown (stack : Nat) (s : State) : Host.Outcome State Fault Refusal := inData s (decide (stack < 8)) fun h => stepDown h stack

/-- The step-down ends; the ports listed failed its retrain (R183). -/
def stepDownDone (h : Hub) (n : Nat) (failed : List Nat) : Hub :=
  let st := stack h n
  if !st.stepping then h
  else
    let h := setStack h n { st with stepping := false }
    let h := eachLive h n fun h p =>
      let h := setFld h F.memStatusBin p (fld h F.memStatusBin p - 1)
      if memState h p != 5 then h
      else
        let h := setFld (addStallUs h p 5000) F.memStatusState p 3
        let h := setPort (raise h E.memStepDown p) p { port h p with recent := true, wanted := fld h F.memCtlRetrain p == 1 }
        if failed.contains p then failPort h p else h
    nextRetrain (match livePorts h n with
      | p :: _ => stallTrace h p true
      | [] => h) n

def execHbmStepDownDone (stack : Nat) (failed : List Nat) (s : State) : Host.Outcome State Fault Refusal :=
  inData s (decide (stack < 8)) fun h => stepDownDone h stack failed

/-! ### Temperature and hold cycles (R176 to R179) -/

/-- Refresh band of a reading: 0 normal, 1 warm, 2 hot. -/
def bandOf (t : Nat) : Nat := if t < 85 then 0 else if t < 95 then 1 else 2

/-- The band after a reading: up at once, down only 3 °C below the band's lower limit (R176). -/
def nextBand (cur t : Nat) : Nat :=
  let b := bandOf t
  if cur ≤ b then b else if t + 3 ≤ (if cur = 2 then 95 else 85) then (if cur = 2 && 82 < t then 1 else b) else cur

/-- A hold window begins (R177, R178). -/
def holdWindow (h : Hub) (n : Nat) (first : Bool) : Hub :=
  let h := setStack h n { stack h n with holding := true, inWindow := true }
  let h := eachLive h n fun h p => raise (setFld h F.memStatusTherm p 3) E.memHold p
  let h := match livePorts h n with
    | p :: _ => trace h 0 p 0x61 none (p + fld h F.memStatusBin p * 2 ^ 8)
    | [] => h
  if first then later h (.podNotice 1 n) else h

/-- The stack's catastrophic temperature (R179): a fatal source 5. -/
def cattrip (h : Hub) : Hub := later h (.fatal 5)

/-- A reading of a port (R176). -/
def tempRead (h : Hub) (p t : Nat) : Hub :=
  let n := p / 8
  let st := stack h n
  let h := setFld (setStack h n { st with lastTemp := t }) F.memStatusTemp p t
  if 115 ≤ t then cattrip h
  else if st.holding then h
  else if odNum h OD.thermHoldC < t then holdWindow h n true
  else setFld h F.memStatusTherm p (nextBand (fld h F.memStatusTherm p) t)

def execHbmTempRead (port temp : Nat) (s : State) : Host.Outcome State Fault Refusal :=
  inData s (decide (port < 64) && decide (temp < 256)) fun h => if h.variant.portOn port then tempRead h port temp else h

/-- A hold window ends: the reduced period, in which what fell due is carried out (R177, R184). -/
def holdEnds (h : Hub) (n : Nat) : Hub :=
  let st := stack h n
  if !st.inWindow then h
  else
    let h := setStack h n { st with inWindow := false }
    let h := eachLive h n fun h p => addFld (setFld h F.memStatusTherm p 4) F.memHoldUsHold p (odNum h OD.holdWindowUs)
    nextRetrain h n

def execHoldWindowEnd (stack : Nat) (s : State) : Host.Outcome State Fault Refusal := inData s (decide (stack < 8)) fun h => holdEnds h stack

/-- The decision at the end of a reduced period. -/
def reducedEnds (h : Hub) (n : Nat) : Hub :=
  let st := stack h n
  if !st.holding || st.inWindow then h
  else if odNum h OD.thermHoldC < st.lastTemp then holdWindow h n false
  else if 102 ≤ st.lastTemp then h
  else
    let h := setStack h n { st with holding := false }
    later (eachLive h n fun h p => setFld h F.memStatusTherm p 2) (.podNotice 2 n)

def execReducedPeriodEnd (stack : Nat) (s : State) : Host.Outcome State Fault Refusal := inData s (decide (stack < 8)) fun h => reducedEnds h stack

def execHbmCattrip (stack : Nat) (s : State) : Host.Outcome State Fault Refusal :=
  actUnit (decide (stack < 8)) s fun h => if h.dead = 0 && h.variant.stackOn stack then cattrip h else h

/-- MEM.CTL.SCRUB_NOW starts an extra pass over the port (R171), which the wheel's slots carry out. -/
def scrubNow (h : Hub) (p : Nat) : Hub :=
  if memState h p != 3 || (port h p).scrubLeft != 0 then h
  else setFld (setPort h p { port h p with scrubLeft := h.portCap / 64 }) F.memCtlScrubNow p 1

def execMemScrubNow (port : Nat) (s : State) : Host.Outcome State Fault Refusal := dataReg s (decide (port < 64)) fun h => scrubNow h port

/-! ### Shared regions (R172 to R175) -/

/-- First fit of `n` granules in the reserve of `z` granules, beside the slices taken there (base, granules). -/
def firstFit (z n : Nat) (taken : List (Nat × Nat)) : Option Nat :=
  let cand := 0 :: taken.map fun t => t.1 + t.2
  let ok (b : Nat) : Bool := decide (b + n ≤ z) && !(taken.any fun t => decide (b < t.1 + t.2) && decide (t.1 < b + n))
  (cand.filter ok).foldl (fun m b => match m with
    | none => some b
    | some a => some (Nat.min a b)) none

/-- The mirror slices of a region (R174): none where the reserve cannot hold it or a partner stack has no live port. -/
def mirrorSlices (h : Hub) (base size : Nat) : Option (List (Nat × Nat × Nat × Nat)) :=
  let n := liveN h
  let q0 := base / 4096 / n
  let q1 := ((base + size) / 4096 - 1) / n
  let len := q1 - q0 + 1
  let old := h.regions.flatMap fun e => if e.2.state = 0 then [] else e.2.slices
  h.live.foldl (fun (acc : Option (List (Nat × Nat × Nat × Nat))) p => match acc, partnerOf h p with
    | some xs, some t => (firstFit (h.reserve / 4096) len (((old ++ xs).filter fun e => e.2.1 == t).map fun e => (e.2.2.1, e.2.2.2))).map
        fun b => xs ++ [(p, t, b, len)]
    | _, _ => none) (some [])

/-- OPEN: the code of its refusal, or 0 (R172). -/
def regionOpen (h : Hub) (i : Nat) : Nat × Hub :=
  let b := odNum h (OD.regionBase i)
  let s := odNum h (OD.regionSize i)
  let m := odOn h (OD.regionMirror i)
  let mib := 2 ^ 21
  if (region h i).state != 0 then (7, h)
  else if b % mib != 0 || s % mib != 0 || s = 0 || decide (usable h < b + s) then (5, h)
  else if h.regions.any fun e => e.2.state != 0 && decide (b < e.2.base + e.2.size) && decide (e.2.base < b + s) then (7, h)
  else
    let r : Region := { base := b, size := s, mirror := m, state := 1, cmd := 1, bound := odOn h (OD.bindEn i) }
    if !m then (0, setRegion h i r)
    else match mirrorSlices h b s with
      | none => (7, h)
      | some xs => (0, setRegion h i { r with slices := xs, lost := xs.any fun e => portFailed h e.2.1 })

/-- SEAL, RELOAD and RELEASE. RELEASE of an UNUSED entry is taken too: it returns any state to UNUSED. -/
def regionCmd (h : Hub) (i cmd : Nat) : Nat × Hub :=
  let r := region h i
  match cmd with
  | 1 => regionOpen h i
  | 2 => if r.state = 1 then (0, setRegion h i { r with state := 2, cmd := 2 }) else (7, h)
  | 3 => if r.state = 2 || r.state = 3 then (0, setRegion h i { r with state := 1, cmd := 3 }) else (7, h)
  | 4 => (0, setRegion (releaseBound h i) i { cmd := 4 })
  | _ => (5, h)

/-- A region command takes effect (its writer's session and answer are the dictionary's, Mgmt.lean). -/
def regionRow (s : State) (i cmd : Nat) : Host.Outcome State Fault Refusal :=
  actUnit (decide (i < 64)) s fun h => if dataUp h && h.dead == 0 && ctlUp h then (regionCmd h i cmd).2 else h

def execRegionOpen (region : Nat) (s : State) : Host.Outcome State Fault Refusal := regionRow s region 1
def execRegionSeal (region : Nat) (s : State) : Host.Outcome State Fault Refusal := regionRow s region 2
def execRegionReload (region : Nat) (s : State) : Host.Outcome State Fault Refusal := regionRow s region 3
def execRegionRelease (region : Nat) (s : State) : Host.Outcome State Fault Refusal := regionRow s region 4

end Sys2Proof.Machine
end

