-- ==== Sys2Proof/Machine/Rim.lean ====
section
/-!
DEFINITION. Machine/Rim.lean: what the routers of the rim find in flits (R348), link retries (R349), the port counters
(R353), and where a line lies (R352).
-/
namespace Sys2Proof.Machine

/-- The DPA at port-local address `a` of live port `p` (R352). -/
def dpaAt (h : Hub) (p a : Nat) : Nat :=
  let n := liveN h
  let q := a / 4096
  let i := ((h.live.zipIdx.find? fun e => e.1 == p).map (·.2)).getD 0
  let x := (q ^^^ (q / 2 ^ 6) ^^^ (q / 2 ^ 12) ^^^ (q / 2 ^ 18)) % 64
  (q * n + (i + n - x % n) % n) * 4096 + a % 4096

/-- Bank of a router's port counters: port 0 +X, 1 −X, 2 +Y, 3 −Y, 4 endpoint, 5 home, 6 sync; network 0 REQ, 1 RSP, 2 SNP, 3 DAT. -/
def rimBank (n port net : Nat) : Nat := (n * 8 + port) * 4 + net

/-- A corrected flit at the input of a port: it goes on (R348). -/
def flitFixed (h : Hub) (n port net : Nat) : Hub :=
  let h := addFld (raise h E.rimFlitCe n) F.rimPortErrCe (rimBank n port net) 1
  setOdNum h OD.rimCeTotal 8 ((odNum h OD.rimCeTotal + 1) % 2 ^ 64)

/-- A flit whose SECDED check failed with syndrome `syn`, parity holding or not, at an input; `again`: it is the flit that
the link is resending. The retry limit reached, a link FAILS (R348, R349). -/
def flitError (h : Hub) (n port net syn : Nat) (holds again : Bool) : Hub :=
  match secdedOutcome (flitBits net) syn holds with
  | .clean => h
  | .corrected => flitFixed h n port net
  | .uncorrectable =>
    let k := rimBank n port net
    let tries := if again then tgetD h.rimTries k 0 else 0
    if again && decide (odNum h OD.rimRetryLimit ≤ tries) then
      let h := raise h E.rimLinkFail n
      let h := if port < 4 then setFld h F.rimStatusLinkFailed n (fld h F.rimStatusLinkFailed n ||| 2 ^ port) else h
      later h (.fatal 1)
    else
      let h := addFld (raise h E.rimRetry n) F.rimPortErrRetry k 1
      let h := setOdNum h OD.rimRetryTotal 8 ((odNum h OD.rimRetryTotal + 1) % 2 ^ 64)
      emit { h with rimTries := tset h.rimTries k (tries + 1) } .linkRetry n [port, net]

def execRimFlitUe (router port net syndrome : Nat) (parityHolds again : Bool) (s : State) : Host.Outcome State Fault Refusal :=
  inData s (decide (router < 64) && decide (port < 7) && decide (net < 4)) fun h => flitError h router port net syndrome parityHolds again

/-- A retry request: the sender resends `n` flits, from the failed one on, out of its replay buffer of 16 (R349). -/
def execRimRetryRequest (router port net n : Nat) (s : State) : Host.Outcome State Fault Refusal :=
  inData s (decide (router < 64) && decide (port < 4) && decide (net < 4) && decide (1 ≤ n) && decide (n ≤ 16)) fun h =>
    addFld h F.rimPortFlitsFlits (rimBank router port net) n

/-- An uncorrectable flit as it leaves router storage (R348). -/
def execRimStorageUe (router : Nat) (s : State) : Host.Outcome State Fault Refusal :=
  inData s (decide (router < 64)) fun h => later (raise h E.rimFlitUe router) (.fatal 2)

/-- A route word is impossible (R344, R348): DST_EP 3, a home port where no home is, or a reserved bit. -/
def badRoute (h : Hub) (w : Nat) : Bool :=
  bitsOf w 7 6 == 3 || (bitsOf w 7 6 == 1 && !h.live.contains (bitsOf w 5 0)) || bitsOf w 23 19 != 0

/-- A flit with route word `route` reaches a router: an impossible one is dropped, fatally (R348). -/
def execRimRouteErr (router route : Nat) (s : State) : Host.Outcome State Fault Refusal :=
  inData s (decide (router < 64) && decide (route < 2 ^ 24)) fun h =>
    if badRoute h route then later (raise h E.rimRouteErr router) (.fatal 3) else h

/-- RIM.CTL.CNT_CLEAR: the port counters of every port and network of the router read 0 (R353). -/
def rimClear (h : Hub) (n : Nat) : Hub :=
  resetRegs h fun r b => (r == .rimPortFlits || r == .rimPortStall || r == .rimPortErr) && b / 32 == n

def execRimCntClear (router : Nat) (s : State) : Host.Outcome State Fault Refusal :=
  dataReg s (decide (router < 64)) fun h => rimClear h router

end Sys2Proof.Machine
end

