-- ==== Sys2Proof/Machine/Wheel.lean ====
section
/-!
DEFINITION. Machine/Wheel.lean: bandwidth regulation: the service wheel of a memory port (R377 to R386) and the regulation
registers of an endpoint (R387). Classes: 0 TENANT, 1 CONTROL, 2 HOST, 3 POD, 4 MAINT.
-/
namespace Sys2Proof.Machine

def wheel (h : Hub) (p : Nat) : Wheel := tgetD h.wheels p {}
def setWheel (h : Hub) (p : Nat) (w : Wheel) : Hub := { h with wheels := tset h.wheels p w }

/-- The nibbles of a map of four words: the owner of each slot; 15 UNOWNED (R378). -/
def mapOwners (ws : List Nat) : List Nat := ws.flatMap fun w => (List.range 16).map fun i => w / 16 ^ i % 16

/-- A map is good (R378): no nibble from 5 to 14, and TENANT and CONTROL own a slot. -/
def mapOk (m : List Nat) : Bool := (m.all fun x => decide (x < 5) || x == 15) && m.contains 0 && m.contains 1

/-- The phase of a port (R385): 1 START, 2 TEST, 3 RECOVERY, else 0 SERVICE. -/
def portPhase (h : Hub) (p : Nat) : Nat :=
  if !flag h F.hubStatusReady then 1
  else if odOn h OD.regTest then 2
  else if (h.guests.any fun g => g.2.step == 10) || (port h p).scrubLeft != 0 then 3
  else 0

/-- MAINT takes `n` TENANT slots of a map that is given slot by slot. -/
def takeSlots (m : List Nat) (n : Nat) : List Nat :=
  (List.range n).foldl (fun m k =>
    let mine := (m.zipIdx.filter fun e => e.1 == 0).map (·.2)
    match mine[Config.maintPick k % mine.length]? with
    | some i => m.set i 4
    | none => m) m

/-- The owners a port's next turn has (R378, R385, R386): a map loaded by APPLY, else the dictionary's map or preset; MAINT's slots
of the phase are taken from TENANT. -/
def nextOwners (h : Hub) (p : Nat) : List Nat :=
  let n := [0, 64, 16, 4].getD (portPhase h p) 0
  if n = 64 then List.replicate 64 4
  else match (wheel h p).loaded with
    | some m => takeSlots m n
    | none => match h.mg.map with
      | some m => takeSlots m n
      | none =>
        let k := presetSlots (odNum h OD.regPreset)
        ownerMap ((k.set 0 (k.getD 0 0 - n)).set 4 n)

/-- A turn starts: a new preset, map or phase takes effect (R386). -/
def turnStart (h : Hub) (p : Nat) : Hub :=
  let h := setWheel h p { wheel h p with owners := nextOwners h p, time := 0 }
  setFld (setFld h F.whlStatusPhase p (portPhase h p)) F.whlCtlApply p 0

def execWheelTurnStart (port : Nat) (s : State) : Host.Outcome State Fault Refusal :=
  inData s (decide (port < 64)) fun h => if h.live.contains port then turnStart h port else h

/-- Slot times served of 64: none in a hold window, S in a reduced period (R380). -/
def slotsServed (h : Hub) (p : Nat) : Nat :=
  match fld h F.memStatusTherm p with
  | 3 => 0
  | 4 => 64 * odNum h OD.reducedShare / 100
  | _ => 64

/-- Slot time `i` of a turn is served (R380); not where a retrain or a step-down stalls the port. -/
def timeServed (h : Hub) (p i : Nat) : Bool :=
  let s := slotsServed h p
  decide (i * s / 64 < (i + 1) * s / 64) && memState h p != 4 && memState h p != 5

/-- Lent slots that urgent requests may take of every 16 (R383). -/
def urgCap (h : Hub) : Nat := 16 * odNum h OD.urgCapPct / 100

/-- The next class that has a request waiting, from the pointer on (R379). -/
def rrNext (rr : Nat) (cs : List Nat) : Nat := ((List.range 5).map fun i => (rr + i) % 5).find? cs.contains |>.getD 0

/-- The DPA of the primary that port-local address `a` of port `p` holds the mirror copy of (R174); none where the reserve is not
taken there. -/
def mirrorAt (h : Hub) (p a : Nat) : Option Nat :=
  let i := (a - (h.portCap - h.reserve)) / 4096
  h.regions.findSome? fun e => if e.2.state = 0 then none
    else (e.2.slices.find? fun s => s.2.1 == p && decide (s.2.2.1 ≤ i) && decide (i < s.2.2.1 + s.2.2.2)).map fun s =>
      dpaAt h s.1 ((e.2.base / 4096 / liveN h + (i - s.2.2.1)) * 4096 + a % 4096)

/-- What the scrubber meets in the mirror reserve (R171, R175): an uncorrectable error of a mirror copy is recorded and the copy
rewritten from the primary. Of a part of the reserve that no region has taken, the DPA recorded is free (DESIGN CHOICE, log entry
108). -/
def scrubReserve (h : Hub) (p a : Nat) (e : MemErr) : Hub :=
  match e with
  | .ce => raise h E.memCe p
  | .ue _ =>
    let m := mirrorAt h p a
    let (x, h) := drawFree h 39
    let d := m.getD x % 2 ^ 39 / 32 * 32
    let h := raise (setReg h .memUeAddr p (d + 2 ^ 39 + 2 ^ 40)) E.memUe p
    let h := trace h 0 p 0x63 none (p + d * 2 ^ 64)
    if m.isSome then raise h E.memMirrorFix p else h
  | _ => h

/-- The scrubber has a line to read: a pass of SCRUB_NOW is under way, or patrol scrubbing is not stopped (R171, R186). -/
def scrubDue (h : Hub) (p : Nat) : Bool := memState h p == 3 && ((port h p).scrubLeft != 0 || odNum h OD.scrubHours != 0)

/-- The patrol scrubber reads its next line (R171); `err` says what it met (memErrOf). -/
def scrubLine (h : Hub) (p err : Nat) : Hub :=
  let r := port h p
  if !scrubDue h p then h
  else
    let left := r.scrubLeft - 1
    let h := addFld (setPort h p { r with scrubAt := (r.scrubAt + 1) % Nat.max 1 (h.portCap / 64), scrubLeft := left }) F.memScrubLinesScrub p 1
    let h := if r.scrubLeft = 1 then setFld h F.memCtlScrubNow p 0 else h
    let a := 64 * r.scrubAt
    if h.portCap - h.reserve ≤ a then scrubReserve h p a (memErrOf err) else memError h (dpaAt h p a) (memErrOf err)

/-- A slot of the wheel is given to class `c`. -/
def giveSlot (h : Hub) (p c : Nat) : Hub :=
  let w := wheel h p
  addFld (setWheel h p { w with late := w.late.erase c }) F.whlSlots0Slots (p * 5 + c) 1

/-- A slot starts (R379, R383). `waiting` lists the classes that have requests waiting, `urgent` those of the requests that urgency
wires make urgent, oldest first; requests past their deadline are urgent too (R382). -/
def wheelSlot (h : Hub) (p : Nat) (waiting urgent : List Nat) (err : Nat) : Hub :=
  let w := wheel h p
  let w := { w with time := (w.time + 1) % 64 }
  if !timeServed h p ((wheel h p).time) then setWheel h p w
  else
    let pos := fld h F.whlStatusPos p
    let own := w.owners.getD pos 4
    let h := setFld (setWheel h p w) F.whlStatusPos p ((pos + 1) % 64)
    if waiting.contains own then giveSlot h p own
    else if own = 4 && waiting.isEmpty && (port h p).scrubLeft != 0 then scrubLine (giveSlot h p 4) p err
    else
      let urg := (w.late ++ urgent).filter waiting.contains
      let plain := waiting.filter fun c => !urg.contains c
      let capped := !plain.isEmpty && decide (urgCap h ≤ (w.lent.filter id).length)
      let lend (h : Hub) (u : Bool) : Hub :=
        let w := wheel h p
        addFld (setWheel h p { w with lent := (u :: w.lent).take 15 }) F.whlLentLent p 1
      match urg with
      | c :: _ =>
        if capped then
          let d := rrNext w.rr plain
          let h := lend (raise h E.whlUrgCap p) false
          giveSlot (setWheel h p { wheel h p with rr := (d + 1) % 5 }) p d
        else giveSlot (lend h (!plain.isEmpty)) p c
      | [] =>
        if waiting.isEmpty then (if scrubDue h p then scrubLine (giveSlot (lend h false) p 4) p err else h)
        else
          let d := rrNext w.rr waiting
          let h := lend h false
          giveSlot (setWheel h p { wheel h p with rr := (d + 1) % 5 }) p d

def execWheelSlot (port : Nat) (waiting urgent : List Nat) (err : Nat) (s : State) : Host.Outcome State Fault Refusal :=
  inData s (decide (port < 64) && waiting.all fun c => decide (c < 5)) fun h =>
    if h.live.contains port then wheelSlot h port waiting urgent err else h

/-- A request of class `cls` from the endpoint at `router` waits past its deadline at port `port` (R382): it is urgent from then on. -/
def execDeadlineMiss (port router cls : Nat) (s : State) : Host.Outcome State Fault Refusal :=
  inData s (decide (port < 64) && decide (router < 64) && decide (cls < 5)) fun h =>
    if !h.live.contains port || fld h F.regCfgMode router != 2 then h
    else
      let w := wheel h port
      raise (setWheel h port { w with late := w.late ++ [cls] }) E.whlDeadlineMiss port

/-- WHL.CTL.APPLY (R386): the map of MAP0 to MAP3 is loaded, or refused. -/
def whlApply (h : Hub) (p : Nat) : Hub :=
  let m := mapOwners ((List.range 4).map fun i => getReg h .whlMap0 (p * 4 + i))
  if mapOk m then setFld (setFld (setWheel h p { wheel h p with loaded := some m }) F.whlCtlResult p 0) F.whlCtlApply p 1
  else setFld h F.whlCtlResult p 1

def execWhlApply (port : Nat) (s : State) : Host.Outcome State Fault Refusal :=
  dataReg s (decide (port < 64)) fun h => if h.live.contains port then whlApply h port else h

/-- The longest run of slots that class `c` does not own, around the wheel (WHL.GAP, R388). -/
def gapOf (m : List Nat) (c : Nat) : Nat :=
  ((m ++ m).foldl (fun (a : Nat × Nat) o => if o = c then (0, a.2) else (a.1 + 1, Nat.max a.2 (a.1 + 1))) (0, 0)).2 |> Nat.min 64

/-! ### Endpoint registers (R387) -/

/-- The endpoint at a router has regulation registers: a house endpoint that is not fused, or the anchor of a guest. -/
def regHouse (h : Hub) (n : Nat) : Bool := (endpointAt n).1 != 0 && (endpointAt n).1 != 9 && !endpointFused h.variant n
def regGuest (h : Hub) (n : Nat) : Bool :=
  match endpointAt n with
  | (0, i) => siteState h i == 3 && anchorOf h i == i
  | (9, p) => siteState h (32 + p) == 3
  | _ => false

/-- REG.CFG's fields in range: mode, budget 1 to 4,095, LOW_PCT 5 to 50, HIGH_PCT from LOW_PCT + 5 to 95. -/
def regCfgOk (v : Nat) : Bool :=
  bitsOf v 1 0 != 3 && (bitsOf v 15 4 != 0) && decide (5 ≤ bitsOf v 23 16) && decide (bitsOf v 23 16 ≤ 50)
    && decide (bitsOf v 23 16 + 5 ≤ bitsOf v 31 24) && decide (bitsOf v 31 24 ≤ 95)

/-- A write of REG.CFG or REG.LIMIT (R387); both read 0 and ignore writes where no house endpoint or anchored guest is. -/
def regWrite (h : Hub) (n : Nat) (limit : Bool) (v : Nat) : Hub :=
  if limit then (if regHouse h n then setReg h .regLimit n (v % 2 ^ 32) else h)
  else if !(regHouse h n || regGuest h n) then h
  else if regCfgOk v then setReg h .regCfg n (v % 2 ^ 2 + bitsOf v 31 4 * 16)
  else raise h E.regCfgRefused n

def execRegCfgWrite (router : Nat) (limit : Bool) (value : Nat) (s : State) : Host.Outcome State Fault Refusal :=
  dataReg s (decide (router < 64)) fun h => regWrite h router limit value

end Sys2Proof.Machine
end

