-- ==== Sys2Proof/Machine/Pod.lean ====
section
/-!
DEFINITION. Machine/Pod.lean: the pod's frames, timers and ports (R390 to R404), the channels and their commands (R398 to
R401).
-/
namespace Sys2Proof.Machine

/-- A scale-out port comes up or goes down (R390, R407). -/
def ethPort (h : Hub) (port : Nat) (up : Bool) : Hub :=
  let v := fld h F.podStatusPortUp
  let was := bitOf v port
  let h := setFld h F.podStatusPortUp 0 (setBits v port 1 (b2n up))
  if was && !up then raise h E.podPortDown else h

def execEthPortState (port : Nat) (up : Bool) (s : State) : Host.Outcome State Fault Refusal :=
  inData s (decide (port < 2)) fun h => ethPort h port up

/-- POD_FRAME: a frame's addresses, EtherType, and its bytes after the EtherType; `full` where the receive buffer is full. -/
def execPodFrame (port dst src etherType : Nat) (bytes : List Byte) (full : Bool) (s : State) : Host.Outcome State Fault Refusal :=
  inData s (decide (port < 2)) fun h =>
    if bitOf (fld h F.podStatusPortUp) port then podReceive h dst src etherType bytes full else h

/-- Every sector of a received message has been performed: its DONE goes out (R400). -/
def putPerformed (h : Hub) (key : Nat) : Hub :=
  match h.podIn.find? fun m => m.key == key && m.left == 0 with
  | none => h
  | some m =>
    let h := { h with podIn := h.podIn.erase m }
    later (podDone h m.src ⟨0, false, m.job, m.msgId, 0, []⟩ m.status) .podPump

def execPodPutPerformed (key : Nat) (s : State) : Host.Outcome State Fault Refusal := inData s true fun h => putPerformed h key

/-- The resend wait of a stream expires (R394): every frame from the oldest unacknowledged on goes out again; the wait doubles, up
to 1 ms. -/
def retx (h : Hub) (n : Nat) : Hub :=
  match tget h.podTx n with
  | none => h
  | some t =>
    if t.sent.isEmpty then h
    else
      let h := raise { h with podTx := tset h.podTx n { t with wait := Nat.min 1000 (2 * t.wait) } } E.podRetx
      each t.sent h fun h e => sendFrame h n e.1 [e.2]

def execPodRetxTimeout (hub : Nat) (s : State) : Host.Outcome State Fault Refusal := inData s (decide (hub < 4096)) fun h => retx h hub

/-- An acknowledgement that found no other traffic goes out in a frame of its own (R394). -/
def execPodAckTimer (hub : Nat) (s : State) : Host.Outcome State Fault Refusal :=
  inData s (decide (hub < 4096)) fun h => if h.podAck.contains hub then sendFrame h hub 0 [] else h

/-- A peer with frames waiting has acknowledged nothing for the bound (R394, R404). -/
def unreachable_ (h : Hub) (n : Nat) : Hub :=
  match tget h.podTx n with
  | none => h
  | some t => if t.sent.isEmpty then h else podPeerLost (trace (raise h E.podUnreach) 0 44 0x72 none n) n

def execPodUnreachable (hub : Nat) (s : State) : Host.Outcome State Fault Refusal :=
  inData s (decide (hub < 4096)) fun h => unreachable_ h hub

/-- A worker's BEAT (R402). -/
def execPodBeatTimer (s : State) : Host.Outcome State Fault Refusal :=
  inData s true fun h =>
    if podRole h = 1 then
      let (i, h) := podNew h
      podSend h h.podMgr ⟨7, false, 0, i, 0, []⟩
    else h

/-- The pod watchdog (R402): at the manager hub `n` becomes LOST and every LIVE hub is told; at a worker the manager is lost. -/
def podWatchdog (h : Hub) (n : Nat) : Hub :=
  if podRole h = 2 then
    if roster h n = 1 || roster h n = 2 then
      let h := podPeerLost (setRoster h n 3) n
      each (liveHubs h) h fun h d =>
        let (i, h) := podNew h
        podSend h d ⟨6, false, 0, i, 6 + n * 2 ^ 8, []⟩
    else h
  else if podRole h = 1 && n == h.podMgr && fld h F.podStatusMgr != 2 then raise (setFld h F.podStatusMgr 0 2) E.podMgrLost
  else h

def execPodWatchdog (hub : Nat) (s : State) : Host.Outcome State Fault Refusal :=
  inData s (decide (hub < 4096)) fun h => podWatchdog h hub

/-! ### Channels (R398, R407) -/

def chSel (h : Hub) : Nat := fld h F.podChSelCh
def chRes (h : Hub) (c r : Nat) : Hub := setFld h F.podChCtlResult c r

/-- The ring and the window of a channel are good: 16 to 65,536 commands at a 4 KiB boundary, both below VA 2^57. -/
def chGeom (h : Hub) (c : Nat) : Bool :=
  let n := fld h F.podChCfgRingLog2 c
  let ring := getReg h .podChRing c
  decide (4 ≤ n) && decide (n ≤ 16) && ring % 4096 == 0 && decide (ring + 2 ^ n * 64 ≤ 2 ^ 57)
    && decide (fld h F.podChWinBase c + fld h F.podChWinszPages c ≤ 2 ^ 45)

/-- POD.CH_CTL.OPEN on the selected channel. -/
def chOpen (h : Hub) : Hub :=
  let c := chSel h
  let job := fld h F.podChCfgJob c
  if chState h c != 0 then chRes h c 1
  else if ctxState h (fld h F.podChCfgCtx c) != 2 then chRes h c 2
  else if job = 0 || (List.range 256).any fun d => chState h d != 0 && fld h F.podChCfgJob d == job then chRes h c 3
  else if !chGeom h c then chRes h c 4
  else
    let h := setFld (setFld (setFld { h with podCh := tset h.podCh c {} } F.podChStatState c 1) F.podChStatHaltStatus c 0) F.podChStatDoneAt c 0
    chRes h c 0

def execPodChOpen (s : State) : Host.Outcome State Fault Refusal := dataReg s true chOpen

/-- POD.CH_CTL.CLOSE: no further command is taken; what waits for no DONE goes. -/
def chClose (h : Hub) : Hub :=
  let c := chSel h
  if chState h c != 1 && chState h c != 2 then chRes h c 1
  else
    let h := chRes (setFld h F.podChStatState c 3) c 0
    let h := { h with waits := dropIf h.waits fun w => w.by_ == .pod c }
    chSettle (setPodCh h c { podCh h c with runs := (podCh h c).runs.filter fun r => !r.due.isEmpty }) c

def execPodChClose (s : State) : Host.Outcome State Fault Refusal := dataReg s true chClose

/-- POD.CH_CTL.RESUME: a HALTED channel goes on from the failed command. -/
def chResume (h : Hub) : Hub :=
  let c := chSel h
  if chState h c != 2 then chRes h c 1 else later (chRes (setFld (setFld h F.podChStatState c 1) F.podChStatHaltStatus c 0) c 0) .podPump

def execPodChResume (s : State) : Host.Outcome State Fault Refusal := dataReg s true chResume

/-! ### Commands (R399) -/

/-- Reserved fields and values of a pod command. -/
def podCmdOk (r : List Byte) : Bool :=
  let op := numAt r 0 1
  let put := op == 1 || op == 2
  decide (op < 6) && decide (numAt r 1 1 < 2) && decide (numAt r 2 2 < 4096) && numAt r 6 2 == 0
    && (op != 2 || (decide (numAt r 4 1 < 8) && redPairing (numAt r 4 1 % 4) (bitOf (numAt r 4 1) 2) (numAt r 5 1)))
    && (!put || (numAt r 8 8 % 32 == 0 && numAt r 16 8 % 32 == 0)) && (op != 5 || decide (numAt r 16 8 < 64))
    && decide (numAt r 24 4 ≤ 134217728) && decide (numAt r 28 4 < 2 ^ 17) && decide (numAt r 40 4 < 2 ^ 18) && numAt r 44 4 == 0
    && decide (numAt r 56 4 < 2 ^ 18)

/-- Replace a run of channel `c`. -/
def putRun (h : Hub) (c : Nat) (r : PodRun) : Hub :=
  setPodCh h c { podCh h c with runs := mapIf (podCh h c).runs (fun y => y.k == r.k) fun _ => r }

/-- A command that fails before anything is sent: a status the spec does not name is free (log entry 34). -/
def podFail (h : Hub) (c : Nat) (r : PodRun) : Hub :=
  let (v, h) := drawFree h 4
  haltCh h c v r.k

/-- The channel takes command k once its feed semaphore reaches k + 1 and everything before it has been sent: it is read as R54
says, checked, and waits where WAIT_EN is set. A wait that found the wait table full is tried again (R66). -/
def podFetch (h : Hub) (c : Nat) : Hub :=
  let p := podCh h c
  let ctx := fld h F.podChCfgCtx c
  match p.runs.find? fun r => r.step == 1 && !(h.waits.any fun w => w.by_ == .pod c) with
  | some r => if chState h c = 1 then semWait h (.pod c) ctx (numAt r.raw 40 4 % 2 ^ 17) (toSigned 64 (numAt r.raw 48 8)) none else h
  | none =>
  if chState h c != 1 || ctxState h ctx != 2 || frozen h || !(p.runs.all fun r => r.step == 3)
      || decide ((sem h (fld h F.podChCfgFeedSem c)).count < (p.next : Int) + 1) then h
  else
    let va := getReg h .podChRing c + p.next % 2 ^ fld h F.podChCfgRingLog2 c * 64
    match vaRead h ctx va 64 (podWho c) with
    | (none, h) => h
    | (some (bs, bad), h) =>
      let r : PodRun := { k := p.next, raw := bs, step := 1 }
      let h := setPodCh h c { podCh h c with next := (p.next + 1) % 2 ^ 32, runs := (podCh h c).runs ++ [r] }
      let w := numAt bs 40 4
      let q := numAt bs 56 4
      if !bad.isEmpty || !podCmdOk bs then podFail h c r
      else if (bitOf w 17 && !semRight h ctx (w % 2 ^ 17) false) || (bitOf q 17 && !semRight h ctx (q % 2 ^ 17) true) then
        haltCh (raise h E.syncRights) c 3 r.k
      else if bitOf w 17 then semWait h (.pod c) ctx (w % 2 ^ 17) (toSigned 64 (numAt bs 48 8)) none
      else putRun h c { r with step := 2 }

def execPodCmdFetch (ch : Nat) (s : State) : Host.Outcome State Fault Refusal := inData s (decide (ch < 256)) fun h => podFetch h ch

/-- The command of channel `c` that stands ready with opcode `op`; nothing of a halted channel or a frozen hub goes on. -/
def readyRun (h : Hub) (c op : Nat) : Option PodRun :=
  if chState h c != 1 || frozen h || ctxState h (fld h F.podChCfgCtx c) != 2 then none
  else (podCh h c).runs.find? fun r => r.step == 2 && numAt r.raw 0 1 == op

/-- Its puts before `r` have all their DONEs (R401). -/
def putsDone (h : Hub) (c : Nat) (r : PodRun) : Bool :=
  ((podCh h c).runs.takeWhile fun y => y.k != r.k).all fun y => numAt y.raw 0 1 != 1 && numAt y.raw 0 1 != 2

/-- Send one message of a run. -/
def runSend (h : Hub) (c n : Nat) (r : PodRun) (last : Bool) (typ : Nat) (pmask : Bool) (arg : Nat) (payload : List Byte) : Hub :=
  let (i, h) := podNew h
  let h := putRun h c { r with due := r.due ++ [i], step := if last then 3 else 2 }
  podTo h n ⟨typ, pmask, fld h F.podChCfgJob c, i, arg, payload⟩

/-- NOP: it has waited; it posts. -/
def podNop (h : Hub) (c : Nat) : Hub :=
  match readyRun h c 0 with
  | none => h
  | some r => runDone h c r

def execPodCmdNop (ch : Nat) (s : State) : Host.Outcome State Fault Refusal := inData s (decide (ch < 256)) fun h => podNop h ch

/-- The source pages of a put that are not translated; each is asked for. -/
def podPages (c ctx : Nat) : List Nat → Hub → Bool × Hub
  | [], h => (true, h)
  | p :: rest, h =>
    let (e, h) := lookup h ctx (4096 * p) false (podWho c)
    let (ok, h) := podPages c ctx rest h
    (ok && e.isSome, h)

/-- The next message of a PUT or REDUCE_PUT, of up to 256 sectors, once the whole source is translated (R399). -/
def podPut (h : Hub) (c op : Nat) : Hub :=
  match readyRun h c op with
  | none => h
  | some r =>
    let ctx := fld h F.podChCfgCtx c
    let va := numAt r.raw 8 8
    let off := numAt r.raw 16 8
    let len := numAt r.raw 24 4
    if len = 0 then runDone h c r
    else if decide (2 ^ 40 < off + 32 * len) then haltCh h c 2 r.k
    else
      let pages := (List.range ((va + 32 * len - 1) / 4096 - va / 4096 + 1)).map (· + va / 4096)
      match (if r.pos = 0 then podPages c ctx pages h else (true, h)) with
      | (false, h) => h
      | (true, h) =>
        let n := Nat.min 256 (len - r.pos)
        match vaSectors ctx (podWho c) ((List.range n).map fun i => va + 32 * (r.pos + i)) h with
        | (none, h) => h
        | (some (bs, bad), h) =>
          let badSec := bad.map fun a => (a - va) / 32 - r.pos
          let mask := (List.range 32).map fun i => BitVec.ofNat 8 (((List.range 8).map fun j => b2n (badSec.contains (8 * i + j)) * 2 ^ j).sum)
          let arg := off + 32 * r.pos + (n - 1) * 2 ^ 40
            + (if op = 2 then numAt r.raw 4 1 * 2 ^ 49 + numAt r.raw 5 1 * 2 ^ 52 else 0)
          runSend h c (numAt r.raw 2 2) { r with pos := r.pos + n } (decide (len ≤ r.pos + n)) op (!bad.isEmpty) arg
            (if bad.isEmpty then bs else mask ++ bs)

def execPodCmdPut (ch : Nat) (s : State) : Host.Outcome State Fault Refusal := inData s (decide (ch < 256)) fun h => podPut h ch 1

def execPodCmdReducePut (ch : Nat) (s : State) : Host.Outcome State Fault Refusal := inData s (decide (ch < 256)) fun h => podPut h ch 2

/-- SEM_ADD or SEM_SUB: sent once every earlier put has its DONE; a fast one, where OD 0x6200.04 allows it, once they are sent. -/
def podSem (h : Hub) (c op : Nat) : Hub :=
  match readyRun h c op with
  | none => h
  | some r =>
    let fast := bitOf (numAt r.raw 1 1) 0 && odOn h OD.syncFastPost
    if !fast && !putsDone h c r then h
    else runSend h c (numAt r.raw 2 2) r true 3 false (numAt r.raw 28 4 + (if op = 4 then 2 ^ 17 else 0)) (sliceB (leBytes 8 (numAt r.raw 32 8)) 0 16)

def execPodCmdSemAdd (ch : Nat) (s : State) : Host.Outcome State Fault Refusal := inData s (decide (ch < 256)) fun h => podSem h ch 3

def execPodCmdSemSub (ch : Nat) (s : State) : Host.Outcome State Fault Refusal := inData s (decide (ch < 256)) fun h => podSem h ch 4

/-- ARRIVE: to the manager, after every earlier put (R401, R405). -/
def podArrive (h : Hub) (c : Nat) : Hub :=
  match readyRun h c 5 with
  | none => h
  | some r =>
    if !putsDone h c r then h
    else
      let i := numAt r.raw 16 8 % 64
      runSend h c (if podRole h = 2 then podSelf h else h.podMgr) r true 4 false (i + tgetD h.podGen i 0 % 2 ^ 32 * 2 ^ 8) []

def execPodCmdArrive (ch : Nat) (s : State) : Host.Outcome State Fault Refusal := inData s (decide (ch < 256)) fun h => podArrive h ch

/-! ### Translation faults (R400) -/

/-- A page of channel `c`'s window faulted: the messages that wait for it get FAULT. -/
def podFault (h : Hub) (c page : Nat) : Hub :=
  let base := fld h F.podChWinBase c
  let hit (m : PodMsg) : Bool :=
    (m.typ == 1 || m.typ == 2) && chOfJob h m.job == some c
      && decide (base + bitsOf m.arg 39 0 / 4096 ≤ page) && decide (page ≤ base + (bitsOf m.arg 39 0 + 32 * bitsOf m.arg 48 40) / 4096)
  each (h.podRxQ.filter fun e => hit e.2) h fun h e => later (podDone { h with podRxQ := h.podRxQ.erase e } e.1 e.2 5) .podPump

end Sys2Proof.Machine
end

