-- ==== Sys2Proof/Machine/Ctx.lean ====
section
/-!
DEFINITION. Machine/Ctx.lean: the life of a context (R355 to R361), translations as they come back (R363 to R367), ATS
invalidations (R369), and the vector registers (R421).
-/
namespace Sys2Proof.Machine

def isCtx (c : Nat) : Bool := decide (c < 8192)

/-- CTX.EVT.CFG_REFUSED. -/
def ctxRefused (h : Hub) (c : Nat) : Hub := raise h E.ctxCfgRefused c

/-- End a CTX.CTL action with RESULT `r`; a refusal sets CFG_REFUSED (R356, R357). -/
def ctxRes (h : Hub) (c r : Nat) : Hub := if r = 0 then setFld h F.ctxCtlResult c 0 else ctxRefused (setFld h F.ctxCtlResult c r) c

/-! ### Assignment (R356, R418) -/

/-- Virtual function `v` is enabled. -/
def vfOn (h : Hub) (v : Nat) : Bool := (func h 0).vfEn && decide (1 ≤ v) && decide (v ≤ (func h 0).numVfs)

/-- The context leaves its VF's slot. -/
def leaveSlot (h : Hub) (c : Nat) : Hub :=
  let f := ctxFunc h c
  if flag h F.ctxFuncAssigned c && f != 0 then
    raise (setFunc h f { func h f with slots := (func h f).slots.filter fun e => e.2 != c }) E.vfUnassigned f
  else h

/-- A PF write of CTX.FUNC. -/
def funcWrite (h : Hub) (c v : Nat) : Hub :=
  let f := v % 64
  let on := bitOf v 6
  let stays := on && flag h F.ctxFuncAssigned c && ctxFunc h c == f
  let slots := (func h f).slots
  if 1 < ctxState h c then ctxRefused h c
  else if on && f != 0 && !stays && (!vfOn h f || decide (64 ≤ slots.length)) then ctxRefused h c
  else if stays then h
  else
    let h := leaveSlot h c
    let h := setFld (setReg h .ctxFunc c (v % 128)) F.ctxStatusState c (b2n on)
    if on && f != 0 then
      let j := ((List.range 64).find? fun j => (tget slots j).isNone).getD 0
      raise (setFunc h f { func h f with slots := tset slots j c }) E.vfAssigned f
    else h

def execCtxFuncWrite (ctx value : Nat) (s : State) : Host.Outcome State Fault Refusal :=
  dataReg s (isCtx ctx) fun h => funcWrite h ctx value

/-- A write of CTX.PASID: only in IDLE. -/
def pasidWrite (h : Hub) (c v : Nat) : Hub := if ctxState h c = 1 then setReg h .ctxPasid c (v % 2 ^ 20) else ctxRefused h c

def execCtxPasidWrite (ctx value : Nat) (s : State) : Host.Outcome State Fault Refusal :=
  dataReg s (isCtx ctx) fun h => pasidWrite h ctx value

/-! ### CREATE (R356) -/

/-- The first condition that refuses CREATE: 1 not IDLE, 2 function not ready, 3 PASID in use; 0 none. -/
def createResult (h : Hub) (c : Nat) : Nat :=
  let f := ctxFunc h c
  let fn := func h f
  if ctxState h c != 1 then 1
  else if !fn.atsEn || !(func h 0).pasidEn || fn.flr || fn.pm != 0 then 2
  else if (usedCtx h).any fun d => d != c && decide (2 ≤ ctxState h d) && ctxFunc h d == f && fld h F.ctxPasidPasid d == fld h F.ctxPasidPasid c then 3
  else 0

/-- CREATE is carried out: what an earlier holder of the window left in the route table is set empty. -/
def createCtx (h : Hub) (c : Nat) : Hub :=
  let h := setFld h F.ctxCtlCreate c 0
  let r := createResult h c
  if r != 0 then ctxRes h c r
  else
    let h := setFld (setReg (setReg h .ctxFaultVa c 0) .ctxFaultInfo c 0) F.ctxStatusKillCause c 0
    let h := setReg h .syncCtxStat c 0
    ctxRes (setFld (emptyWindow h c) F.ctxStatusState c 2) c 0

/-- CTX.CTL.CREATE: held while the control half restarts. -/
def ctxCreate (h : Hub) (c : Nat) : Hub :=
  if h.ctlDown then
    let h := if h.held.contains (.ctxCreate c) then h else { h with held := h.held ++ [.ctxCreate c] }
    setFld (setFld h F.ctxCtlCreate c 1) F.ctxCtlResult c 4
  else createCtx h c

def execCtxCreate (ctx : Nat) (s : State) : Host.Outcome State Fault Refusal := dataReg s (isCtx ctx) fun h => ctxCreate h ctx

/-! ### SUSPEND, RESUME, KILL (R357, R358) -/

/-- Suspension of an ACTIVE context. -/
def suspendCtx (h : Hub) (c : Nat) : Hub := suspendSettle (setFld h F.ctxStatusState c 3) c

/-- Back to ACTIVE: issue restarts from the recorded doorbells. -/
def resumeCtx (h : Hub) (c : Nat) : Hub :=
  each (queuesOf h c) (setFld h F.ctxStatusState c 2) fun h s => later h (.run c s)

def ctxSuspend (h : Hub) (c : Nat) : Hub :=
  match ctxState h c with
  | 2 => suspendCtx (ctxRes h c 0) c
  | 3 => ctxRes h c 0
  | 4 => ctxRes h c 0
  | _ => ctxRes h c 1

def execCtxSuspend (ctx : Nat) (s : State) : Host.Outcome State Fault Refusal := dataReg s (isCtx ctx) fun h => ctxSuspend h ctx

def ctxResume (h : Hub) (c : Nat) : Hub :=
  match ctxState h c with
  | 2 => ctxRes h c 0
  | 3 => resumeCtx (ctxRes h c 0) c
  | 4 => resumeCtx (ctxRes h c 0) c
  | _ => ctxRes h c 1

def execCtxResume (ctx : Nat) (s : State) : Host.Outcome State Fault Refusal := dataReg s (isCtx ctx) fun h => ctxResume h ctx

/-- CTX.CTL.KILL: cause 6; in KILLED or TEARING no effect. -/
def ctxKill (h : Hub) (c : Nat) : Hub :=
  if ctxLive h c then killCtx (ctxRes h c 0) c 6
  else if ctxState h c = 5 || ctxState h c = 6 then ctxRes h c 0
  else ctxRes h c 1

def execCtxKill (ctx : Nat) (s : State) : Host.Outcome State Fault Refusal := dataReg s (isCtx ctx) fun h => ctxKill h ctx

/-! ### TEARDOWN (R361) -/

/-- TEARDOWN is carried out: accepted in ACTIVE, SUSPENDED and KILLED. -/
def teardownCtx (h : Hub) (c : Nat) : Hub :=
  if ctxState h c = 2 || ctxState h c = 4 || ctxState h c = 5 then tearStart (ctxRes h c 0) c else ctxRes h c 1

/-- CTX.CTL.TEARDOWN: held while the control half restarts (R17). -/
def ctxTeardown (h : Hub) (c : Nat) : Hub :=
  if h.ctlDown then (if h.held.contains (.ctxTeardown c) then h else { h with held := h.held ++ [.ctxTeardown c] })
  else teardownCtx h c

def execCtxTeardown (ctx : Nat) (s : State) : Host.Outcome State Fault Refusal := dataReg s (isCtx ctx) fun h => ctxTeardown h ctx

def execTeardownStepDone (ctx : Nat) (s : State) : Host.Outcome State Fault Refusal :=
  inData s (isCtx ctx) fun h => tearRun 8 h ctx

/-! ### Translation completions (R363, R364, R366) -/

/-- The outstanding request that a completion or a time-out concerns. -/
def trFind (h : Hub) (c va who : Nat) (write : Bool) : Option TransReq :=
  h.trReqs.find? fun t => t.ctx == c && t.va / 4096 == va / 4096 && t.who == who && t.write == write

/-- A fault of a dispatcher slice's request (R53, R63, R71): a footprint page is noted with its command, with the right that it lacks;
a page of a submission ring halts the queue with a record of TAG 0; a page of a completion ring loses the record that waits for it;
any other read is a descriptor's or a parameter block's, whose command ends TRANSLATION_FAULT. -/
def dispFault (h : Hub) (t : TransReq) (kind : Nat) (host : Bool) : Hub :=
  let page := t.va / 4096
  let c := t.ctx
  let mine (s : Nat) : Bool := dspWho h c s == t.who
  let foot := h.cmds.filter fun x => x.ctx == c && mine x.slot && x.step == 6 && x.missing.contains (page, t.write)
  if !foot.isEmpty then
    { h with cmds := mapIf h.cmds (fun x => foot.contains x) fun x =>
        { x with faults := x.faults ++ [(page, kind, host, if kind = 2 then some t.write else none)] } }
  else
    let fault (h : Hub) : Hub := trFault h c kind t.write host t.who t.va
    let qs := (queuesOf h c).filter mine
    let sqs := qs.filter fun s => !t.write && ringPage h c s page true
    let cqs := qs.filter fun s => t.write && ringPage h c s page false
    if !sqs.isEmpty then fault (each sqs h fun h s => bareRecord (haltAt h c s 3 (some (qrec h c s).nextRd)) c s 0 3 0)
    else if !cqs.isEmpty then
      let h := fault (each cqs h fun h s => loseRecord h c s)
      if wasKilled h c then each cqs h fun h s => flushRecords h c s else h
    else match h.cmds.find? fun x => x.ctx == c && mine x.slot && x.step == 2 with
      | some x => fault (conclude h { x with status := 3, detail := 0 })
      | none => fault h

/-- A page that may be written but not read (R363): noted with the waiting commands whose footprints read it. -/
def lacksRead (h : Hub) (t : TransReq) (host : Bool) : Hub :=
  let page := t.va / 4096
  let hit (x : Cmd) : Bool := x.ctx == t.ctx && dspWho h x.ctx x.slot == t.who && x.step == 6 && x.missing.contains (page, true)
    && x.readsIn.contains page
  { h with cmds := mapIf h.cmds hit fun x => { x with faults := x.faults ++ [(page, 2, host, some false)] } }

/-- The records of a killed context that waited for the page just translated are written; nothing of it stays in the ATC (R359). -/
def killedRecords (h : Hub) (c : Nat) : Hub :=
  let h := each (queuesOf h c) h fun h s => flushRecords h c s
  { h with atc := dropIf h.atc fun e => e.ctx == c }

/-- A translation fault (R363, R366): what it does to whoever asked, and to the context. -/
def trFailed (h : Hub) (t : TransReq) (kind : Nat) (host : Bool) : Hub :=
  if decide (0xFFF0 ≤ t.who) && decide (t.who < 0x10000) then dispFault h t kind host
  else if t.who < 0xFFF0 then
    let h := bindResume h t.ctx t.va true
    let hit := h.ops.filter fun o => o.ctx == t.ctx && o.station == t.who && !o.dead
    let h := each hit h fun h o => match findCmd h o.ctx o.slot o.count with
      | some x => endCmd h x 3 0
      | none => h
    trFault h t.ctx kind t.write host t.who t.va
  else
    let (w, h) := drawFree h 16
    let h := if decide (0x30000 ≤ t.who) then loadEnd h (t.who - 0x30000) 8 else h
    let h := if decide (t.who < 0x20000) && t.write then podFault h (t.who - 0x10000) (t.va / 4096) else h
    trFault h t.ctx kind t.write host w t.va

/-- Whoever asked goes on. -/
def trWake (h : Hub) (t : TransReq) : Hub :=
  if decide (0x30000 ≤ t.who) then h
  else if decide (0x20000 ≤ t.who) then cohRetry h t.ctx
  else if decide (0x10000 ≤ t.who) then later h .podPump
  else if decide (0xFFF0 ≤ t.who) then each ((queuesOf h t.ctx).filter fun s => dspWho h t.ctx s == t.who) h fun h s => later h (.run t.ctx s)
  else
    let h := bindResume h t.ctx t.va false
    each (h.strs.filter fun r => r.stn == t.who && r.ctx == t.ctx && !r.sent) h fun h r => strGo h r.stn r.txn r.write

/-- A Translation Completion: `status` 0 success, else Unsupported Request or Completer Abort; the page is 2^size bytes at `addr`,
with R, W and U. One overtaken by an invalidation is asked for again (R369). -/
def trDone (h : Hub) (t : TransReq) (status size : Nat) (r w u : Bool) (addr : Nat) : Hub :=
  if t.stale then
    let h := { h with trReqs := mapIf h.trReqs (· == t) fun t => { t with stale := false, retried := false } }
    emit (addFld h F.ctxAtcMissMiss t.ctx 1) .transReq (ctxFunc h t.ctx) [fld h F.ctxPasidPasid t.ctx, t.va / 4096 * 4096, b2n (!t.write)]
  else
    let h := { h with trReqs := h.trReqs.erase t }
    if status != 0 then trFailed h t 4 false
    else if !r && !w then trFailed h t 1 false
    else if (if t.write then !w else !r) then trFailed h t 2 (!inBar4 h addr)
    else match resolve h t.ctx t.va size r w u addr with
      | .inr k => trFailed h t k false
      | .inl e =>
        let foot := h.cmds.any fun x => x.ctx == t.ctx && dspWho h x.ctx x.slot == t.who && x.step == 6 && x.missing.contains (t.va / 4096, t.write)
        if wasKilled h t.ctx then killedRecords (atcFill h e) t.ctx
        else if !t.write && !e.host && !bindAllows h t.ctx (e.target t.va) t.who && !foot then trFailed (atcFill h e) t 2 false
        else trWake (if t.write && !r then lacksRead (atcFill h e) t e.host else atcFill h e) t

def execTranslationCompletion (ctx va who : Nat) (write : Bool) (status size : Nat) (r w u : Bool) (addr : Nat) (s : State) :
    Host.Outcome State Fault Refusal :=
  inData s (isCtx ctx && decide (12 ≤ size) && decide (size < 64)) fun h =>
    match trFind h ctx va who write with
    | none => h
    | some t => trDone h t status size r w u addr

/-- A Translation Request times out: retried once, then ATS_ERR; never where the function's time-outs are disabled. -/
def trTimeout (h : Hub) (t : TransReq) : Hub :=
  if (func h (ctxFunc h t.ctx)).ctoDisable then h
  else if t.retried then trFailed { h with trReqs := h.trReqs.erase t } t 4 false
  else
    let h := { h with trReqs := mapIf h.trReqs (· == t) fun t => { t with retried := true } }
    emit (addFld h F.ctxAtcMissMiss t.ctx 1) .transReq (ctxFunc h t.ctx) [fld h F.ctxPasidPasid t.ctx, t.va / 4096 * 4096, b2n (!t.write)]

def execAtsCompletionTimeout (ctx va who : Nat) (write : Bool) (s : State) : Host.Outcome State Fault Refusal :=
  inData s (isCtx ctx) fun h => match trFind h ctx va who write with
    | none => h
    | some t => trTimeout h t

/-! ### Invalidations (R369) -/

/-- [a, a + la) and [b, b + lb) overlap. -/
def overlaps (a la b lb : Nat) : Bool := decide (a < b + lb) && decide (b < a + la)

/-- Accesses of the contexts `cs` that have left for their homes or the link: (context, line) at the homes, (8192, tag) on the link. -/
def inFlight (h : Hub) (cs : List Nat) : List (Nat × Nat) :=
  (((h.cohQ ++ h.cohTxns.map (·.req)).filter fun r => cs.contains r.ctx).map fun r => (r.ctx, r.line))
    ++ ((h.hostReads.filter fun r => cs.contains r.ctx).map fun r => (8192, r.tag))

/-- An invalidation of [base, base + len) for a function and PASID, or every PASID: entries, tile-cache rows and pools go; translations
in flight are stale. -/
def atsInval (h : Hub) (itag f pasid : Nat) (all : Bool) (base len : Nat) : Hub :=
  let mine (c : Nat) : Bool := ctxFunc h c == f && decide (2 ≤ ctxState h c) && (all || fld h F.ctxPasidPasid c == pasid)
  let gone := h.atc.filter fun e => mine e.ctx && overlaps e.va (2 ^ e.size) base len
  let cs := (gone.map (·.ctx)).eraseDups
  let page (p : Nat) : Bool := gone.any fun e => overlaps e.va (2 ^ e.size) (p * 4096) 4096
  let h := { h with
    atc := dropIf h.atc fun e => gone.contains e
    tc := dropIf h.tc fun t => gone.any fun e => e.ctx == t.ctx && overlaps e.va (2 ^ e.size) (32 * t.sec) 32
    trReqs := mapIf h.trReqs (fun t => mine t.ctx && overlaps (t.va / 4096 * 4096) 4096 base len) fun t => { t with stale := true }
    cmds := mapIf h.cmds (fun x => x.step == 6 && cs.contains x.ctx) fun x => { x with pages := dropIf x.pages page }
    invals := h.invals ++ [⟨itag, f, inFlight h cs⟩] }
  let h := casBreak h fun p => mine p.ctx && (overlaps p.base p.size base len)
  each cs h fun h c => raise h E.ctxAtsInval c

/-- ATS_INVALIDATION; one received during a data-half reset is completed at once. -/
def execAtsInvalidation (itag fn pasid : Nat) (global : Bool) (base len : Nat) (s : State) : Host.Outcome State Fault Refusal :=
  actUnit (decide (itag < 32) && decide (fn < 64)) s fun h =>
    if h.dead != 0 then h
    else if h.dataReset then emit h .invalComplete fn [itag]
    else atsInval h itag fn pasid global base len

/-- The Invalidation Completion goes out once what had left with a dropped translation is done. -/
def invalDone (h : Hub) (itag f : Nat) : Hub :=
  match h.invals.find? fun v => v.itag == itag && v.func == f with
  | none => h
  | some v =>
    let now := inFlight h ((v.busy.map (·.1)).eraseDups) ++ h.hostReads.map fun r => (8192, r.tag)
    if v.busy.any fun b => now.contains b then h else emit { h with invals := h.invals.erase v } .invalComplete f [itag]

def execAtsInvalComplete (itag fn : Nat) (s : State) : Host.Outcome State Fault Refusal :=
  inData s (decide (itag < 32) && decide (fn < 64)) fun h => invalDone h itag fn

/-! ### Fault ring and vectors (R372, R421) -/

/-- FAULT.HEAD: a value behind the previous one or ahead of TAIL is dropped. -/
def faultHead (h : Hub) (v : Nat) : Hub :=
  let p := fld h F.faultHeadHead
  let d := (v + 2 ^ 32 - p) % 2 ^ 32
  if d ≤ (fld h F.faultTailTail + 2 ^ 32 - p) % 2 ^ 32 then setFld h F.faultHeadHead 0 v else h

def execFaultHeadWrite (value : Nat) (s : State) : Host.Outcome State Fault Refusal := ctlReg s fun h => faultHead h (value % 2 ^ 32)

/-- A write of a register that names a vector: dropped whole where the vector is at or above its function's table. -/
def ctxCfgWrite (h : Hub) (c v : Nat) : Hub :=
  if vectors (ctxFunc h c) ≤ v % 2 ^ 11 then ctxRefused h c else setReg h .ctxCfg c (v % 2 ^ 12)

def podVecWrite (h : Hub) (v : Nat) : Hub :=
  let c := fld h F.podChSelCh
  if vectors (ctxFunc h (fld h F.podChCfgCtx c)) ≤ v % 2 ^ 11 then h else setReg h .podChVec c (v % 2 ^ 11)

/-- VECTOR_REG_WRITE: 0 CTX.CFG of context `unit`, 1 POD.CH_VEC of the selected channel, 2 FAULT.CFG, 3 MBX.CFG. -/
def execVectorRegWrite (which unit value : Nat) (s : State) : Host.Outcome State Fault Refusal :=
  match which with
  | 0 => dataReg s (isCtx unit) fun h => ctxCfgWrite h unit value
  | 1 => dataReg s true fun h => podVecWrite h value
  | 2 => ctlReg s fun h => setReg h .faultCfg 0 (value % 2 ^ 12)
  | 3 => ctlReg s fun h => setReg h .mbxCfg 0 (value % 2 ^ 12)
  | _ => actUnit false s fun h => h

end Sys2Proof.Machine
end

