-- ==== Sys2Proof/Machine/Lease.lean ====
section
/-!
DEFINITION. Machine/Lease.lean: leases (R309 to R312), the driver's site controls (R313, R316), the ends of sweeps (R206,
R209), violation windows (R307) and site power (R559).
-/
namespace Sys2Proof.Machine

/-- A window is used and reaches past VA 2^57 − 1. -/
def winBad (h : Hub) (a s : Nat) : Bool :=
  (List.range 8).any fun w =>
    let k := lkey a s * 8 + w
    fld h F.siteWinSizePages k != 0 && decide (2 ^ 45 < fld h F.siteWinBaseBase k + fld h F.siteWinSizePages k)

/-- Slots of a guest that are not FREE, or for which LEASE_START is under way. -/
def slotUsed (h : Hub) (a s : Nat) : Bool := leaseState h a s != 0 || (leaseRec h a s).step == 1

/-- SITE.LEASE_CTL.GRANT on the selected slot (R310). -/
def leaseGrant (h : Hub) (a : Nat) : Hub :=
  let s := fld h F.siteLeaseSelSlot a
  let c := leaseCtx h a s
  let others := (List.range 16).filter fun t => t != s && slotUsed h a t
  if siteState h a != 3 || (a < 32 && anchorOf h a != a) then leaseRes h a 4
  else if slotUsed h a s then leaseRes h a 1
  else if !shared h a && !others.isEmpty then leaseRes h a 2
  else if ctxState h c != 2 then leaseRes h a 3
  else if others.any fun t => leaseCtx h a t == c then leaseRes h a 7
  else if winBad h a s then leaseRes h a 6
  else sbCmd (setLeaseRec h a s { step := 1 }) a 2 c s

def execLeaseGrant (anchor : Nat) (s : State) : Host.Outcome State Fault Refusal := dataReg s (isLink anchor) fun h => leaseGrant h anchor

/-- SITE.LEASE_CTL.END on the selected slot (R311). A slot that is not ACTIVE changes nothing (R37, R312). -/
def leaseEndSel (h : Hub) (a : Nat) : Hub := leaseEnd (leaseRes h a 0) a (fld h F.siteLeaseSelSlot a) false

def execLeaseEnd (anchor : Nat) (s : State) : Host.Outcome State Fault Refusal := dataReg s (isLink anchor) fun h => leaseEndSel h anchor

/-- Resident operations of the lease's context at the guest. -/
def residentOps (h : Hub) (a c : Nat) : Bool :=
  h.ops.any fun o => o.ctx == c && !o.dead && ((guestStns h a).contains o.station || o.waitFor.any fun s => (guestStns h a).contains s)

/-- The drain of a slot ends (R311 step 2). -/
def drainDone (h : Hub) (a s : Nat) : Hub :=
  if leaseState h a s = 2 && (leaseRec h a s).step == 2 && !residentOps h a (leaseCtx h a s) then leaseDrained h a s else h

def execLeaseDrainDone (anchor slot : Nat) (s : State) : Host.Outcome State Fault Refusal :=
  inData s (isLink anchor && decide (slot < 16)) fun h => drainDone h anchor slot

/-- A drain outlasts its bound: the guest is isolated with cause GUEST_ERR. -/
def execLeaseDrainTimeout (anchor slot : Nat) (s : State) : Host.Outcome State Fault Refusal :=
  inData s (isLink anchor && decide (slot < 16)) fun h =>
    if leaseState h anchor slot = 2 && (leaseRec h anchor slot).step == 2 then isolate h anchor 3 else h

/-- 10 ms after a lease ended (R306). -/
def execLeaseGraceEnd (anchor ctx : Nat) (s : State) : Host.Outcome State Fault Refusal :=
  inData s (isLink anchor) fun h => setGuest h anchor { guest h anchor with grace := (guest h anchor).grace.erase ctx }

/-- A violation window ends (R307). -/
def execViolationWindowEnd (anchor : Nat) (s : State) : Host.Outcome State Fault Refusal :=
  inData s (isLink anchor) fun h => setGuest h anchor { guest h anchor with winCount := 0 }

/-- SITE.CTL.ISOLATE (R313). -/
def siteIsolate (h : Hub) (a : Nat) : Hub :=
  if siteState h a != 2 && siteState h a != 3 then setFld h F.siteCtlResult a 1 else isolate (setFld h F.siteCtlResult a 0) a 8

def execSiteIsolate (anchor : Nat) (s : State) : Host.Outcome State Fault Refusal := dataReg s (isLink anchor) fun h => siteIsolate h anchor

/-- SITE.CTL.READMIT (R316, R317). -/
def siteReadmit (h : Hub) (a : Nat) : Hub :=
  if siteState h a != 4 && siteState h a != 5 then setFld h F.siteCtlResult a 1
  else
    let h := setFld h F.siteCtlResult a 0
    let h := if h.ctlDown then { h with held := h.held ++ [.readmit a] } else readmit h a
    setFld h F.siteCtlReadmit a 1

def execSiteReadmit (anchor : Nat) (s : State) : Host.Outcome State Fault Refusal := dataReg s (isLink anchor) fun h => siteReadmit h anchor

/-- Automatic re-admission after an isolation (R316). -/
def autoReadmit (h : Hub) (a : Nat) : Hub :=
  let g := guest h a
  if siteState h a = 4 && (g.agentIds.all fun i => agentState h i == 0) && decide (g.autoTries < odNum h (OD.siteAutoReadmit a)) then
    let h := setGuest h a { g with autoTries := g.autoTries + 1 }
    if h.ctlDown then { h with held := h.held ++ [.readmit a] } else readmit h a
  else h

def execAutoReadmit (anchor : Nat) (s : State) : Host.Outcome State Fault Refusal := inData s (isLink anchor) fun h => autoReadmit h anchor

/-! ### Sweeps end -/

/-- Every live home has swept the agent: it is FREE (R206). Leases that its guest's isolation ended become FREE with the last one
(R315), and an admission that waited for the ID goes on. -/
def agentSwept (h : Hub) (i : Nat) : Hub :=
  if !h.sweeps.contains (i + 1, 0, []) then h
  else
    let h := { h with sweeps := h.sweeps.erase (i + 1, 0, []), agents := tdel h.agents i }
    let h := each ((h.guests.filter fun g => g.2.agentIds.contains i && g.2.agentIds.all fun j => agentState h j == 0).map (·.1)) h fun h a =>
      each ((List.range 16).filter fun s => (leaseRec h a s).step == 7) h fun h s => leaseFreed h a s
    each (h.guests.map (·.1)) h fun h a => agentsFree h a

def execAgentSweepDone (agent : Nat) (s : State) : Host.Outcome State Fault Refusal :=
  inData s (decide (agent < 152)) fun h => agentSwept h agent

/-- The sweep of a context, or of a lease's lines, completes once no entry is left to invalidate (R209). -/
def contextSwept (h : Hub) (c : Nat) (only : List Nat) : Hub :=
  if !h.sweeps.contains (0, c, only) then h
  else if !(sweepLeft h c only).isEmpty then sweepWalk h (sweepLeft h c only) only
  else
    let h := { h with sweeps := h.sweeps.erase (0, c, only) }
    if only.isEmpty then (if tget h.teardown c == some 3 then tearRest h c else h)
    else
      let mine := h.guests.flatMap fun g => if g.2.agentIds == only then
          ((List.range 16).filter fun s => (leaseRec h g.1 s).step == 4 && leaseCtx h g.1 s == c).map fun s => (g.1, s) else []
      each mine h fun h e => leaseSwept h e.1 e.2

def execContextSweepDone (ctx : Nat) (agents : List Nat) (s : State) : Host.Outcome State Fault Refusal :=
  inData s (decide (ctx < 8192)) fun h => contextSwept h ctx agents

/-! ### Site power (R559) -/

/-- A power fault of a guest: isolated with cause GUEST_ERR and its rail off; during step 1 of its admission, refused. -/
def powerFault (h : Hub) (s : Nat) : Hub :=
  let a := anchorOf h s
  let h := emit h .gpower s [0]
  if siteState h a = 2 && (guest h s).step == 1 then refuse h s 1
  else if siteState h a = 2 || siteState h a = 3 then
    isolate (setOdNum h (OD.sitePwrFaults s) 4 ((odNum h (OD.sitePwrFaults s) + 1) % 2 ^ 32)) a 3
  else h

/-- A reading of a site regulator every 10 ms: the current in 0.1 A, a fault in STATUS_WORD, or no answer. The hub checks the sites
whose guest it has powered. -/
def ioutPoll (h : Hub) (s iout : Nat) (fault answers : Bool) : Hub :=
  let a := anchorOf h s
  let g := guest h a
  if !(siteState h s == 2 || siteState h s == 3) then h
  else if !answers then powerFault h s
  else
    let h := setOdNum h (OD.siteIoutA s) 2 iout
    let peak := numAt g.desc 32 1
    let n := if decide (peak != 0 ∧ peak * 10 < iout) then tgetD g.overI s 0 + 1 else 0
    let h := setGuest h a { g with overI := tset g.overI s n }
    if fault || decide (800 < iout) || decide (3 ≤ n) then powerFault h s else h

def execSiteIoutPoll (site iout : Nat) (fault answers : Bool) (s : State) : Host.Outcome State Fault Refusal :=
  inData s (decide (site < 32) && decide (iout < 65536)) fun h => ioutPoll h site iout fault answers

end Sys2Proof.Machine
end

