-- ==== Sys2Proof/Machine/Image.lean ====
section
/-!
DEFINITION. Machine/Image.lean: the flash's firmware slots and boot record (R525 to R532), and what the ROM starts (R438, R441, R530).
-/
namespace Sys2Proof.Machine

/-- The life-cycle state of a count of blown cells (R434): 0 Blank, 1 Test, 2 Production, 3 End-of-life. -/
def lcOf (cells : Nat) : Nat := if cells = 0 then 0 else if cells ≤ 2 then 1 else if cells ≤ 4 then 2 else 3

/-- The hub's life-cycle state. -/
def lcState (h : Hub) : Nat := lcOf h.mg.cells

def setFlash (h : Hub) (f : Flash) : Hub := { h with mg := { h.mg with flash := f } }

/-- Slot `n`: 0 A, 1 B. -/
def fwSlot (h : Hub) (n : Nat) : FwSlot := if n = 0 then h.mg.flash.slotA else h.mg.flash.slotB

/-- A new boot record (R526): the slot's state, one more in SEQ. -/
def recSlot (h : Hub) (n : Nat) (s : FwSlot) : Hub :=
  let f := h.mg.flash
  setFlash h (if n = 0 then { f with slotA := s, seq := (f.seq + 1) % 2 ^ 32 } else { f with slotB := s, seq := (f.seq + 1) % 2 ^ 32 })

def recState (h : Hub) (n st : Nat) : Hub := recSlot h n { fwSlot h n with state := st }

/-- A slot turns BAD, and the cause of the fallback with it. -/
def recBad (h : Hub) (n cause : Nat) : Hub :=
  let h := recState h n 5
  setFlash h { h.mg.flash with fallback := cause }

/-- The header of an image is in order (R527, R529): MAGIC, HDR_VER, reserved bytes, HDR_CRC, and a LENGTH of the stated range. -/
def headerOk (b : List Byte) : Bool :=
  decide (numAt b 0 4 = 0x4B465747) && decide (numAt b 4 2 = 1) && decide (numAt b 10 2 = 0)
    && decide (352 ≤ numAt b 16 4) && decide (numAt b 16 4 ≤ 8388608) && (sliceB b 28 228).all (· == 0)
    && decide (numAt b 24 4 = crc32c (sliceB b 0 24 ++ [0, 0, 0, 0] ++ sliceB b 28 228))

/-- The signature over bytes 0 to LENGTH − 97 verifies (R441, R527). -/
def signatureOk (b : List Byte) : Bool :=
  let n := numAt b 16 4
  Config.ecdsaOk (Config.firmwareKey 0) (Config.sha384 (b.take (n - 96))) (sliceB b (n - 96) 96)

/-- A slot's image is signed; the image a hub is delivered with is. -/
def slotSigned (s : FwSlot) : Bool := s.factory || signatureOk s.bytes

/-- Why a slot's image does not run: 0 it runs, 3 header, 1 signature, which Blank and Test do not ask for (R441). -/
def slotFails (h : Hub) (s : FwSlot) : Nat :=
  if s.factory then 0
  else if !headerOk s.bytes then 3
  else if lcState h = 2 && !signatureOk s.bytes then 1
  else 0

/-- FW_VERSION, STORE_VER and MIG_FROM of a slot's image. -/
def slotVer (s : FwSlot) : Nat := if s.factory then Config.factoryVersion % 2 ^ 32 else numAt s.bytes 12 4
def slotStore (s : FwSlot) : Nat := if s.factory then Config.factoryStore % 2 ^ 16 else numAt s.bytes 6 2
def slotMig (s : FwSlot) : Nat := if s.factory then Config.factoryMigFrom % 2 ^ 16 else numAt s.bytes 8 2
/-- SHA-384 of a slot's image. -/
def slotDigest (s : FwSlot) : List Byte := if s.factory then Config.factoryDigest else Config.sha384 (s.bytes.take (numAt s.bytes 16 4))

/-- The slot whose image runs, if one does. -/
def runSlot (h : Hub) : Option FwSlot := h.mg.slot.map (fwSlot h)

def setRun (h : Hub) (n : Option Nat) : Hub := { h with mg := { h.mg with slot := n } }

/-- The slot in a state, if one is. -/
def slotInState (h : Hub) (st : Nat) : Option Nat := [0, 1].find? fun n => (fwSlot h n).state == st

/-- R530 step 3: the ACTIVE slot if it is GOOD and passes, else the other one, which becomes ACTIVE. -/
def romActive (h : Hub) : Hub :=
  let a := h.mg.flash.active
  let good (h : Hub) (n : Nat) : Bool := (fwSlot h n).state == 4
  let f := slotFails h (fwSlot h a)
  if good h a && f = 0 then setRun h (some a)
  else
    let h := if good h a then recBad h a f else h
    let b := 1 - a
    if good h b && slotFails h (fwSlot h b) = 0 then
      setRun (setFlash h { h.mg.flash with active := b, seq := (h.mg.flash.seq + 1) % 2 ^ 32 }) (some b)
    else setRun h none

/-- R530: a slot found in TRIAL is BAD; a PENDING one is tried; else the ACTIVE one runs. In End-of-life nothing runs (R439). -/
def romStart (h : Hub) : Hub :=
  if lcState h = 3 then setRun h none
  else
    let h := match slotInState h 3 with
      | some n => recBad h n 2
      | none => h
    match slotInState h 2 with
    | none => romActive h
    | some n =>
      let h := recState h n 3
      let f := slotFails h (fwSlot h n)
      if f = 0 then setRun h (some n) else romActive (recBad h n f)

/-- Confirmation (R532): the trial slot is GOOD and ACTIVE, and the snapshot is invalidated. -/
def confirmSlot (h : Hub) (n : Nat) : Hub :=
  let h := recState h n 4
  setFlash h { h.mg.flash with active := n, snapshot := none }

end Sys2Proof.Machine
end

