-- ==== Sys2Proof/Machine/Entry.lean ====
section
/-!
DEFINITION. Machine/Entry.lean: the dictionary's entries (R459 to R464, R484): which exist, what they hold, what may be written to them.
-/
namespace Sys2Proof.Machine

/-! ### Which entries there are -/

/-- An entry of a fused resource (R5): it reads as absent. -/
def fusedEntry (v : Variant) (k : Nat) : Bool :=
  let i := k / 256
  let s := k % 256
  (decide (0x4000 ≤ i) && decide (i < 0x4800) && !v.siteOn ((i - 0x4000) / 64)) || (i == 0x6101 && decide (1 ≤ s) && !v.crankOn (s - 1))
    || (i == 0x7011 && decide (1 ≤ s) && decide (s ≤ 32) && !v.siteOn (s - 1))

/-- The row of entry `k` of this hub. -/
def entry? (h : Hub) (k : Nat) : Option OdRow := if fusedEntry h.variant k then none else odRow? k

/-- Access: OD 0x4810+0x40·p.01 is RO (R524). -/
def entryAcc (k : Nat) (r : OdRow) : OdAcc := if k = OD.sitePolicy 32 || k = OD.sitePolicy 33 then .ro else r.acc

/-- An entry whose chapter or R461 makes it volatile though it is RW or expert-RW: the commands, OD 0x8030.01, OD 0x1210.03, the
overlay editor, the per-region sets, OD 0x7000.05, the firmware update's, the trace's and the memory window's. -/
def volatileRw (k : Nat) : Bool :=
  let i := k / 256
  [OD.storeCmd, OD.opdbg, OD.expertActive, OD.expertHold, OD.traceClasses, OD.traceEn].contains k || i == 0xB010 || i == 0xA040
    || (decide (0x5100 ≤ i) && decide (i < 0x5140)) || (decide (0x8080 ≤ i) && decide (i < 0x80C0))
    || (i == 0x1300 && decide (k % 256 ≤ 7))

/-- The entry is stored (R461): RW and expert-RW ones that are not volatile, and the two keys. -/
def isStored (k : Nat) (r : OdRow) : Bool :=
  k == OD.segmentKey || k == OD.expertKey ||
    (match entryAcc k r with
      | .rw | .expertRw => !volatileRw k
      | _ => false)

/-- The security entries (R464). -/
def isSecurity (k : Nat) : Bool :=
  let i := k / 256
  (decide (0x1200 ≤ i) && decide (i < 0x1300)) || (decide (0x3200 ≤ i) && decide (i < 0x3300)) || (decide (0x8000 ≤ i) && decide (i < 0x8100))

/-- What a factory reset and an unreadable store keep (R488, R534). -/
def keptEntry (k : Nat) : Bool := isSecurity k || k == OD.mac

/-- An overlay may hold the entry (R484). -/
def overlayable (k : Nat) (r : OdRow) : Bool :=
  isStored k r && (match entryAcc k r with
      | .rw | .expertRw => true
      | _ => false)
    && decide (r.type.size ≤ 64) && r.type != .domain && !isSecurity k && !(decide (0xB000 ≤ k / 256) && decide (k / 256 ≤ 0xB0FF))

/-- Readable on the sideband (R482). -/
def sideRead (k : Nat) : Bool :=
  let i := k / 256
  let s := k % 256
  i == 0x1000 || (decide (0x7000 ≤ i) && decide (i ≤ 0x70FF)) || (i == 0x8000 && decide (1 ≤ s) && decide (s ≤ 3))
    || (i == 0x8010 && decide (1 ≤ s) && decide (s ≤ 5))

/-- Writable on the sideband (R482, R507). -/
def sideWrite (k : Nat) : Bool := k == OD.rtcAlarm || k == OD.wakeReq

/-- What a hub in End-of-life, or one that runs no image, still answers on the sideband (R439, R531). -/
def identityEntry (k : Nat) : Bool :=
  [OD.part, OD.lcState, OD.lcCells, OD.lcIncomplete, OD.deviceId, OD.idCert, OD.bindCert].contains k

/-! ### Their values -/

/-- The image directory (R536): 256 entries of 128 bytes; a free one reads as zeros (log entry 42). -/
def dirEntry (g : GuestImg) : List Byte :=
  let b := leBytes 2 g.vendor ++ [1, 0] ++ leBytes 4 g.fwId ++ leBytes 4 g.offset ++ leBytes 4 g.data.length ++ leBytes 4 g.seq
    ++ sliceB g.digest 0 48 ++ List.replicate 56 0
  b ++ leBytes 4 (crc32c b)

def guestDirectory (h : Hub) : List Byte :=
  (List.range 256).flatMap fun i => match h.guestImgs.find? fun g => g.entry == i with
    | some g => dirEntry g
    | none => List.replicate 128 0

/-- The running image's store version: the version of the loaded store (R534). -/
def storeVersion (h : Hub) : Nat := ((runSlot h).map slotStore).getD 0

/-- The bins of the stacks (R186): 0xF for one that is absent or has no live port. -/
def stackBins (h : Hub) : Nat :=
  (List.range 8).foldl (fun a n => a + (match livePorts h n with
    | p :: _ => fld h F.memStatusBin p
    | [] => 15) * 16 ^ n) 0

/-- A site that another site's guest covers. -/
def siteCovered (h : Hub) (s : Nat) : Bool := decide (anchorOf h s ≠ s)

/-- A number entry that shows other state, by index and subindex; none where its own value stands in `od`. -/
def viewNum (h : Hub) (k : Nat) : Option Nat :=
  let i := k / 256
  let s := k % 256
  let site := (i - 0x4000) / 64
  if i = 0x6101 then some (if s = 0 then 8 else stnShown h (s - 1))
  else if i = 0x6111 then some (if s = 0 then 8 else stnShown h (0x10 + (s - 1)))
  else if i = 0x6112 then some (if s = 0 then 4 else stnShown h (0x20 + (s - 1)))
  else if i = 0x6121 then some (if s = 0 then 2 else stnShown h (0x30 + (s - 1)))
  else if k = OD.memCapacity then some (usable h)
  else if k = OD.memPortsLive then some (h.live.foldl (fun a p => a + 2 ^ p) 0)
  else if k = OD.memStacks then some (stackBins h)
  else if k = OD.memPortCap then some h.portCap
  else if 0x5100 ≤ i && i < 0x5140 then
    let r := region h (i - 0x5100)
    match s with
    | 4 => some r.state
    | 5 => some r.cmd
    | 6 => some r.fence
    | 7 => some (b2n (r.mirror && r.state != 0 && !r.lost))
    | _ => none
  else if k = OD.cohDirEntries then some (65536 * h.live.length)
  else if k = OD.cohAgentsLive then some (h.agents.filter fun e => e.2 == 1).length
  else if i = 0x5410 && s ≠ 0 then some (Machine.agentState h (s - 1))
  else if k = OD.syncSemsFree then some (131072 - (h.sems.filter fun e => e.2.alloc).length)
  else if k = OD.syncWaitersUsed then some h.waits.length
  else if k = OD.syncBarriersActive then some (h.barriers.filter fun e => e.2.state != 0).length
  else if 0x4000 ≤ i && i < 0x4880 && s ≠ 0 then
    match (i - 0x4000) % 64, s with
    | 0x30, 1 => some (fld h F.spkStatusState site)
    | 0x30, 2 => some (fld h F.spkStatusWidth site)
    | 0x30, 3 => some (fld h F.spkStatusDnSpares site + fld h F.spkStatusUpSpares site * 256)
    | 0, 1 => some (fld h F.siteStatusState site)
    | 0, 2 => if fld h F.siteStatusState site = 3 then none else some 0
    | 0, 3 => if fld h F.siteStatusState site = 3 then none else some 0
    | 0, 4 => some (fld h F.siteStatusVerified site)
    | 0, 15 => some (fld h F.siteStatusRefuse site)
    | 1, 1 => some (fld h F.uciStatusState (site - 32))
    | 1, 2 => some (fld h F.uciStatusRate (site - 32))
    | 1, 3 => some (fld h F.uciStatusX32 (site - 32))
    | 0x10, 1 => if 32 ≤ site then some (odNum h OD.uciPolicy) else if siteCovered h site then some 0 else none
    | 0x10, _ => if siteCovered h site then some 0 else none
    | _, _ => none
  else if k = OD.ctxActive then some ((usedCtx h).filter fun c => ctxLive h c).length
  else if k = OD.atcUsed then some h.atc.length
  else if k = OD.pcieGts then some (if h.pcie.up then h.pcie.gts else 0)
  else if k = OD.pcieWidth then some (if h.pcie.up then h.pcie.width else 0)
  else if k = OD.pcieVfs then some (if (func h 0).vfEn then (func h 0).numVfs else 0)
  else if k = OD.pcieBar4Gib then some (2 ^ (func h 0).bar4Log / 2 ^ 30)
  else if k = OD.lcState then some (lcState h)
  else if k = OD.lcCells then some h.mg.cells
  else if k = OD.lcIncomplete then some (b2n h.mg.lcOdd)
  else if k = OD.dbgOpen then some (b2n (decide (lcState h < 2) || h.mg.ctl.dbgOpen))
  else if k = OD.dbgFails then some h.mg.ctl.dbgFails
  else if k = OD.bindQueued then some h.bindQ.length
  else if k = OD.bindActive then some (h.bindQ.headD 255)
  else if 0x8080 ≤ i && i < 0x80C0 then
    let b := bind h (i - 0x8080)
    match s with
    | 6 => some b.cmd
    | 7 => some b.status
    | 8 => some b.fail
    | _ => none
  else if k = OD.fwVersion then some (((runSlot h).map slotVer).getD 0)
  else if k = OD.ctlRestarts then some (h.ctlStarts - 1)
  else if k = OD.epoch then some h.mg.epoch
  else if k = OD.storeGen then some ((h.mg.flash.store.map (·.gen)).getD 0)
  else if k = OD.storePending then some (b2n h.mg.ctl.dirty)
  else if k = OD.storeOk then some (b2n h.mg.ctl.storeOk)
  else if k = OD.storeCmd then some (b2n h.mg.ctl.reset)
  else if k = OD.keysSet then some (b2n (tget h.od OD.segmentKey).isSome + 2 * b2n (tget h.od OD.expertKey).isSome)
  else if k = OD.dadFailed then some (b2n (decide (h.mg.dad = 2)))
  else if k = OD.ovlCount then some h.mg.ctl.overlays.length
  else if k = OD.pwrState then some h.pwr.state
  else if k = OD.vddLevel then some h.pwr.level
  else if k = OD.rtc then some h.pwr.rtc
  else if k = OD.powerW then some (fld h F.pwrStatusPowerW)
  else if k = OD.fwuState then some h.mg.fwu.state
  else if k = OD.fwuOffset then some h.mg.fwu.bytes.length
  else if k = OD.fwuResult then some h.mg.fwu.result
  else if k = OD.slotState then
    some (h.mg.flash.slotA.state + h.mg.flash.slotB.state * 16 + h.mg.flash.active * 256 + (h.mg.slot.getD 0) * 512)
  else if k = OD.slotVerA then some (if h.mg.flash.slotA.state < 2 then 0 else slotVer h.mg.flash.slotA)
  else if k = OD.slotVerB then some (if h.mg.flash.slotB.state < 2 then 0 else slotVer h.mg.flash.slotB)
  else if k = OD.storeVer then some (storeVersion h)
  else if k = OD.fallback then some h.mg.flash.fallback
  else if k = OD.faultLost then some (fld h F.faultLostCountLostCnt)
  else if k = OD.traceClasses then some (fld h F.trcMaskClass)
  else if k = OD.traceEn then some (fld h F.trcCtlEn)
  else if k = OD.tjTrips then some h.mg.trips
  else none

/-- A name padded with zeros to 8 bytes. -/
def name8 (n : List Byte) : List Byte := sliceB n 0 8

/-- A byte-string entry that shows other state. -/
def viewBytes (h : Hub) (k : Nat) : Option (List Byte) :=
  let blank := h.mg.cells == 0
  if k = OD.idPubkey then some (if blank then List.replicate 96 0 else sliceB Config.idPubkey 0 96)
  else if k = OD.bindPubkey then some (if blank then List.replicate 96 0 else sliceB Config.bindPubkey 0 96)
  else if k = OD.idCert then some (if blank then [] else Config.idCert)
  else if k = OD.bindCert then some (if blank then [] else Config.bindCert)
  else if k = OD.ovlActive then some (name8 h.mg.ctl.active)
  else if k = OD.ovlList then some (sliceB (h.mg.ctl.overlays.flatMap fun o => name8 o.name) 0 128)
  else if k = OD.guestDir then some (guestDirectory h)
  else if k = OD.traceBuf then some h.trcBuf.flatten
  else if decide (0x8080 ≤ k / 256) && decide (k / 256 < 0x80C0) && k % 256 == 9 then some (sliceB (bind h (k / 256 - 0x8080)).digest 0 48)
  else none

/-- The value of an entry as a reader sees it: of its type's size, a DOMAIN's content; a WO entry reads as zeros (R459, R460). -/
def entryValue (h : Hub) (k : Nat) (r : OdRow) : List Byte :=
  if entryAcc k r = .wo then List.replicate r.type.size 0
  else match viewBytes h k with
    | some b => b
    | none => match r.type with
      | .domain => (tget h.od k).getD []
      | .str n => odBytes h k n
      | .blob n => odBytes h k n
      | _ => leBytes r.type.size ((viewNum h k).getD (odNum h k))

/-! ### What may be written -/

/-- The stored value of an entry that nothing has set. -/
def defaultBytes (v : Variant) (k : Nat) (r : OdRow) : List Byte :=
  match r.type with
  | .str _ => []
  | .blob n => List.replicate n 0
  | .domain => []
  | _ => leBytes r.type.size (odDefault v k)

/-- The length fits the type (R459). -/
def lenOk (r : OdRow) (n : Nat) : Bool :=
  match r.type with
  | .str m => decide (n ≤ m)
  | .domain => false
  | _ => n == r.type.size

/-- Link-local, or all zero (OD 0x1020.09). -/
def listenerOk (b : List Byte) : Bool :=
  (List.range 4).all fun i => let a := sliceB b (16 * i) 16; a.all (· == 0) || (beNat (a.take 2) / 64 == 0xFE80 / 64)

/-- Ranges that a row's Meaning states in words, and code 5 for what lies outside (R459). A field the Meaning does not name is
reserved, and must be 0 (DEDUCED, log entry 43). -/
def meaningOk (h : Hub) (k : Nat) (b : List Byte) : Bool :=
  let n := leNat b
  let i := k / 256
  let s := k % 256
  if k = OD.crankClkMax then n % 100 == 0
  else if k = OD.memBinMin then decide (n ≤ odNum h OD.memBinMax)
  else if k = OD.trainLoadPct then n == 0 || (decide (50 ≤ n) && decide (n ≤ 90))
  else if k = OD.mirrorReserve then
    n % 64 == 0 && decide (n ≤ 4096) && (n == 0 || h.portCap == 0 || decide (n * 2 ^ 20 < h.portCap))
  else if 0x5100 ≤ i && i < 0x5140 && s = 1 then n % 2 ^ 21 == 0
  else if 0x5100 ≤ i && i < 0x5140 && s = 2 then n % 2 ^ 21 == 0 && n != 0
  else if i = 0x3200 then b.all (· == 0) || Config.onCurve (sliceB b 4 96)
  else if k = OD.uciRateMax then [16, 24, 32].contains n
  else if k = OD.pcieMaxGts then [16, 32, 64].contains n
  else if OD.regMap 0 ≤ k && k ≤ OD.regMap 3 then (mapOwners [n]).all fun x => decide (x < 5) || x == 15
  else if k = OD.podVlan then !bitOf n 12
  else if k = OD.podBeatMs then decide (4 * n ≤ odNum h OD.podWdogMs)
  else if i = 0x9002 && s ≠ 0 then decide (n < 2 ^ 29) && decide (n / 2 ^ 16 ≤ 4096)
  else if 0x8080 ≤ i && i < 0x80C0 && s = 2 then decide (n < 8192)
  else if 0x8080 ≤ i && i < 0x80C0 && s = 3 then n % 4096 == 0
  else if 0x8080 ≤ i && i < 0x80C0 && s = 5 then (List.range 8).all fun j => numAt b (2 * j) 2 / 2 ^ 13 % 4 == 0
  else if 0x8080 ≤ i && i < 0x80C0 && s = 6 then n == 1 || n == 2
  else if k = OD.storeCmd then decide (n ≤ 1)
  else if k = OD.plcaNode then n != 255 || !odOn h OD.plcaEn
  else if k = OD.mac then decide (n < 2 ^ 48) && !bitOf n 40
  else if k = OD.notifyDest then listenerOk b
  else if k = OD.ovlActive then (let m := b.takeWhile (· != 0); m.isEmpty || h.mg.ctl.overlays.any fun o => o.name == m)
  else if k = OD.ovlEditCmd then decide (1 ≤ n) && decide (n ≤ 5)
  else if k = OD.ovlEditEntry then decide (n < 2 ^ 24)
  else if k = OD.parkAfterMs then n == 0 || (decide (10 ≤ n) && decide (n ≤ 600000))
  else if k = OD.wakeReq then n == 1
  else if k = OD.fwuGuest then decide (n < 2 ^ 48)
  else if k = OD.fwuLength then
    (if odNum h OD.fwuTarget = 0 then decide (352 ≤ n) && decide (n ≤ 8388608) else decide (1 ≤ n) && decide (n ≤ 67108864))
  else if k = OD.fwuCmd then decide (1 ≤ n) && decide (n ≤ 7)
  else if k = OD.autoConfirmS then n == 0 || (decide (10 ≤ n) && decide (n ≤ 86400))
  else if k = OD.traceClasses then decide (n < 2 ^ 8)
  else if k = OD.dbgMemDpa then n % 32 == 0
  else if k = OD.dbgMemCmd then n == 1
  else if 0x4020 ≤ i && i < 0x4820 && i % 64 == 0x20 && s = 2 then n == 0 || (decide (8 ≤ n) && decide (n ≤ 0x77))
  else true

/-- A value inside its type's legal values, its row's range and its Meaning (R459). -/
def legalValue (h : Hub) (k : Nat) (r : OdRow) (b : List Byte) : Bool :=
  (match r.type with
    | .bool => decide (leNat b ≤ 1)
    | .str _ => b.all fun c => decide (0x20 ≤ c.toNat) && decide (c.toNat ≤ 0x7E)
    | _ => true)
  && (match r.range with
    | .any => true
    | .range lo hi => decide (lo ≤ leNat b) && decide (leNat b ≤ hi))
  && meaningOk h k b

/-- The entry's own condition forbids the write now (R462 code 7). -/
def stateForbids (h : Hub) (k : Nat) (b : List Byte) : Bool :=
  let i := k / 256
  let s := k % 256
  if k = OD.regMapEn then leNat b == 1 && !mapOk (mapOwners ((List.range 4).map fun j => odNum h (OD.regMap j)))
  else if i = 0x9002 && s ≠ 0 then
    (match tget h.podBar (s - 1) with
      | some x => !x.arrived.isEmpty
      | none => false)
  else if 0x5100 ≤ i && i < 0x5140 && 1 ≤ s && s ≤ 3 then (region h (i - 0x5100)).state != 0
  else if 0x8080 ≤ i && i < 0x80C0 && s = 1 then (region h (i - 0x8080)).state != 0
  else if 0x8080 ≤ i && i < 0x80C0 && 2 ≤ s && s ≤ 4 then h.bindQ.contains (i - 0x8080)
  else false

/-- The code with which a value is refused for entry `k`: 6 length, 5 value, 7 state, 0 none. -/
def valueCode (h : Hub) (k : Nat) (r : OdRow) (b : List Byte) : Nat :=
  if !lenOk r b.length then 6 else if !legalValue h k r b then 5 else if stateForbids h k b then 7 else 0

/-! ### Describe (R463) -/

/-- The type's code. -/
def OdType.code : OdType → Nat
  | .bool => 1 | .u8 => 2 | .u16 => 3 | .u32 => 4 | .u64 => 5 | .i32 => 6 | .str _ => 9 | .blob _ => 10 | .domain => 11

/-- The descriptor of entry `k`. -/
def descriptor (h : Hub) (k : Nat) (r : OdRow) : List Byte :=
  let acc := match entryAcc k r with
    | .ro => 0 | .rw => 1 | .wo => 2 | .const => 3 | .expertRw => 4
  let size := if r.type = .domain then (entryValue h k r).length else r.type.size
  leBytes 2 (k / 256) ++ leBytes 1 (k % 256) ++ leBytes 1 r.type.code ++ leBytes 4 size
    ++ leBytes 1 (acc + 8 * b2n (r.level == .expert) + 16 * b2n (isStored k r) + 32 * b2n (overlayable k r))
    ++ leBytes 1 (b2n (sideRead k) + 2 * b2n (sideWrite k)) ++ List.replicate 6 0

/-- The first entry of a row at or after `k`, on this hub. -/
def rowFirst (h : Hub) (r : OdRow) (k : Nat) : Option Nat :=
  ((List.range r.count).flatMap fun i => (List.range (r.subHi + 1 - r.subLo)).map fun s => (r.base + r.stride * i) * 256 + r.subLo + s).find?
    fun e => decide (k ≤ e) && !fusedEntry h.variant e

/-- The first entry at or after `k`. -/
def firstEntry (h : Hub) (k : Nat) : Option Nat :=
  (odRows.filterMap fun r => rowFirst h r k).foldl (fun m e => match m with
    | none => some e
    | some x => some (Nat.min x e)) none

end Sys2Proof.Machine
end

