-- ==== Sys2Proof/Machine/Store.lean ====
section
/-!
DEFINITION. Machine/Store.lean: the stored configuration (R461, R483 to R488): base values, overlays, commits, and what a control-half
start loads (R488, R533, R534).
-/
namespace Sys2Proof.Machine

def setCtl (h : Hub) (c : Ctl) : Hub := { h with mg := { h.mg with ctl := c } }

/-! ### Effective values (R485) -/

/-- The active overlay. -/
def activeOverlay (c : Ctl) : Option Overlay := if c.active.isEmpty then none else c.overlays.find? fun o => o.name == c.active

/-- The active overlay holds entry `k`. -/
def heldByOverlay (h : Hub) (k : Nat) : Bool :=
  match activeOverlay h.mg.ctl with
  | some o => (tget o.vals k).isSome
  | none => false

/-- The effective value under an overlay; none is the default. -/
def effective (h : Hub) (o : Option Overlay) (k : Nat) : Option (List Byte) :=
  match o with
  | some o => match tget o.vals k with
    | some b => some b
    | none => tget h.mg.ctl.base k
  | none => tget h.mg.ctl.base k

/-- The effective value's bytes. -/
def effectiveBytes (h : Hub) (o : Option Overlay) (k : Nat) : List Byte :=
  match effective h o k, odRow? k with
  | some b, _ => b
  | none, some r => defaultBytes h.variant k r
  | none, none => []

/-- The effective value of `k` in place. -/
def putEffective (h : Hub) (o : Option Overlay) (k : Nat) : Hub :=
  match effective h o k with
  | some b => { h with od := tset h.od k b }
  | none => { h with od := tdel h.od k }

/-! ### What a changed value does beside being stored -/

/-- Wheels drop the maps that APPLY loaded, and the expert map in force follows OD 0x3400 (R386, R389). -/
def mapChange (h : Hub) : Hub :=
  let h := { h with wheels := h.wheels.map fun (e : Nat × Wheel) => (e.1, { e.2 with loaded := none }) }
  { h with mg := { h.mg with map := if odOn h OD.regMapEn then some (mapOwners ((List.range 4).map fun j => odNum h (OD.regMap j))) else none } }

/-- The highest clock of a level (R502). -/
def levelClk (l : Nat) : Nat := [0, 1000, 1300, 1600, 1800].getD l 1800

/-- The clock limit in force (R502): the level's, OD 0x6100.01's and the limiter's; while a level change is under way or has failed,
the lower of the old level's and the new one's (R503, R504). -/
def clkLimit (h : Hub) : Nat :=
  let p := h.pwr
  let l := Nat.min (levelClk p.level) (Nat.min (odNum h OD.crankClkMax) p.limClk)
  if p.avs.busy || p.avs.retry then Nat.min l (levelClk p.avs.level) else l

/-- The clock follows its limits. -/
def reclk (h : Hub) : Hub := { h with pwr := { h.pwr with clk := clkLimit h } }

/-- The operator's debug session ends (R445). -/
def closeOpdbg (h : Hub) : Hub := setOdNum (setCtl h { h.mg.ctl with opHolder := none }) OD.opdbg 1 0

/-- An expert session ends, and the operator debug session opened in it (R465). -/
def endSession (h : Hub) (path peer : Nat) : Hub :=
  let c := h.mg.ctl
  let h := if path = 2 then setFld (setCtl h { c with expMbx := false }) F.mbxStatusExpert 0 0
    else setCtl h { c with expField := c.expField.erase peer }
  if h.mg.ctl.opHolder = some (path, peer) then closeOpdbg h else h

/-- Every expert session ends. -/
def endSessions (h : Hub) : Hub :=
  let h := each h.mg.ctl.expField h fun h p => endSession h 1 p
  endSession h 2 0

/-- What writing entry `k` does at once. -/
def entryEffect (h : Hub) (k : Nat) : Hub :=
  if k = OD.regPreset || k = OD.regMapEn then mapChange h
  else if k = OD.crankClkMax then reclk h
  else if k = OD.expertKey then endSessions h
  else if k = OD.mac then { h with mg := { h.mg with dad := 0 } }
  else if k = OD.plcaEn then (if odOn h OD.plcaEn then h else setCtl h { h.mg.ctl with plca := false })
  else h

/-! ### Commits (R461) -/

/-- A commit of the base, the overlays and a pending factory reset as a new generation. -/
def commitStore (h : Hub) : Hub :=
  let c := h.mg.ctl
  let g := (h.mg.flash.store.map (·.gen)).getD 0
  let s : Store := { gen := (g + 1) % 2 ^ 32, ver := storeVersion h, base := c.base, overlays := c.overlays, active := c.active, reset := c.reset }
  setCtl (setFlash h { h.mg.flash with store := some s }) { c with dirty := false, storeOk := true }

/-- A commit fails: STORE_FAIL; its DETAIL is the newest committed generation's number. -/
def commitFails (h : Hub) : Hub :=
  let h := setCtl h { h.mg.ctl with storeOk := false }
  deliverNotice h 5 ((h.mg.flash.store.map (·.gen)).getD 0)

/-- Pending writes are committed, or the commit fails; the first try within 2 s, later ones every 10 s. -/
def tryCommit (h : Hub) (ok again : Bool) : Hub :=
  let c := h.mg.ctl
  if !ctlUp h || !c.dirty || c.storeOk == again then h
  else if ok then commitStore h else commitFails h

def execStoreCommit (ok : Bool) (s : State) : Host.Outcome State Fault Refusal := act s fun h => tryCommit h ok false
def execStoreCommitRetry (ok : Bool) (s : State) : Host.Outcome State Fault Refusal := act s fun h => tryCommit h ok true

/-- Stored values wait for their commit. -/
def markDirty (h : Hub) : Hub := setCtl h { h.mg.ctl with dirty := true }

/-! ### Overlays (R486) -/

/-- The entries two overlays hold, rising. -/
def overlayKeys (a b : Option Overlay) : List Nat :=
  let ks (o : Option Overlay) : List Nat := match o with
    | some o => o.vals.map (·.1)
    | none => []
  sortBy (fun x y => decide (x ≤ y)) (ks a ++ (ks b).filter fun k => !(ks a).contains k)

/-- Each change of `ks` to its effective value under `o` is checked as a write, in order. -/
def checkChanges (o : Option Overlay) : List Nat → Hub → Bool
  | [], _ => true
  | k :: r, h =>
    match entry? h k with
    | none => false
    | some row => valueCode h k row (effectiveBytes h o k) == 0 && checkChanges o r (putEffective h o k)

/-- Overlay `name` becomes the active one: the code of its refusal, or 0 with every change applied in order. -/
def switchOverlay (h : Hub) (name : List Byte) : Nat × Hub :=
  let c := h.mg.ctl
  let new := if name.isEmpty then none else c.overlays.find? fun o => o.name == name
  let ks := overlayKeys (activeOverlay c) new
  if !checkChanges new ks h then (7, h)
  else
    let h := each ks h fun h k => entryEffect (putEffective h new k) k
    (0, markDirty (setCtl h { h.mg.ctl with active := name }))

/-! ### A control-half start (R488, R534) -/

/-- The running image and the store: 0 it loads, 1 it migrates, 2 the image cannot, 3 the snapshot is restored, 4 defaults. -/
def storeCase (h : Hub) : Nat :=
  match h.mg.flash.store with
  | none => 0
  | some s =>
    let v := storeVersion h
    if s.ver = v then 0
    else if s.ver < v then (if ((runSlot h).map slotMig).getD 0 ≤ s.ver then 1 else 2)
    else match h.mg.flash.snapshot with
      | some n => if n.ver = v then 3 else 4
      | none => 4

/-- The values of a store become the base, the overlays and the active overlay's name. -/
def takeStore (h : Hub) (s : Store) : Hub :=
  let od := dropIf h.od fun e => match odRow? e.1 with
    | some r => isStored e.1 r
    | none => false
  let h := { h with od := s.base.foldl (fun t e => tset t e.1 e.2) od }
  setCtl h { h.mg.ctl with base := s.base, overlays := s.overlays, active := [], dirty := false, storeOk := true, reset := s.reset }

/-- The kept entries of a store alone (R488, R534). -/
def keptStore (s : Store) : Store := { s with base := s.base.filter (fun e => keptEntry e.1), overlays := [], active := [], reset := false }

/-- The loaded store after its version check: the store in force and whether STORE_FAIL is due. -/
def versionStore (h : Hub) : Hub × Store × Bool :=
  let v := storeVersion h
  let f := h.mg.flash
  match f.store with
  | none => (h, {}, false)
  | some s =>
    let g := (s.gen + 1) % 2 ^ 32
    match storeCase h with
    | 1 => let t := { s with ver := v, gen := g }; (setFlash h { f with snapshot := some s, store := some t }, t, false)
    | 3 => let t := { (f.snapshot.getD {}) with gen := g }; (setFlash h { f with snapshot := none, store := some t }, t, false)
    | 4 => (h, keptStore s, true)
    | _ => (h, s, false)

/-- The control half loads the base, carries out a pending factory reset, and applies the named overlay; where that fails its check,
the base alone is used. Whether STORE_FAIL is due is answered. -/
def loadStore (h : Hub) : Hub × Bool :=
  let (h, s, bad) := versionStore h
  let wipe := s.reset
  let s := if wipe then keptStore s else s
  let h := takeStore h s
  let h := if wipe then commitStore h else h
  let h := mapChange h
  if s.active.isEmpty then (h, bad)
  else match switchOverlay h s.active with
    | (0, h) => (setCtl h { h.mg.ctl with dirty := false }, bad)
    | (_, h) => (markDirty h, true)

end Sys2Proof.Machine
end

