-- ==== Sys2Proof/Machine/Stem.lean ====
section
/-!
DEFINITION. Machine/Stem.lean: the two halves and the stem link between them (R16 to R20): the control half going down and coming
back, and what it finds then.
-/
namespace Sys2Proof.Machine

/-! ### Freezing and resuming (R18) -/

/-- Every queue is looked at again. -/
def runAll (h : Hub) : Hub := each h.queues h fun h e => later h (.run (e.1 / 64) (e.1 % 64))

/-- The data half leaves the frozen state and dispatch restarts. One frozen on a fatal source does not (R19). -/
def unfreeze (h : Hub) : Hub := if frozen h && h.frozenBy = 0 then runAll (setFld h F.hubStatusFrozen 0 0) else h

def execStemResume (s : State) : Host.Outcome State Fault Refusal := inData s true unfreeze

/-- STEM.FREEZE: frozen at once, and answered with STEM.BEAT. -/
def execStemFreeze (s : State) : Host.Outcome State Fault Refusal :=
  inData s true fun h => emit (freeze h) .stemBeat 0 [1, h.dataStarts]

/-- 500 ms after the last beat. -/
def execRideThroughFreeze (s : State) : Host.Outcome State Fault Refusal :=
  inData s true fun h => if flag h F.hubStatusRideThrough && dataUp h then setFld (freeze h) F.hubStatusRideMs 0 500 else h

/-! ### The control half goes down -/

/-- Entries of the control half that its restart does not return to their defaults: counts since power-up, and the wake record. -/
def keptOd (k : Nat) : Bool := [OD.fatalCount, OD.opdbgCount, OD.wakeSource, OD.wakeFrom, OD.wakeRtc, OD.wakeCount].contains k

/-- Registers the control half serves are reset with it. -/
def ctlBlock (b : Block) : Bool :=
  match b with
  | .boot => true
  | .mbx => true
  | .pwr => true
  | .trc => true
  | .fault => true
  | _ => false

/-- What the control half alone holds returns to its value at its start (R461): volatile entries, sessions, nonces, peers, the rings. -/
def clearCtl (h : Hub) : Hub :=
  let h := resetRegs h fun r _ => ctlBlock r.info.block
  let od := dropIf h.od fun e => match odRow? e.1 with
    | some r => !isStored e.1 r && !dataOd e.1 && !keptOd e.1
    | none => true
  let c := h.mg.ctl
  { h with
    od := od, noteRing := [], nseq := 0, notifies := [], notifySeq := 0, faultRing := [], faultSeq := 0, trcBuf := [], trcN := 0
    trcLeft := none
    mg := { h.mg with
      fwu := {}, dad := 0, slot := none
      ctl := { base := c.base, overlays := c.overlays, active := c.active, dirty := c.dirty, storeOk := c.storeOk, reset := c.reset } } }

/-- A bring-up is running (one cut short by the control half's restart is not, R519). -/
def bringingUp (h : Hub) : Bool := h.pwr.on && !flag h F.hubStatusReady && decide (fld h F.bootStatusPhase < 8) && h.mg.resume == 0

/-- The control half stops: what it was doing with the data half is remembered, and a data half in bring-up is held in reset (R519). -/
def ctlRestart (h : Hub) : Hub :=
  if h.ctlDown && !bringingUp h then h
  else
    let what := if bringingUp h then (if h.warmRun then 2 else 1) else if fld h F.bootStatusPhase = 15 then 3 else 0
    let h := if bringingUp h then dataDown h else h
    let h := setFld (clearCtl h) F.hubStatusCtlUp 0 0
    { h with ctlDown := true, mg := { h.mg with resume := what } }

/-- A half misses the other's beats for 100 µs: the data half sets RIDE_THROUGH and goes on. The control half's own missing of the data
half's beats changes nothing of its state. -/
def beatsMissed (h : Hub) (ofControl : Bool) : Hub :=
  if !ofControl then h
  else
    let h := ctlRestart h
    if dataUp h then setFld h F.hubStatusRideThrough 0 1 else h

def execStemBeatTimeout (ofControl : Bool) (s : State) : Host.Outcome State Fault Refusal :=
  act s fun h => if h.dead != 0 || !h.pwr.on then h else beatsMissed h ofControl

/-- STEM.BEAT goes out every 10 µs, with the sender's restart count. -/
def execStemBeatSend (fromControl : Bool) (s : State) : Host.Outcome State Fault Refusal :=
  act s fun h =>
    if h.dead != 0 then h
    else if fromControl then (if ctlUp h then emit h .stemBeat 1 [0, h.ctlStarts] else h)
    else if h.dataReset then h else emit h .stemBeat 0 [1, h.dataStarts]

/-- STEM.BEAT comes in: the timer of R16 starts again, and the restart count is noted. -/
def execStemBeat (fromControl : Bool) (count : Nat) (s : State) : Host.Outcome State Fault Refusal :=
  act s fun h => { h with mg := if fromControl then { h.mg with seenCtl := count } else { h.mg with seenData := count } }

/-- A stem word in error: the link resynchronises and resends, or fails to; a third failure in a row is a restart of the far half. -/
def stemWordUe (h : Hub) (ok : Bool) : Hub :=
  if ok then raise { h with resyncFail := 0 } E.hubStemResync
  else if 2 ≤ h.resyncFail then beatsMissed { h with resyncFail := 0 } true
  else { h with resyncFail := h.resyncFail + 1 }

def execStemWordUe (ok : Bool) (s : State) : Host.Outcome State Fault Refusal :=
  act s fun h => if h.dead != 0 || !h.pwr.on then h else stemWordUe h ok

/-- The watchdog of R458, and an uncorrectable SRAM error (R456), restart the control half. -/
def execMgmtWatchdog (s : State) : Host.Outcome State Fault Refusal := act s fun h => if h.dead != 0 then h else ctlRestart h
def execSramUe (s : State) : Host.Outcome State Fault Refusal := act s fun h => if h.dead != 0 then h else ctlRestart h

/-- HUB.CTL.CTL_RESTART: dropped where the operator forbids it (R31); reads 1 until CTL_UP is 1 again. -/
def hubCtlRestart (h : Hub) : Hub :=
  if h.dead != 0 then h
  else if !odOn h OD.drvResetOk then regDropped h
  else if flag h F.hubCtlCtlRestart then h
  else ctlRestart (setFld h F.hubCtlCtlRestart 0 1)

def execHubCtlCtlRestart (s : State) : Host.Outcome State Fault Refusal := act s hubCtlRestart

/-! ### HUB.CTL.DATA_RESET (R30, R519) -/

/-- Ignored while CTL_UP is 0; dropped where the operator forbids it or a bring-up runs; after a failed one, accepted. -/
def hubDataReset (h : Hub) : Hub :=
  if h.dead != 0 then h
  else if !odOn h OD.drvResetOk then regDropped h
  else if !ctlUp h then h
  else if bringingUp h then regDropped h
  else dataHalfReset (setFld h F.hubCtlDataReset 0 1)

def execHubCtlDataReset (s : State) : Host.Outcome State Fault Refusal := act s hubDataReset

/-! ### The control half returns (R18, R19, R540, R544) -/

/-- The ROM reads the life-cycle count and completes an odd one, where the cell blows (R438). -/
def lifeCycleBoot (h : Hub) (blows : Bool) : Hub :=
  let odd := h.mg.cells % 2 == 1
  { h with mg := { h.mg with lcOdd := odd, cells := if odd && blows then h.mg.cells + 1 else h.mg.cells } }

/-- The image of slot `k` cannot read the store (R534): its slot turns BAD, and the control half restarts once more (R458). -/
def storeUnread (h : Hub) (k : Nat) : Hub :=
  let h := recBad { h with ctlStarts := h.ctlStarts + 1 } k 4
  { h with mg := { h.mg with epoch := (h.mg.epoch + 1) % 2 ^ 32 } }

/-- The ROM picks an image, and the image loads the store; one that cannot read the store turns its slot BAD and the ROM picks again
(R530, R534). Whether STORE_FAIL is due is answered. -/
def firmwareStart : Nat → Hub → Hub × Bool
  | 0, h => (setRun h none, false)
  | n + 1, h =>
    let h := romStart h
    match h.mg.slot with
    | none => (h, false)
    | some k => if storeCase h = 2 then firmwareStart n (storeUnread h k) else loadStore h

/-- A queued entry of the stem is written: a notice under its number, numbers skipped for those lost before it, or a fault record. -/
def stemEntry (h : Hub) (n : Notice) : Hub :=
  let h := { h with nseq := h.nseq + n.lost }
  match n.record with
  | some b => ringWrite h b
  | none => deliverNotice h n.code n.detail

/-- The stem queue is emptied in order (R544). The fault records that found it full consumed their `SEQ` behind those in it (R543);
LOST_CNT, which started again with the control half, has counted them. -/
def stemDrain (h : Hub) : Hub :=
  let ns := h.notices
  let lost := h.noticeLost
  let recs := fld h F.faultLostCountLostCnt
  let h := each ns { h with notices := [], noticeLost := 0 } stemEntry
  { h with nseq := h.nseq + lost, faultSeq := (h.faultSeq + recs) % 2 ^ 32 }

def execStemNotice (s : State) : Host.Outcome State Fault Refusal :=
  act s fun h => match h.notices with
    | n :: r => if ctlUp h then stemEntry { h with notices := r } n else h
    | [] => h

/-- The control half is up: its epoch, its first notice, the queued ones. -/
def ctlServes (h : Hub) (storeBad : Bool) : Hub :=
  let h := setFld (setFld (setFld h F.hubStatusCtlUp 0 1) F.hubStatusRideThrough 0 0) F.hubStatusRideMs 0 0
  let h := setFld h F.hubCtlCtlRestart 0 0
  let h := { h with ctlDown := false, resyncFail := 0, mg := { h.mg with epoch := (h.mg.epoch + 1) % 2 ^ 32 } }
  let h := stemDrain (deliverNotice h 1 h.mg.epoch)
  if storeBad then deliverNotice h 5 ((h.mg.flash.store.map (·.gen)).getD 0) else h

/-- Work held while the control half was down, in arrival order (R17). -/
def heldWork (h : Hub) : Hub :=
  let ws := h.held
  fwNext (each ws { h with held := [] } fun h w => match w with
    | .ctxCreate c => createCtx h c
    | .ctxTeardown c => teardownCtx h c
    | .admission s => startAdmit h s
    | .readmit a => readmit h a)

/-- The sources the data half could not report are counted; the first is recorded and raises DATA_FATAL (R19, R540). -/
def reportFatal (h : Hub) : Hub :=
  let src := h.frozenBy
  let n := h.fatalPend
  let new := h.mg.fatalNew
  let h := { h with fatalPend := 0, mg := { h.mg with fatalNew := false } }
  let h := if new then countFatal h src true else setOdNum h OD.fatalLast 1 src
  each (List.range (if new then n - 1 else n)) h fun h _ => countFatal h src false

/-- What the returning control half does with the data half. -/
def meetData (h : Hub) : Hub :=
  if h.mg.resume = 3 then setFld h F.bootStatusPhase 0 15
  else if h.mg.resume = 2 then dataHalfReset h
  else
    let h := if flag h F.hubStatusReady then setFld h F.bootStatusPhase 0 8 else h
    if !dataUp h then h
    else if h.frozenBy != 0 then
      let h := emit (reportFatal h) .stemFreeze 0
      if odOn h OD.fatalAutoReset then dataHalfReset h else h
    else heldWork (unfreeze (emit h .stemResume 0))

/-- No image runs: the data half is held in reset (R531), and in End-of-life it is never powered (R439). -/
def noImage (h : Hub) : Hub :=
  let h := setFld (dataDown h) F.hubStatusDataResetting 0 0
  { h with mg := { h.mg with resume := 3 } }

/-- CTL_HALF_RETURN. After a restart in a cold bring-up, only the ROM's phase has begun: the later phases follow (R519). -/
def ctlReturn (h : Hub) (blows : Bool) : Hub :=
  if h.dead != 0 || !h.pwr.on || !h.ctlDown || bringingUp h then h
  else
    let h := { h with ctlStarts := h.ctlStarts + 1 }
    let cold := h.mg.resume == 1
    let h := if cold then h else lifeCycleBoot h blows
    if cold then beginBringUp { h with mg := { h.mg with resume := 0 } } false 1
    else
      let (h, bad) := firmwareStart 3 h
      if h.mg.slot.isNone then noImage h
      else
        let h := raise (meetData (ctlServes h bad)) E.hubCtlRestarted
        { h with mg := { h.mg with resume := 0 } }

def execCtlHalfReturn (cellBlows : Bool) (s : State) : Host.Outcome State Fault Refusal := act s fun h => ctlReturn h cellBlows

/-- STEM.DICT: a value pushed into the data half, or asked for at its start; either way the effective value crosses the link. -/
def execStemDict (entry : Nat) (s : State) : Host.Outcome State Fault Refusal :=
  act s fun h => if h.ctlDown || h.dead != 0 then h
    else match entry? h entry with
      | some r => emit h .stemDict 0 [entry] (entryValue h entry r)
      | none => h

end Sys2Proof.Machine
end

