-- ==== Sys2Proof/Machine/Boot.lean ====
section
/-!
DEFINITION. Machine/Boot.lean: cold boot and warm restart (R508 to R511, R519, R520), power applied and lost (R561).
-/
namespace Sys2Proof.Machine

/-! ### Power applied and lost -/

/-- What a hub keeps without power: its fuses, OTP cells and flash, the counts it stores itself (R434, R458, R525, R566), the always-on
island's RTC, wake record and outputs where VDD_AON stayed (R501, R563), guests that are fitted; and, in Kickstand-retain, HBM (R499). The world's side
(host memory, what was sent) is not the hub's to lose. -/
def offHub (h : Hub) (aon keepHbm : Bool) : Hub :=
  let wake := h.od.filter fun e => [OD.wakeSource, OD.wakeFrom, OD.wakeRtc, OD.wakeCount].contains e.1
  { variant := h.variant, freeN := h.freeN, out := h.out, hostMem := h.hostMem, present := h.present, guestImgs := h.guestImgs
    od := if aon then wake else []
    hbm := if keepHbm then h.hbm else [], poison := if keepHbm then h.poison else []
    mg := { cells := h.mg.cells, lcOdd := h.mg.lcOdd, flash := h.mg.flash, epoch := h.mg.epoch, trips := h.mg.trips }
    pwr := { rtc := if aon then h.pwr.rtc else 0, tripLow := aon && h.pwr.tripLow, wakeLow := aon && h.pwr.wakeLow }
    pcie := { perst := h.pcie.perst } }

/-- Supplies are lost (R561): whatever was running is gone. -/
def execPowerLoss (aon : Bool) (s : State) : Host.Outcome State Fault Refusal := act s fun h => offHub h (!aon) false

/-- Phase 0 begins (R508, R560): the always-on island starts and drives PWR_ON high, the ROM starts. -/
def powerUp (h : Hub) : Hub := beginBringUp { emit h .pwrOn 0 [1] with pwr := { h.pwr with on := true } } false 0

/-- Phase 2 begins: DATA_EN is high, and VDD_DATA rises where it was off (R560). -/
def phase2Begin (h : Hub) : Hub :=
  let h := setFld (emit h .dataEn 0 [1]) F.bootStatusPhase 0 2
  if h.pwr.level = 0 then { h with pwr := { h.pwr with avs := { busy := true, level := 1 } } } else h

def execColdPowerUp (s : State) : Host.Outcome State Fault Refusal := act s fun h => if h.pwr.on || h.pwr.state = 3 then h else powerUp h

/-! ### Stopping failures (R511) -/

/-- The stem link is up: the control half serves, where it did not (R508 phase 2). -/
def stemUp (h : Hub) (bad : Bool) : Hub := if h.ctlDown then ctlServes h bad else h

/-- A stopping failure that no other source caused: source 9 is counted and recorded (R540). -/
def bringUpStops (h : Hub) (code : Nat) : Hub := bringUpFail (countFatal h 9 true) code

/-- Phase 2 fails with code 1, 2 or 3: it runs once more, then the data half is held in reset. -/
def phase2Fails (h : Hub) (code : Nat) : Hub :=
  let h := dataDown h
  if h.retried then bringUpStops h code else phase2Begin { h with retried := true }

/-- Phase 2 of a bring-up runs. -/
def inPhase2 (h : Hub) : Bool := bringingUp h && fld h F.bootStatusPhase == 2 && !h.mg.warmReset && h.dead == 0

/-- A PLL does not lock: the stem link is up by then. -/
def execPllLockTimeout (s : State) : Host.Outcome State Fault Refusal :=
  act s fun h => if inPhase2 h then phase2Fails (stemUp h false) 1 else h

/-- The stem link does not come up: CTL_UP stays 0; the control half serves the field network all the same. -/
def stemTimeout (h : Hub) : Hub :=
  let h := if h.retried && h.ctlDown then setFld (ctlServes h false) F.hubStatusCtlUp 0 0 else h
  phase2Fails h 2

def execStemUpTimeout (s : State) : Host.Outcome State Fault Refusal := act s fun h => if inPhase2 h then stemTimeout h else h

/-! ### The phases -/

/-- Milliseconds of phase `n` into BOOT.TIME0 or 1. -/
def phaseTime (h : Hub) (n ms : Nat) : Hub :=
  let r : Reg := if n < 4 then .bootTime0 else .bootTime1
  { setReg h r 0 (setBits (getReg h r 0) (16 * (n % 4)) 16 (Nat.min 65535 ms)) with bootMs := h.bootMs + ms }

/-- Phase 1 ends (R510, R438, R530): the life-cycle count is completed, the fuses are read, an image is picked. -/
def romPhase (h : Hub) (blows fuseOdd : Bool) : Hub :=
  let h := setFld (lifeCycleBoot h blows) F.bootStatusFuseOdd 0 (b2n fuseOdd)
  let h := romStart h
  if h.mg.slot.isNone then noImage h else phase2Begin h

/-- The data half starts (R508 phase 2): the level is V1, and what takes effect at a data-half start is taken. -/
def dataStart (h : Hub) : Hub :=
  let h := { h with
    dataReset := false, dataStarts := h.dataStarts + 1
    podId := odNum h OD.podId, podMgr := odNum h OD.podManager, podEther := odNum h OD.podEthertype, podVlan := odNum h OD.podVlan
    mg := { h.mg with podRole := odNum h OD.podRole }
    pwr := { h.pwr with level := 1, limClk := 1000, avs := {} } }
  let h := setFld (setFld h F.podStatusHub 0 (odNum h OD.podHub)) F.trcDcountDcount 0 0
  reclk (setFld (setFld h F.hubStatusDataUp 0 1) F.hubCtlDataReset 0 0)

/-- Phase 2 ends: in a cold boot the store is loaded first (R488, R534); an image that cannot read it makes the ROM pick again. The
stem link comes up, and with it CTL_UP; then the rim's self-test decides. -/
def rimPhase (h : Hub) (rimOk : Bool) : Hub :=
  let (h, bad) := if h.ctlDown then (if storeCase h = 2 then firmwareStart 2 (storeUnread h (h.mg.slot.getD 0)) else loadStore h) else (h, false)
  if h.mg.slot.isNone then noImage h
  else
    let h := stemUp h bad
    if !rimOk then phase2Fails h 3 else setFld (dataStart h) F.bootStatusPhase 0 3

/-- The bin a stack ends at and its ports that fail there (R180): one bin lower for each try at which a port fails. -/
def trainBins (n lo : Nat) : List (List Nat) → Nat → Nat × List Nat
  | [], b => (b, [])
  | l :: r, b =>
    let mine := l.filter fun p => p / 8 == n
    if mine.isEmpty then (b, []) else if b ≤ lo then (b, mine) else trainBins n lo r (b - 1)

/-- A trained stack: its capacity in GiB, declared bin, training load. -/
def trainStack (h : Hub) (fails : List (List Nat)) (x : Nat × Nat × Nat × Nat) : Hub :=
  let (n, gib, declared, load) := x
  if !h.variant.stackOn n then h
  else
    let start := Nat.min declared (odNum h OD.memBinMax)
    let (b, bad) := trainBins n (odNum h OD.memBinMin) fails start
    let h := setStack h n { stack h n with gib := gib }
    let h := { h with live := h.live ++ (portsOf n).filter fun p => !bad.contains p }
    each (portsOf n) h fun h p =>
      let h := setFld (setFld h F.memStatusBin p b) F.memStatusLoadPct p load
      let h := setFld h F.memStatusLightTrained p (b2n (decide (load + 10 < odNum h OD.trainLoadPct)))
      setFld h F.memStatusState p (if bad.contains p then 1 else 3)

/-- Phase 3 ends: the live list, C and Z are fixed (R154, R160, R161). `stacks` lists (stack, GiB, declared bin, load) of the stacks that
answer; `fails` the ports that fail at each try. -/
def memPhase (h : Hub) (hbms : List (Nat × Nat × Nat × Nat)) (fails : List (List Nat)) : Hub :=
  let h := each (List.range 64) { h with live := [], hbms := [], ports := [] } fun h p => setFld h F.memStatusState p (b2n (h.variant.portOn p))
  let h := each hbms h fun h x => trainStack h fails x
  let h := { h with live := (List.range 64).filter h.live.contains }
  let on := ((List.range 64).filter h.variant.portOn).length
  let gone := on - h.live.length
  let h := raiseN (setFld h F.bootResult2PortsRemoved 0 gone) E.bootDegraded 0 gone
  match h.live with
  | [] => bringUpStops h 4
  | p :: r =>
    let g := r.foldl (fun m q => Nat.min m (stack h (q / 8)).gib) (stack h (p / 8)).gib
    let c := g * 2 ^ 27
    let z := odNum h OD.mirrorReserve * 2 ^ 20
    let h := { h with portCap := c, reserve := if z < c then z else 0 }
    let h := if z != 0 && decide (c ≤ z) then raise h E.bootDegraded else h
    setFld h F.bootStatusPhase 0 4

/-- A presence line is read at each site and port, and the guests found are admitted (R298, R327). -/
def presencePhase (h : Hub) : Hub := each (List.range 34) h admitPresent

/-- Phase 6 ends: the stations whose self-test failed are LOST (R511). -/
def stationPhase (h : Hub) (failed : List Nat) : Hub :=
  let h := each failed h fun h stn =>
    let h := match houseEnd stn with
      | some (1, n) => setFld h F.bootResult2CrankFail 0 (fld h F.bootResult2CrankFail ||| 2 ^ n)
      | some (2, n) => setFld h F.bootResult2VecFail 0 (fld h F.bootResult2VecFail ||| 2 ^ n)
      | some (3, n) => setFld h F.bootResult2DrlFail 0 (fld h F.bootResult2DrlFail ||| 2 ^ n)
      | some (_, n) => setFld h F.bootResult2CasFail 0 (fld h F.bootResult2CasFail ||| 2 ^ n)
      | none => h
    later h (.lost stn)
  setFld h F.bootStatusPhase 0 7

/-- Bits of the sites and ports that satisfy `p`. -/
def siteBits (lo n : Nat) (p : Nat → Bool) : Nat := (List.range n).foldl (fun a i => a + b2n (p (lo + i)) * 2 ^ i) 0

/-- Phase 7 ends (R508, R520): the pod role starts, READY. -/
def readyPhase (h : Hub) : Hub :=
  let up (s : Nat) : Bool := siteState h s == 3
  let h := setFld (setFld h F.bootResultSitesUp 0 (siteBits 0 32 up)) F.bootResultSitesNarrow 0 (siteBits 0 32 fun s => up s && narrow h s)
  let h := setFld (setFld h F.bootResult2UciUp 0 (siteBits 32 2 up)) F.bootResult2UciX32 0
    (siteBits 32 2 fun s => up s && flag h F.uciStatusX32 (s - 32))
  let h := setFld h F.podStatusRole 0 h.mg.podRole
  let h := if h.mg.podRole = 2 then setRoster h (podSelf h) 2 else h
  let h := setFld (setFld (setFld h F.bootStatusPhase 0 8) F.bootStatusTotalMs 0 h.bootMs) F.bootStatusWarm 0 (b2n h.warmRun)
  let h := raise (setFld (setFld h F.hubStatusReady 0 1) F.hubStatusDataResetting 0 0) E.bootReady
  let h := if h.warmRun then notice (raise h E.hubDataResetDone) 0x0101 h.bootMs else h
  { h with warmRun := false }

/-- A phase ends and the next begins. -/
def phaseEnd (h : Hub) (ms : Nat) (blows fuseOdd rimOk : Bool) (hbms : List (Nat × Nat × Nat × Nat)) (fails : List (List Nat))
    (failed : List Nat) : Hub :=
  let n := fld h F.bootStatusPhase
  if h.mg.warmReset then
    if h.pcie.waits then h else phase2Begin { h with bootMs := h.bootMs + ms, mg := { h.mg with warmReset := false } }
  else
    let h := phaseTime h n ms
    match n with
    | 0 => setFld { h with ctlStarts := h.ctlStarts + 1 } F.bootStatusPhase 0 1
    | 1 => romPhase h blows fuseOdd
    | 2 => rimPhase h rimOk
    | 3 =>
      let h := memPhase h hbms fails
      if fld h F.bootStatusPhase = 4 then presencePhase h else h
    | 4 => setFld h F.bootStatusPhase 0 5
    | 5 => setFld h F.bootStatusPhase 0 6
    | 6 => stationPhase h failed
    | _ => readyPhase h

/-- Phases go on where a bring-up runs; a warm one needs the control half for all its phases. -/
def bootRow (warm : Bool) (h : Hub) (f : Hub → Hub) : Hub := if bringingUp h && h.warmRun == warm && h.dead == 0 then f h else h

def execBootPhaseEnd (ms : Nat) (cellBlows fuseOdd rimOk : Bool) (hbms : List (Nat × Nat × Nat × Nat)) (fails : List (List Nat))
    (failed : List Nat) (s : State) : Host.Outcome State Fault Refusal :=
  act s fun h => bootRow false h fun h => phaseEnd h ms cellBlows fuseOdd rimOk hbms fails failed

def execWarmRestartPhaseEnd (ms : Nat) (rimOk : Bool) (hbms : List (Nat × Nat × Nat × Nat)) (fails : List (List Nat))
    (failed : List Nat) (s : State) : Host.Outcome State Fault Refusal :=
  act s fun h => bootRow true h fun h => phaseEnd h ms false false rimOk hbms fails failed

def execBootPhaseOverrun (s : State) : Host.Outcome State Fault Refusal :=
  act s fun h => if bringingUp h && h.dead == 0 then raise h E.bootPhaseOver else h

end Sys2Proof.Machine
end

