-- ==== Sys2Proof/Machine/Pcie.lean ====
section
/-!
DEFINITION. Machine/Pcie.lean: the PCIe endpoint (R409 to R433): function-level reset, D-states, virtual functions, BAR4, completions of
the hub's own reads, MSI-X, configuration space, and loss of the link.
-/
namespace Sys2Proof.Machine

/-! ### Contexts of functions -/

/-- The contexts assigned to function `f`. -/
def funcCtxs (h : Hub) (f : Nat) : List Nat := (usedCtx h).filter fun c => flag h F.ctxFuncAssigned c && ctxFunc h c == f

/-- A reset function's context (R360): killed with cause 7, then torn down, which waits while the control half restarts (R17). -/
def resetCtx (h : Hub) (c : Nat) : Hub :=
  let h := killCtx h c 7
  if ctxState h c = 5 then ctxTeardown h c else h

/-- What a reset function asked of the host is forgotten: later completions for its tags are discarded (R425). -/
def silence (h : Hub) (f : Nat) : Hub :=
  let mine := h.hostReads.filter fun r => r.func == f
  { h with hostReads := dropIf h.hostReads fun r => r.func == f
           pcie := { h.pcie with dead := h.pcie.dead ++ mine.map (·.tag) }
           msix := dropIf h.msix fun e => e.1 / 2048 == f
           atc := dropIf h.atc fun e => ctxFunc h e.ctx == f }

/-- VF.EVT and its counters (R425, R432). -/
def clearVfEvt (h : Hub) (f : Nat) : Hub := if f = 0 then h else setReg (setReg h .vfEvt f 0) .vfEvtCnt f 0

/-- Steps 1 to 5 of R425 for one function; its contexts stay in their slots. -/
def flrOne (h : Hub) (f : Nat) : Hub :=
  let h := setFunc h f { func h f with flr := true }
  let h := each (funcCtxs h f) h resetCtx
  let h := clearVfEvt (silence h f) f
  setFunc h f { flr := true, slots := (func h f).slots }

/-- The VFs go (R426): their contexts end, and become FREE once torn down. -/
def vfGone (h : Hub) : Hub :=
  each ((List.range 64).drop 1) h fun h f =>
    if !vfOn h f then h
    else
      let h := flrOne h f
      let h := each (funcCtxs h f) h fun h c =>
        if ctxState h c = 1 then setFld (setReg (leaveSlot h c) .ctxFunc c 0) F.ctxStatusState c 0
        else if h.freeAfter.contains c then h else { h with freeAfter := h.freeAfter ++ [c] }
      { h with funcs := tdel h.funcs f }

/-- A write of VF Enable (R417, R426). -/
def vfEnable (h : Hub) (on : Bool) : Hub :=
  let pf := func h 0
  if on == pf.vfEn then h
  else if on then (if pf.ariHier || decide (pf.numVfs ≤ 7) then setFunc h 0 { pf with vfEn := true } else h)
  else
    let h := vfGone h
    setFunc h 0 { func h 0 with vfEn := false }

/-- Initiate FLR (R425 to R427). -/
def initiateFlr (h : Hub) (f : Nat) : Hub :=
  if (func h f).flr then h
  else
    let h := if f = 0 && (func h 0).vfEn then vfGone h else h
    flrOne h f

/-- The endpoint serves configuration: linked, and no hub-fatal error. -/
def endpointUp (h : Hub) : Bool := h.pcie.up && h.dead == 0

/-- The function exists: the PF, or an enabled VF. -/
def funcOn (h : Hub) (f : Nat) : Bool := f == 0 || vfOn h f

/-- A configuration action of function `fn`, which reaches it while configuration requests to it are served (R411, R425). -/
def cfgRow (s : State) (fn : Nat) (f : Hub → Hub) : Host.Outcome State Fault Refusal :=
  actUnit (decide (fn < 64)) s fun h => if endpointUp h && ctlUp h && funcOn h fn then f h else h

/-- Initiate FLR reaches the function where configuration is served, and in a ride-through, where the data half carries it out (R17). -/
def execInitiateFlr (fn : Nat) (s : State) : Host.Outcome State Fault Refusal :=
  actUnit (decide (fn < 64)) s fun h => if endpointUp h && (ctlUp h || dataUp h) && funcOn h fn then initiateFlr h fn else h

/-- Step 6: the function reads as reset. -/
def flrDone (h : Hub) (f : Nat) : Hub := if (func h f).flr then setFunc h f { func h f with flr := false } else h

def execFlrDone (fn : Nat) (s : State) : Host.Outcome State Fault Refusal := actUnit (decide (fn < 64)) s fun h => flrDone h fn

/-- A write of VF Enable to the PF's SR-IOV Control. -/
def execVfEnable (on : Bool) (s : State) : Host.Outcome State Fault Refusal :=
  cfgRow s 0 fun h => if (func h 0).flr then h else vfEnable h on

/-! ### D-states (R428) -/

/-- Entry into D3hot suspends the function's ACTIVE contexts. -/
def d3hot (h : Hub) (f : Nat) : Hub :=
  let fn := func h f
  if fn.flr || fn.pm != 0 then h
  else
    let cs := (funcCtxs h f).filter fun c => ctxState h c == 2
    each cs (setFunc h f { fn with pm := 3, suspended := cs }) suspendCtx

/-- Return to D0 resumes those it suspended, and wakes the hub (R492, R501). -/
def d0 (h : Hub) (f : Nat) : Hub :=
  let fn := func h f
  if fn.flr || fn.pm = 0 then h
  else
    let h := setFunc h f { fn with pm := 0, suspended := [] }
    let h := each (fn.suspended.filter fun c => ctxState h c == 3 || ctxState h c == 4) h resumeCtx
    wantWake h 2

def execD3hotEntry (fn : Nat) (s : State) : Host.Outcome State Fault Refusal := cfgRow s fn fun h => d3hot h fn
def execD0Return (fn : Nat) (s : State) : Host.Outcome State Fault Refusal := cfgRow s fn fun h => d0 h fn

/-! ### BAR4 (R414 to R416, R420, R424) -/

/-- Every ATC entry is dropped; translations in flight are discarded and requested again (R365). -/
def dropAtc (h : Hub) : Hub := { h with atc := [], trReqs := h.trReqs.map fun t => { t with stale := true } }

/-- A write of BAR4's base. -/
def bar4Base (h : Hub) (v : Nat) : Hub :=
  let pf := func h 0
  dropAtc (setFunc h 0 { pf with bar4 := v % 2 ^ 64 / 2 ^ pf.bar4Log * 2 ^ pf.bar4Log })

/-- A write of BAR Size, 2^n MiB: taken only while Memory Space Enable is 0, and for an advertised size. -/
def bar4Size (h : Hub) (n : Nat) : Hub :=
  let pf := func h 0
  if pf.memEn || decide (n < 10) || decide (19 < n) then h
  else dropAtc (setFunc h 0 { pf with bar4Log := n + 20, bar4 := 0 })

def execBar4Resize (size : Bool) (value : Nat) (s : State) : Host.Outcome State Fault Refusal :=
  cfgRow s 0 fun h => if (func h 0).flr then h else if size then bar4Size h value else bar4Base h value

/-- An error is logged in a function's AER registers, as a bit of the Uncorrectable Error Status register. -/
def logError (h : Hub) (f bit : Nat) : Hub := setFunc h f { func h f with errors := (func h f).errors ++ [bit] }

/-- The range of a BAR4 access meets a bound region in service (R453). -/
def barBound (h : Hub) (a n : Nat) : Bool := (sectorsOf a n).any fun s => (boundAt h (32 * s)).isSome

/-- A BAR4 read of `len` bytes at offset `addr` (R420, R424, R453, R497). -/
def bar4Read (h : Hub) (tag addr len : Nat) : Hub :=
  if !memOpen h 0 || h.dead != 0 || (serving h && (decide (dpaLimit h < addr + len) || barBound h addr len)) then emit h .cplUr 0 [tag]
  else hostCalls { h with pcie := { h.pcie with reads := h.pcie.reads ++ [⟨tag, addr, len⟩] } }

def execBar4Read (tag addr len : Nat) (s : State) : Host.Outcome State Fault Refusal :=
  actUnit (decide (1 ≤ len) && decide (len ≤ 4096) && decide (addr + len ≤ 2 ^ 39)) s fun h => if h.pcie.up then bar4Read h tag addr len else h

/-- The parts of a write by line: (address, length). -/
def lineParts (a n : Nat) : List (Nat × Nat) := cplSplit 64 n a n

/-- A BAR4 write at the homes: a poisoned one poisons every sector it touches. -/
def bar4Apply (h : Hub) (addr : Nat) (data : List Byte) (ep : Bool) : Hub :=
  each (lineParts addr data.length) h fun h e => streamWrite h 8192 e.1 (sliceB data (e.1 - addr) e.2) ep .nobody

/-- A BAR4 write (R420, R424): held in Park (R497), dropped while the data half is down. -/
def bar4Write (h : Hub) (addr : Nat) (data : List Byte) (ep : Bool) : Hub :=
  if !memOpen h 0 || h.dead != 0 then logError h 0 20
  else
    let h := if ep then logError h 0 12 else h
    if !serving h then h
    else if dpaLimit h < addr + data.length then logError h 0 20
    else if h.pwr.state = 2 then wantWake { h with pwr := { h.pwr with held := h.pwr.held ++ [.bar4 addr data ep] } } 1
    else bar4Apply (coastExit h) addr data ep

def execBar4Write (addr : Nat) (data : List Byte) (ep : Bool) (s : State) : Host.Outcome State Fault Refusal :=
  actUnit (decide (data.length ≤ 4096) && decide (addr + data.length ≤ 2 ^ 39)) s fun h => if h.pcie.up then bar4Write h addr data ep else h

/-! ### Completions of the hub's reads (R423) -/

/-- A read's sectors are delivered, poisoned or clean, unless nobody waits any more. -/
def deliverHost (h : Hub) (r : HostRead) (data : List Byte) (bad : Bool) : Hub :=
  let h := { h with hostReads := h.hostReads.erase r }
  if r.dead then h
  else
    let secs := sectorsOf r.addr r.len
    let h := { h with hostBuf := h.hostBuf.writeN r.addr (sliceB data 0 r.len)
                      hostHave := secs.foldl (fun t x => tset t (haveKey r.ctx (32 * x)) bad) h.hostHave }
    let h := each (h.strs.filter fun x => x.ctx == r.ctx && !x.sent) h fun h x => strGo h x.stn x.txn x.write
    later h .podPump

/-- A completion: status 0 Successful, 1 Unsupported Request, 2 Completer Abort. A tag of a reset function's is discarded without
logging (R425). -/
def hostCompletion (h : Hub) (f tag status : Nat) (ep : Bool) (data : List Byte) : Hub :=
  match h.hostReads.find? fun r => r.tag == tag && r.func == f with
  | none =>
    if h.pcie.dead.contains tag then { h with pcie := { h.pcie with dead := h.pcie.dead.erase tag } } else logError h f 16
  | some r =>
    let h := if status = 1 then logError h f 20 else if status = 2 then logError h f 15 else if ep then logError h f 12 else h
    deliverHost h r data (status != 0 || ep)

def execHostCompletion (fn tag status : Nat) (ep : Bool) (data : List Byte) (s : State) : Host.Outcome State Fault Refusal :=
  actUnit (decide (fn < 64) && decide (status < 3)) s fun h => if h.pcie.up then hostCompletion h fn tag status ep data else h

/-- A read's completion does not come in time; with Completion Timeout Disable set it is waited for. -/
def hostTimeout (h : Hub) (tag : Nat) : Hub :=
  match h.hostReads.find? fun r => r.tag == tag with
  | none => { h with pcie := { h.pcie with dead := h.pcie.dead.erase tag } }
  | some r => if (func h r.func).ctoDisable then h else deliverHost (logError h r.func 14) r [] true

def execHostCompletionTimeout (tag : Nat) (s : State) : Host.Outcome State Fault Refusal := act s fun h => hostTimeout h tag

/-! ### MSI-X (R421) -/

/-- Messages that pended and may now go. -/
def msixFlush (h : Hub) (f : Nat) : Hub :=
  each (h.msix.filter fun e => e.1 / 2048 == f && e.2.pending && !e.2.masked) h fun h e =>
    if (func h f).msixEn && !(func h f).msixMask then
      sendMsix { h with msix := tset h.msix e.1 { e.2 with pending := false } } f (e.1 % 2048)
    else h

/-- An entry's mask bit is written. -/
def msixMask (h : Hub) (f vec : Nat) (masked : Bool) : Hub :=
  let k := f * 2048 + vec
  msixFlush { h with msix := tset h.msix k { tgetD h.msix k {} with masked := masked } } f

/-- The PF's table lies in a block the control half serves: writes are dropped while it is down. -/
def msixOpen (h : Hub) (f : Nat) : Bool := memOpen h f && h.dead == 0 && (f != 0 || ctlUp h)

def execMsixUnmask (fn vec : Nat) (s : State) : Host.Outcome State Fault Refusal :=
  actUnit (decide (fn < 64) && decide (vec < vectors fn)) s fun h => if msixOpen h fn then msixMask h fn vec false else h

/-! ### Configuration space (R411 to R418) -/

/-- A capability's header: ID, next. -/
def extCap (id next : Nat) : Nat × Nat := (0xFFF0FFFF, id + next * 2 ^ 20)

/-- The Link Status speed code of a rate in GT/s. -/
def speedCode (g : Nat) : Nat := if g = 2 then 1 else if g = 5 then 2 else if g = 8 then 3 else if g = 16 then 4 else if g = 32 then 5 else 6

/-- A double word of configuration space: which bits the model knows, and their values. The places of the standard fields are the PCIe
Base Specification's (PRESUMED, log entry 44); the other bits are free. -/
def cfgWord (h : Hub) (f off : Nat) : Nat × Nat :=
  let fn := func h f
  let pf := func h 0
  let all := 2 ^ 32 - 1
  let bar (v hi : Nat) (pre : Nat) : Nat × Nat := (all, if f = 0 then v / 2 ^ (32 * hi) % 2 ^ 32 + (if hi = 0 then 4 + pre else 0) else 0)
  let vbar (k hi : Nat) : Nat × Nat := (all, tgetD pf.config k 0 / 2 ^ (32 * hi) % 2 ^ 32 + (if hi = 0 then 4 + (if k = 0x18C then 8 else 0) else 0))
  match off with
  | 0x00 => (all, if f = 0 then Config.vendorId % 65536 + h.variant.part * 65536 else all)
  | 0x04 => (2 ^ 20 + 6, 2 * b2n (f == 0 && fn.memEn) + 4 * b2n fn.busMaster + 2 ^ 20)
  | 0x08 => (all, Config.dieStep % 256 + 0x120000 * 256)
  | 0x10 => bar pf.bar0 0 0
  | 0x14 => bar pf.bar0 1 0
  | 0x18 => bar pf.bar2 0 8
  | 0x1C => bar pf.bar2 1 8
  | 0x20 => bar pf.bar4 0 8
  | 0x24 => bar pf.bar4 1 8
  | 0x2C => (all, odNum h OD.subsysVendor + odNum h OD.subsysId * 65536)
  | 0x34 => (0xFF, 0x40)
  | 0x40 => (0xFE00FFFF, 0x5001 + (if f = 0 then 0xC0000000 else 0x40000000))
  | 0x44 => (0x810B, fn.pm + 8 + 256 * b2n fn.pmeEn + 32768 * b2n fn.pmeStatus)
  | 0x50 => (0x00F0FFFF, 0x9010)
  | 0x54 => (2 ^ 28 + 7, 2 ^ 28 + 2)
  | 0x58 => (0xF0E0, fn.mps * 32 + fn.mrrs * 4096)
  | 0x5C => (0xFFF, 6 + 16 * 16 + 2 * 1024)
  | 0x60 => (0x03FF0008, 8 * b2n fn.rcb + speedCode h.pcie.gts * 2 ^ 16 + h.pcie.width * 2 ^ 20)
  | 0x74 => (0x1F, 0x1F)
  | 0x78 => (0x1F, fn.ctoValue + 16 * b2n fn.ctoDisable)
  | 0x90 => (0xC7FFFFFF, 0x11 + (vectors f - 1) * 2 ^ 16 + b2n fn.msixMask * 2 ^ 30 + b2n fn.msixEn * 2 ^ 31)
  | 0x94 => (all, if f = 0 then 0x8000 else 0x800)
  | 0x98 => (all, if f = 0 then 0x7F00 else 0x700)
  | 0x100 => extCap 1 (if f = 0 then 0x148 else 0x158)
  | 0x104 => (all, fn.errors.foldl (fun a b => a ||| 2 ^ b) 0)
  | 0x148 => extCap 3 0x158
  | 0x14C => (all, Config.deviceId % 2 ^ 32)
  | 0x150 => (all, Config.deviceId / 2 ^ 32 % 2 ^ 32)
  | 0x158 => extCap 0xE (if f = 0 then 0x160 else 0x1A0)
  | 0x160 => extCap 0x10 0x1A0
  | 0x168 => (0x19, b2n fn.vfEn + 8 * b2n fn.vfMse + 16 * b2n fn.ariHier)
  | 0x16C => (all, 63 + 63 * 65536)
  | 0x170 => (0xFFFF, fn.numVfs)
  | 0x174 => (all, 1 + 65536)
  | 0x178 => (0xFFFF0000, (h.variant.part + 1) * 65536)
  | 0x17C => (all, 0x7F)
  | 0x184 => vbar 0x184 0
  | 0x188 => vbar 0x184 1
  | 0x18C => vbar 0x18C 0
  | 0x190 => vbar 0x18C 1
  | 0x194 => (all, 0)
  | 0x198 => (all, 0)
  | 0x1A0 => extCap 0xF (if f = 0 then 0x1B0 else 0)
  | 0x1A4 => (0x8000007F, 0x60 + b2n fn.atsEn * 2 ^ 31)
  | 0x1B0 => extCap 0x1B 0x1C0
  | 0x1B4 => (0x11F06, 20 * 256 + b2n fn.pasidEn * 2 ^ 16)
  | 0x1C0 => extCap 0x15 0x1D0
  | 0x1C4 => (0xFFFFFFF0, (List.range 10).foldl (fun a i => a + 2 ^ (14 + i)) 0)
  | 0x1C8 => (0x3FE7, 4 + 32 + (fn.bar4Log - 20) * 256)
  | 0x1D0 => extCap 0x19 0x200
  | 0x200 => extCap 0x25 0x210
  | 0x210 => extCap 0x26 0x240
  | 0x240 => extCap 0x2A 0x270
  | 0x270 => extCap 0x31 0x290
  | 0x290 => extCap 0x27 0
  | _ => (0, 0)

/-- A configuration read's value. -/
def cfgRead (h : Hub) (f off : Nat) : Nat × Hub :=
  let (x, h) := drawFree h 32
  let (m, v) := cfgWord h f off
  ((v &&& m) + (x - (x &&& m)), h)

/-- Replace 32 bits of a 64-bit base, at high or low half. -/
def halfOf (old hi v : Nat) : Nat := setBits old (32 * hi) 32 v

/-- A write of a double word's bytes chosen by `m` (a mask of bits). -/
def cfgWrite (h : Hub) (f off m v : Nat) : Hub :=
  let fn := func h f
  let pf := f == 0
  let on (b : Nat) : Bool := bitOf m b
  let bit (b : Nat) (old : Bool) : Bool := if on b then bitOf v b else old
  let merge (old : Nat) : Nat := (old - (old &&& m)) + (v &&& m)
  let low (b : Nat) : Nat := merge (b % 2 ^ 32)
  let high (b : Nat) : Nat := merge (b / 2 ^ 32)
  match off with
  | 0x04 => setFunc h f { fn with memEn := if pf then bit 1 fn.memEn else false, busMaster := bit 2 fn.busMaster }
  | 0x10 => if pf then setFunc h 0 { fn with bar0 := halfOf fn.bar0 0 (low fn.bar0) / 2 ^ 26 * 2 ^ 26 } else h
  | 0x14 => if pf then setFunc h 0 { fn with bar0 := halfOf fn.bar0 1 (high fn.bar0) } else h
  | 0x18 => if pf then setFunc h 0 { fn with bar2 := halfOf fn.bar2 0 (low fn.bar2) / 2 ^ 25 * 2 ^ 25 } else h
  | 0x1C => if pf then setFunc h 0 { fn with bar2 := halfOf fn.bar2 1 (high fn.bar2) } else h
  | 0x20 => if pf then bar4Base h (halfOf fn.bar4 0 (low fn.bar4)) else h
  | 0x24 => if pf then bar4Base h (halfOf fn.bar4 1 (high fn.bar4)) else h
  | 0x44 =>
    let h := setFunc h f { fn with pmeEn := bit 8 fn.pmeEn, pmeStatus := fn.pmeStatus && !(on 15 && bitOf v 15) }
    if !on 0 then h else if v % 4 = 3 then d3hot h f else if v % 4 = 0 then d0 h f else h
  | 0x58 =>
    let h := if on 0 then setFunc h f { func h f with mps := if v / 32 % 8 ≤ 2 then v / 32 % 8 else fn.mps } else h
    let h := if on 8 then setFunc h f { func h f with mrrs := v / 4096 % 8 } else h
    if on 15 && bitOf v 15 then initiateFlr h f else h
  | 0x60 => setFunc h f { fn with rcb := bit 3 fn.rcb }
  | 0x78 => if on 0 then setFunc h f { fn with ctoValue := v % 16, ctoDisable := bitOf v 4 } else h
  | 0x90 => msixFlush (setFunc h f { fn with msixMask := bit 30 fn.msixMask, msixEn := bit 31 fn.msixEn }) f
  | 0x104 => setFunc h f { fn with errors := fn.errors.filter fun b => !(on b && bitOf v b) }
  | 0x168 =>
    if !pf then h
    else
      let h := setFunc h 0 { fn with vfMse := bit 3 fn.vfMse, ariHier := bit 4 fn.ariHier }
      if on 0 then vfEnable h (bitOf v 0) else h
  | 0x170 => if pf && !fn.vfEn && on 0 && decide (v % 65536 ≤ 63) then setFunc h 0 { fn with numVfs := v % 65536 } else h
  | 0x184 => vbarSet h 0x184 0 (low (tgetD fn.config 0x184 0))
  | 0x188 => vbarSet h 0x184 1 (high (tgetD fn.config 0x184 0))
  | 0x18C => vbarSet h 0x18C 0 (low (tgetD fn.config 0x18C 0))
  | 0x190 => vbarSet h 0x18C 1 (high (tgetD fn.config 0x18C 0))
  | 0x1A4 => setFunc h f { fn with atsEn := bit 31 fn.atsEn }
  | 0x1B4 => if pf then setFunc h 0 { fn with pasidEn := bit 16 fn.pasidEn } else h
  | 0x1C8 => if pf && on 8 then bar4Size h (v / 256 % 64) else h
  | _ => h
where
  vbarSet (h : Hub) (k hi v : Nat) : Hub :=
    if f = 0 then
      let fn := func h 0
      let new := halfOf (tgetD fn.config k 0) hi v / 2 ^ 18 * 2 ^ 18
      setFunc h 0 { fn with config := if new = 0 then tdel fn.config k else tset fn.config k new }
    else h

/-- A configuration request: retried until CTL_UP and during a function-level reset, unsupported where no function is. -/
def cfgRequest (h : Hub) (f off : Nat) (write : Option (Nat × Nat)) : Hub :=
  if !ctlUp h || (func h f).flr then emit h .cplRrs f [off]
  else if !funcOn h f then emit h .cplUr f [off]
  else match write with
    | none =>
      let (v, h) := cfgRead h f off
      emit h .cfgCpl f [off, v]
    | some (be, v) =>
      let m := (List.range 4).foldl (fun a i => if bitOf be i then a + 255 * 256 ^ i else a) 0
      emit (cfgWrite h f off m (v % 2 ^ 32)) .cfgCpl f [off]

def execConfigRequest (fn off : Nat) (write : Option (Nat × Nat)) (s : State) : Host.Outcome State Fault Refusal :=
  actUnit (decide (fn < 64) && decide (off < 4096) && decide (off % 4 = 0)) s fun h => if h.pcie.up then cfgRequest h fn off write else h

/-! ### Loss of the link (R15, R430, R519) -/

/-- The endpoint core is reset: the hub globals but for the halves' status, the VF registers, every function. The PF's PME bits are
kept, as the base specification has them with auxiliary power (PRESUMED, log entry 44). -/
def endpointReset (h : Hub) : Hub :=
  let st := getReg h .hubStatus 0
  let h := if (func h 0).vfEn then vfGone h else h
  let pf := func h 0
  let h := resetRegs h fun r _ => r.info.block == .hub || r.info.block == .vf
  let h := setReg h .hubStatus 0 st
  { h with funcs := [(0, { pmeEn := pf.pmeEn, pmeStatus := pf.pmeStatus })], msix := [], hostReads := [], hostBuf := [], hostHave := []
           invals := [], trReqs := [], atc := dropIf h.atc fun e => e.host
           pcie := { h.pcie with up := false, gts := 0, width := 0, reads := [], dead := [] } }

/-- PERST#, hot reset or link-down. Outside the D3cold sequence the data half is reset; in a bring-up from phase 2 on, phase 2 starts
again once the link is up. -/
def linkLost (h : Hub) : Hub :=
  let boot := bringingUp h
  let cold := boot && !h.warmRun
  let h := endpointReset h
  if (h.pcie.d3cold && decide (2 ≤ h.pwr.state)) || h.pwr.state = 3 || h.mg.slot.isNone || (boot && decide (fld h F.bootStatusPhase < 2) && !h.mg.warmReset)
  then h
  else
    let h := dataHalfReset h
    if boot then { h with warmRun := !cold, pcie := { h.pcie with waits := true } }
    else if h.ctlDown then { h with mg := { h.mg with resume := if h.mg.resume = 1 then 1 else 2 } }
    else h

/-- THERMTRIP_N is released by PERST# where every sensor reads below 95 °C (R563). -/
def tripRelease (h : Hub) (cool : Bool) : Hub :=
  if h.pwr.tripLow && cool then emit { h with pwr := { h.pwr with tripLow := false } } .thermtripN 0 [1] else h

/-- PERST# is asserted; after a hub-fatal error it starts a cold boot (R541). `cool`: every sensor reads below 95 °C. -/
def perst (h : Hub) (cool : Bool) : Hub :=
  if h.pcie.perst then h
  else
    let h := tripRelease { h with pcie := { h.pcie with perst := true } } cool
    if !h.pwr.on then { h with pcie := { perst := true } }
    else if h.dead != 0 then powerUp (offHub h true false)
    else linkLost h

def execPerst (cool : Bool) (s : State) : Host.Outcome State Fault Refusal := act s fun h => perst h cool

def execHotReset (s : State) : Host.Outcome State Fault Refusal := act s fun h => if endpointUp h then linkLost h else h
def execLinkDown (s : State) : Host.Outcome State Fault Refusal := act s fun h => if endpointUp h then linkLost h else h

/-- PERST# is deasserted: WAKE# is released (R429), and the link may train. -/
def perstDeassert (h : Hub) : Hub :=
  let h := { h with pcie := { h.pcie with perst := false } }
  if h.pwr.wakeLow then emit { h with pwr := { h.pwr with wakeLow := false } } .wakeN 0 [1] else h

def execPerstDeassert (s : State) : Host.Outcome State Fault Refusal := act s perstDeassert

/-- The link is up at a rate and a width: a bring-up that waited for it goes on from phase 2 (R519). After D3cold the functions are in D0,
which wakes the hub (R492). -/
def pcieUp (h : Hub) (gts width : Nat) : Hub :=
  if h.pcie.perst || h.pcie.up || !h.pwr.on || h.dead != 0 then h
  else
    let h := { h with pcie := { h.pcie with up := true, gts := Nat.min gts (odNum h OD.pcieMaxGts), width := width, d3cold := false } }
    let h := wantWake h 2
    if h.pcie.waits then
      phase2Begin { h with pcie := { h.pcie with waits := false }, mg := { h.mg with warmReset := false } }
    else h

def execPcieLinkUp (gts width : Nat) (s : State) : Host.Outcome State Fault Refusal :=
  actUnit ([2, 5, 8, 16, 32, 64].contains gts && [1, 2, 4, 8, 16].contains width) s fun h => pcieUp h gts width

end Sys2Proof.Machine
end

