-- ==== Sys2Proof/Machine/Power.lean ====
section
/-!
DEFINITION. Machine/Power.lean: power states, refusals and wakes (R491 to R501), voltage and clock (R502 to R504), the limiter (R505),
supplies and the thermal trip (R557, R563).
-/
namespace Sys2Proof.Machine

/-! ### States and refusals (R491 to R493) -/

/-- The hub changes its power state. -/
def pwrMove (h : Hub) (goal : Nat) : Hub :=
  let from_ := h.pwr.state
  trace { h with pwr := { h.pwr with state := goal } } 1 0 0x81 none (from_ + goal * 4 + h.pwr.level * 16)

/-- Anchors of the admitted guests, and the sites a guest covers. -/
def admittedGuests (h : Hub) : List Nat := (h.guests.filter fun e => siteState h e.1 == 3).map (·.1)
def coveredBy (h : Hub) (a : Nat) : List Nat := let c := (guest h a).covered; if c.isEmpty then [a] else c

/-- Sites and ports whose guest refuses a deeper state: PREQ high, or a lease that is not FREE. -/
def guestRefusers (h : Hub) : List Nat :=
  (admittedGuests h).flatMap fun a =>
    let held := (List.range 16).any fun s => leaseState h a s != 0 || (leaseRec h a s).step != 0
    (coveredBy h a).filter fun s => (link h s).preq || (held && s == a)

/-- Any stream work (refuser 1). -/
def streamsBusy (h : Hub) : Bool :=
  (h.queues.any fun e => ctxLive h (e.1 / 64) && qState h (e.1 / 64) (e.1 % 64) != 0 && qHead h (e.1 / 64) (e.1 % 64) != e.2.sqTail) || !h.cmds.isEmpty
    || !h.waits.isEmpty || !h.bindQ.isEmpty || (List.range 256).any fun c => chState h c == 1

/-- A port is in TRAINING, RETRAIN or STEPPING. -/
def portsBusy (h : Hub) : Bool := h.live.any fun p => [2, 4, 5].contains (memState h p)

/-- A refuser of R493 holds. -/
def refuses (h : Hub) (code : Nat) : Bool :=
  match code with
  | 1 => streamsBusy h
  | 2 => odNum h OD.podRole == 2
  | 3 => debugOpen h || decide (lcState h < 2) || h.mg.ctl.dbgOpen
  | 4 => portsBusy h
  | 5 => h.mg.fwu.state != 0
  | 6 => !(guestRefusers h).isEmpty
  | 7 => odNum h OD.expertHold != 0
  | _ => false

/-- A refusal is counted (R493). -/
def countRefusal (h : Hub) (code : Nat) : Hub :=
  let h := setOdNum (bumpOd h (OD.refusals (code - 1)) 4) OD.lastRefuser 1 code
  if code = 6 then each (guestRefusers h) h fun h s => bumpOd h (OD.siteRefusals s) 4 else h

/-- The refusers that hold are counted; whether one does. -/
def refused (h : Hub) : Bool × Hub :=
  match [1, 2, 3, 4, 5, 6, 7].filter (refuses h) with
  | [] => (false, h)
  | rs => (true, raise (each rs h countRefusal) E.pwrRefused)

/-- COAST_ENTRY: only the expert hold refuses it. -/
def coastEntry (h : Hub) : Hub :=
  if h.pwr.state != 0 || !serving h || frozen h || !h.ops.isEmpty || !h.cmds.isEmpty || h.ctlDown then h
  else if odNum h OD.expertHold = 1 then raise (countRefusal h 7) E.pwrRefused
  else pwrMove h 1

def execCoastEntry (s : State) : Host.Outcome State Fault Refusal := act s coastEntry

/-! ### Park (R494 to R498) -/

/-- Every function is in D3hot. -/
def allD3 (h : Hub) : Bool := (List.range 64).all fun f => !funcOn h f || (func h f).pm == 3

/-- Nothing is under way at a home, and no house agent holds dirty data: its evictions have ended (R494 step 2). -/
def homesQuiet (h : Hub) : Bool :=
  h.cohTxns.isEmpty && h.cohQ.isEmpty && h.redQ.isEmpty && h.agentLines.all fun e => e.2.st != 3 || decide (e.1 / 2 ^ 33 < 136)

/-- A guest is held in reset: its link goes and its agents are FREE; it stays admitted (R496). -/
def parkGuest (h : Hub) (a : Nat) : Hub :=
  let h := each (coveredBy h a) h fun h s => emit (linkOff (emit h .grstN s [0]) s) .fclk s [0]
  { h with agents := dropIf h.agents fun e => (guest h a).agentIds.contains e.1
           pwr := { h.pwr with guests := h.pwr.guests ++ [a] } }

/-- Steps 2 to 7 of R494. -/
def parkSteps (h : Hub) : Hub :=
  let h := { h with tc := [], dir := [], agentLines := [], snpOut := [], atc := [], trReqs := [] }
  let h := each (admittedGuests h) h parkGuest
  let h := ethPort (ethPort h 0 false) 1 false
  pwrMove { h with pwr := { h.pwr with level := 0, clk := 0, avs := {}, clearMs := 0 } } 2

/-- Park may be entered (R491, R492). -/
def parkDue (h : Hub) : Bool :=
  serving h && !frozen h && ctlUp h && homesQuiet h && decide (h.pwr.state < 2)
    && (allD3 h || (h.pwr.state == 1 && odNum h OD.parkAfterMs != 0))

/-- The wake record (R501), and PME or WAKE# (R429). The RTC has run on by a free count. -/
def wakeRecord (h : Hub) (src from_ : Nat) : Hub :=
  let (x, h) := drawFree h 40
  let rtc := (h.pwr.rtc + x) % 2 ^ 64
  let h := { h with pwr := { h.pwr with rtc := rtc } }
  let h := setOdNum (setOdNum (setOdNum h OD.wakeSource 1 src) OD.wakeFrom 1 from_) OD.wakeRtc 8 rtc
  raise (bumpOd h OD.wakeCount 4) E.pwrWake

/-- PME from D3hot, WAKE# from D3cold. -/
def sendPme (h : Hub) : Hub :=
  if h.pcie.d3cold then
    if h.pwr.pmeSet then
      let h := setFunc h 0 { func h 0 with pmeStatus := true }
      emit { h with pwr := { h.pwr with wakeLow := true } } .wakeN 0 [0]
    else h
  else each ((List.range 64).filter fun f => funcOn h f && (func h f).pm == 3 && (func h f).pmeEn) h fun h f =>
    emit (setFunc h f { func h f with pmeStatus := true }) .pme f

/-- PARK_ENTRY; `abort`: 0 nothing comes between, 1 to 6 a wake source does, 16 + code a refuser does. -/
def parkEntry (h : Hub) (abort : Nat) : Hub :=
  if !parkDue h then h
  else match refused h with
    | (true, h) => h
    | (false, h) =>
      if abort = 0 then parkSteps h
      else if abort ≤ 6 then sendPme (wakeRecord (if h.pwr.state = 1 then coastExit h else h) abort 2)
      else raise (countRefusal h (abort - 16)) E.pwrRefused

def execParkEntry (abort : Nat) (s : State) : Host.Outcome State Fault Refusal :=
  actUnit (decide (abort ≤ 6) || inRange abort 17 23) s fun h => parkEntry h abort

/-- Step 5 of R498: each port retrains once; one that fails becomes FAILED. -/
def wakePort (failed : List Nat) (h : Hub) (p : Nat) : Hub :=
  if memState h p != 3 then h
  else
    let h := setPort (stallTrace (raise h E.memRetrain p) p false) p { port h p with recent := true, wanted := false }
    if failed.contains p then failPort h p else h

/-- The held host writes are applied in arrival order. -/
def applyHeld (h : Hub) : Hub :=
  let ws := h.pwr.held
  each ws { h with pwr := { h.pwr with held := [] } } fun h w => match w with
    | .doorbell fn page slot sq cq => doorbell h fn page slot sq cq
    | .bar4 addr data ep => bar4Apply h addr data ep

/-- Ride again: the clock at V1, the guests' re-admissions, the held writes. -/
def rideAgain (h : Hub) (failed : List Nat) : Hub :=
  let h := { h with pwr := { h.pwr with level := 1, limClk := Nat.min h.pwr.limClk 1000 } }
  let h := reclk (pwrMove h 0)
  let h := each h.live h (wakePort failed)
  let gs := h.pwr.guests
  let h := each gs { h with pwr := { h.pwr with guests := [] } } readmit
  applyHeld h

/-- PARK_WAKE by a source of R501. A voltage or PLL failure is fatal source 8. -/
def parkWake (h : Hub) (src : Nat) (bad : Bool) (failed : List Nat) : Hub :=
  if h.pwr.state != 2 || h.ctlDown || h.dead != 0 then h
  else
    let src := match h.pwr.want with
      | some w => Nat.min w src
      | none => src
    let (ms, h) := drawFree h 32
    let h := addFld { h with pwr := { h.pwr with want := none } } F.pwrParkMsPark 0 ms
    let h := sendPme (wakeRecord h src 2)
    if bad then later (pwrMove { h with pwr := { h.pwr with level := 1 } } 0) (.fatal 8) else rideAgain h failed

def execParkWake (source : Nat) (voltageFail pllFail : Bool) (failed : List Nat) (s : State) : Host.Outcome State Fault Refusal :=
  actUnit (inRange source 1 5) s fun h => parkWake h source (voltageFail || pllFail) failed

/-- RTC_ALARM: the count reaches OD 0x7000.0B. -/
def rtcAlarm (h : Hub) : Hub :=
  let a := odNum h OD.rtcAlarm
  if a = 0 || decide (a < h.pwr.rtc) || h.ctlDown then h else wantWake { h with pwr := { h.pwr with rtc := a } } 3

def execRtcAlarm (s : State) : Host.Outcome State Fault Refusal := act s rtcAlarm

/-! ### Kickstand (R499, R500) -/

/-- Zeros over every bound region, mirrors included. -/
def wipeBound (h : Hub) : Hub :=
  each (h.regions.filter fun e => e.2.bound && e.2.state != 0) h fun h e => zeroHbm h e.2.base e.2.size

/-- PWR_ON falls: what stays is the always-on island, and HBM where OD 0x7000.04 keeps it. -/
def kickstand (h : Hub) : Hub :=
  let h := wipeBound h
  let h := if h.mg.ctl.dirty then commitStore h else h
  let pme := h.pwr.pmeSet
  let keep := odOn h OD.kickRetain
  let h := emit (pwrMove h 3) .pwrOn 0 [0]
  let h := offHub h true keep
  { h with pwr := { h.pwr with state := 3, pmeSet := pme }, pcie := { perst := h.pcie.perst, d3cold := true } }

/-- PME_Turn_Off (R492, R499): acknowledged; the PF goes to D3cold. Where a context is neither IDLE nor FREE, R430 applies when the
link goes (R428), and no state is entered. -/
def pmeTurnOff (h : Hub) : Hub :=
  let h := emit h .pmeToAck 0
  if (usedCtx h).any fun c => decide (2 ≤ ctxState h c) then h
  else
    let h := { h with pcie := { h.pcie with d3cold := true }, pwr := { h.pwr with pmeSet := (func h 0).pmeEn } }
    if !(serving h && !frozen h && ctlUp h && homesQuiet h) then h
    else match refused h with
      | (true, h) => h
      | (false, h) =>
        let h := if h.pwr.state = 2 then h else parkSteps h
        if odOn h OD.kickEn then kickstand h else h

def execPmeTurnOff (s : State) : Host.Outcome State Fault Refusal := act s fun h => if endpointUp h then pmeTurnOff h else h

/-- KICKSTAND_WAKE: a transaction to the sideband address; the hub boots as from cold. -/
def kickWake (h : Hub) : Hub :=
  if h.pwr.state != 3 then h
  else
    let h := sendPme (wakeRecord { h with pwr := { h.pwr with state := 0 } } 4 3)
    powerUp { h with pcie := { h.pcie with d3cold := false } }

def execKickstandWake (s : State) : Host.Outcome State Fault Refusal := act s kickWake

/-! ### Voltage and clock (R502 to R504) -/

/-- The sequencer sends a level to the regulator. -/
def avsSend (h : Hub) (l : Nat) : Hub :=
  reclk (emit { h with pwr := { h.pwr with avs := { h.pwr.avs with busy := true, retry := false, level := l } } } .avsRequest 0 [l])

/-- A level is asked for: one change at a time, a later request replaces the waiting one; down is refused while the clock is above the
target's limit. -/
def requestLevel (h : Hub) (l : Nat) : Hub :=
  let a := h.pwr.avs
  if a.busy || a.retry then (if a.level = l then h else { h with pwr := { h.pwr with avs := { a with next := some l } } })
  else if l = h.pwr.level then h
  else if l < h.pwr.level && decide (levelClk l < h.pwr.clk) then raise h E.pwrVfRefused
  else avsSend h l

/-- AVS_IN_REGULATION: the level is reached, the clock follows, and a waiting request is taken. -/
def avsDone (h : Hub) : Hub :=
  let a := h.pwr.avs
  if !a.busy || h.ctlDown && !bringingUp h then h
  else
    let h := reclk { h with pwr := { h.pwr with level := a.level, avs := {} } }
    match a.next with
    | some l => requestLevel h l
    | none => h

def execAvsInRegulation (s : State) : Host.Outcome State Fault Refusal := act s avsDone

/-- AVS_TIMEOUT: no report in time; the third in a row at V1 or above is fatal source 7. -/
def avsTimeout (h : Hub) : Hub :=
  let a := h.pwr.avs
  if !a.busy || h.ctlDown && !bringingUp h then h
  else
    let n := a.fails + 1
    let h := raise { h with pwr := { h.pwr with avs := { a with busy := false, retry := true, fails := n } } } E.pwrAvsFail
    if 3 ≤ n && 1 ≤ a.level then later h (.fatal 7) else h

def execAvsTimeout (s : State) : Host.Outcome State Fault Refusal := act s avsTimeout

/-- AVS_RETRY, 10 ms after a failure. -/
def avsRetry (h : Hub) : Hub := if !h.pwr.avs.retry || h.ctlDown && !bringingUp h then h else avsSend h h.pwr.avs.level

def execAvsRetry (s : State) : Host.Outcome State Fault Refusal := act s avsRetry

/-! ### The limiter (R505) and the trip (R563) -/

/-- The lowest level, V1 or above, whose limit the clock `c` keeps to. -/
def levelFor (c : Nat) : Nat := if c ≤ 1000 then 1 else if c ≤ 1300 then 2 else if c ≤ 1600 then 3 else 4

/-- The limit up to which the limiter raises the clock. -/
def clkCap (h : Hub) : Nat := Nat.min (levelClk (odNum h OD.vddMaxLevel)) (odNum h OD.crankClkMax)

/-- The limiter's setting, the level lowered to match it. -/
def limitTo (h : Hub) (c : Nat) : Hub :=
  let h := reclk { h with pwr := { h.pwr with limClk := c } }
  if levelFor c < h.pwr.level then requestLevel h (levelFor c) else h

/-- A thermal hold request: 200 MHz below the clock at the request, until the hold cycle ends. -/
def holdClock (h : Hub) : Hub :=
  if h.hbms.any fun e => e.2.holding then
    let at_ := h.pwr.holdClk.getD h.pwr.clk
    let h := { h with pwr := { h.pwr with holdClk := some at_ } }
    if at_ < 200 + h.pwr.limClk then limitTo h (at_ - 200) else h
  else { h with pwr := { h.pwr with holdClk := none } }

/-- Both conditions were clear for 10 ms: the level first, then 100 MHz more. -/
def limitUp (h : Hub) : Hub :=
  let p := h.pwr
  let c := p.limClk + 100
  if p.holdClk.isSome || decide (clkCap h < c) then h
  else if levelClk p.level < c then requestLevel h (levelFor c)
  else reclk { h with pwr := { p with limClk := c, clearMs := 0 } }

/-- The limiter's action on a reading. -/
def limit (h : Hub) (power : Nat) (hottest : Int) : Hub :=
  let h := holdClock h
  let h := if levelClk (odNum h OD.vddMaxLevel) < h.pwr.limClk then limitTo h (levelClk (odNum h OD.vddMaxLevel)) else h
  let h := if odNum h OD.powerLimitW < power || decide ((odNum h OD.tjLimitC : Int) < hottest) then
      limitTo { h with pwr := { h.pwr with clearMs := 0 } } (Nat.max 400 (h.pwr.limClk - 100))
    else
      let h := { h with pwr := { h.pwr with clearMs := h.pwr.clearMs + 1 } }
      if 10 ≤ h.pwr.clearMs then limitUp h else h
  setFld h F.pwrStatusLimiting 0 (b2n (decide (h.pwr.limClk < clkCap h)))

/-- The readings of the power and of the 64 sensors (R562). -/
def storeReadings (h : Hub) (power : Nat) (t : List Int) : Hub :=
  let code (x : Int) : Nat := (x % 2 ^ 32).toNat
  let h := setFld h F.pwrStatusPowerW 0 power
  let h := each t.zipIdx h fun h e => setOdNum h (OD.tj e.2) 4 (code e.1)
  setOdNum h OD.tjMax 4 (code (t.foldl max (t.headD 0)))

/-- Two readings in a row at 110 °C or more at one sensor trip the hub: hub-fatal cause 3. -/
def tripCheck (h : Hub) (t : List Int) : Hub :=
  let hot := (t.zipIdx.filter fun e => decide (110 ≤ e.1)).map (·.2)
  let trip := hot.any h.pwr.hot.contains
  let h := { h with pwr := { h.pwr with hot := hot } }
  if trip then
    let h := { h with pwr := { h.pwr with tripLow := true }, mg := { h.mg with trips := (h.mg.trips + 1) % 2 ^ 32 } }
    later (emit h .thermtripN 0 [0]) (.hubFatal 3)
  else h

/-- LIMITER_TICK. -/
def limiterTick (h : Hub) (power : Nat) (t : List Int) : Hub :=
  if !ctlUp h || h.dead != 0 then h
  else
    let h := storeReadings h power t
    let h := if !h.dataReset && decide (h.pwr.state < 2) then limit h power (t.foldl max (t.headD 0)) else h
    tripCheck h t

def execLimiterTick (power : Nat) (temps : List Int) (s : State) : Host.Outcome State Fault Refusal :=
  actUnit (temps.length == 64 && decide (power < 65536)) s fun h => limiterTick h power temps

/-! ### Supplies (R557) -/

/-- A supply out of its tolerance for 10 µs: 0 to 3 VDD_SRAM, VDD_SERDES, VDD_SERDES_H, VDD_IO18 (fatal source 7); 4 VDD_CTL, 5 VDD_AON
(hub-fatal); 8 + n VDDQ_HBn: the ports of stack n become FAILED. -/
def supplyFault (h : Hub) (n : Nat) : Hub :=
  if !h.pwr.on || h.dead != 0 then h
  else if n < 4 then later h (.fatal 7)
  else if n < 6 then later h (.hubFatal 2)
  else each (livePorts h (n - 8)) h fun h p => if memState h p = 6 then h else failPort h p

def execSupplyFault (supply : Nat) (s : State) : Host.Outcome State Fault Refusal :=
  actUnit (decide (supply < 6) || inRange supply 8 15) s fun h => supplyFault h supply

end Sys2Proof.Machine
end

