-- ==== Sys2Proof/Machine/Sec.lean ====
section
/-!
DEFINITION. Machine/Sec.lean: the life cycle (R434 to R439), attestation (R442), deep debug and operator debug (R443 to R445), weight
binding's steps (R452) and firmware update (R525 to R537). An operation that a dictionary write starts answers its code (R462).
-/
namespace Sys2Proof.Machine

/-! ### The life cycle -/

/-- The result of a transition request (OD 0x8000.05): 1 done, 2 refused for its value or state, 3 refused because a cell failed. -/
def lcResult (h : Hub) (r : Nat) : Hub := setOdNum h OD.lcResult 1 r

/-- A transition to the next state (R437): whether each cell can be blown is a free bit. The control half restarts and the data half is
reset once the request is answered. -/
def lcAdvance (h : Hub) : Nat × Hub :=
  let (x, h) := drawFree h 1
  if x = 1 then (7, lcResult h 3)
  else
    let (y, h) := drawFree h 1
    (0, lcResult { h with mg := { h.mg with cells := h.mg.cells + (if y = 1 then 1 else 2), restart := 2 } } 1)

/-- Production to End-of-life, with the low 32 bits of the device ID (R436). -/
def lcScrap (h : Hub) (v : Nat) : Nat × Hub :=
  if v != Config.deviceId % 2 ^ 32 then (5, lcResult h 2) else if lcState h != 2 then (7, lcResult h 2) else lcAdvance h

/-- A restart that a request asked for takes place once it is answered (R437 step 5, R529). -/
def afterAnswer (h : Hub) : Hub :=
  let n := h.mg.restart
  let h := { h with mg := { h.mg with restart := 0 } }
  if n = 2 then ctlRestart (dataHalfReset h) else if n = 1 then ctlRestart h else h

/-- A JTAG command to the ROM: Blank to Test (`to` 1) or Test to Production (2). -/
def lcJtag (h : Hub) (goal : Nat) : Hub :=
  if !h.pwr.on || h.dead != 0 then h
  else
    let ok := (goal == 1 && lcState h == 0) || (goal == 2 && lcState h == 1)
    let (_, h) := if ok then lcAdvance h else (7, lcResult h 2)
    afterAnswer (emit h .jtagAnswer 0 [odNum h OD.lcResult])

def execLcJtagTransition (goal : Nat) (s : State) : Host.Outcome State Fault Refusal := act s fun h => lcJtag h goal

/-! ### Attestation (R442) -/

/-- A nonce replaces an earlier one; until the record is ready it reads as zeros. -/
def attestNonce (h : Hub) (b : List Byte) : Hub :=
  let h := setCtl h { h.mg.ctl with attNonce := some b }
  { h with od := tdel h.od OD.attest }

/-- Bytes 0 to 63 of the record. -/
def attestBody (h : Hub) : List Byte :=
  let s := (runSlot h).getD {}
  sliceB (slotDigest s) 0 48 ++ leBytes 8 (Config.deviceId % 2 ^ 64) ++ leBytes 1 (lcState h)
    ++ leBytes 1 (b2n (slotSigned s) + 2 * b2n (decide (lcState h < 2) || h.mg.ctl.dbgOpen) + 4 * b2n (debugOpen h)) ++ List.replicate 6 0

/-- ATTEST_RECORD_READY: in Blank there is no key, and the record stays zeros. -/
def attestReady (h : Hub) : Hub :=
  match h.mg.ctl.attNonce with
  | none => h
  | some n =>
    if !ctlUp h then h
    else
      let h := setCtl h { h.mg.ctl with attNonce := none }
      if h.mg.cells = 0 then h
      else
        let b := attestBody h
        setOdBytes h OD.attest (b ++ sliceB (Config.attestSign (n ++ b)) 0 96)

def execAttestRecordReady (s : State) : Host.Outcome State Fault Refusal := act s attestReady

/-! ### Deep debug (R443, R444) and operator debug (R445) -/

/-- A fresh nonce of `n` bytes. -/
def freshNonce (h : Hub) (n : Nat) : List Byte × Hub := (sliceB (Config.random h.freeN n) 0 n, { h with freeN := h.freeN + 1 })

/-- A read of OD 0x8020.01, or of the same register over JTAG. -/
def dbgNonce (h : Hub) : List Byte × Hub :=
  let (n, h) := freshNonce h 48
  (n, setCtl h { h.mg.ctl with dbgNonce := some n })

/-- A response is submitted: the nonce is used up. -/
def dbgResponse (h : Hub) (b : List Byte) : Nat × Hub :=
  let c := h.mg.ctl
  match c.dbgNonce with
  | none => (7, h)
  | some n =>
    if 8 ≤ c.dbgFails then (7, h) else if c.dbgWait.isSome then (8, h)
    else (0, setCtl h { c with dbgNonce := none, dbgWait := some (n, b) })

/-- DBG_VERIFY_DONE. -/
def dbgVerify (h : Hub) : Hub :=
  let c := h.mg.ctl
  match c.dbgWait with
  | none => h
  | some (n, b) =>
    if !ctlUp h then h
    else
      let h := setCtl h { c with dbgWait := none }
      if Config.ecdsaOk Config.debugKey (Config.sha384 (n ++ leBytes 8 (Config.deviceId % 2 ^ 64) ++ [2])) b then
        deliverNotice (setCtl h { h.mg.ctl with dbgOpen := true }) 4 0
      else setCtl h { h.mg.ctl with dbgFails := Nat.min 8 (c.dbgFails + 1) }

def execDbgVerifyDone (s : State) : Host.Outcome State Fault Refusal := act s dbgVerify

/-- A write of OD 0x8030.01: the session opens in its writer's expert session, or ends. -/
def opdbg (h : Hub) (path peer v : Nat) : Hub :=
  if v = 0 then closeOpdbg h
  else if debugOpen h then h
  else bumpOd (setOdNum (setCtl h { h.mg.ctl with opHolder := some (path, peer) }) OD.opdbg 1 1) OD.opdbgCount 4

/-! ### Weight binding's steps (R452) -/

def execBindUnwrapDone (region : Nat) (s : State) : Host.Outcome State Fault Refusal :=
  inData s (decide (region < 64)) fun h => loadUnwrap h region

def execBindChunk (region : Nat) (s : State) : Host.Outcome State Fault Refusal :=
  inData s (decide (region < 64)) fun h => loadChunk h region

/-! ### Firmware update -/

def setFwu (h : Hub) (f : Fwu) : Hub := { h with mg := { h.mg with fwu := f } }

/-- A hub image's slot is PENDING or in TRIAL. -/
def slotBusy (h : Hub) : Bool := (slotInState h 2).isSome || (slotInState h 3).isSome

/-- The guest image named by OD 0x1300.03 is being delivered (R536). -/
def fwDelivering (h : Hub) (name : Nat) : Bool :=
  h.guests.any fun e => e.2.step == 10 && fwKey h e.1 == name % 65536 * 2 ^ 32 + name / 65536 % 2 ^ 32

/-- Units of 64 KiB of a length. -/
def unitsOf (n : Nat) : Nat := ceilDiv n 65536

/-- The first free run of units behind the directory's that holds `n` (the area's size is the flash's, log entry 45). -/
def freeUnits (h : Hub) (n : Nat) : Option Nat :=
  let used := h.guestImgs.map fun g => (g.offset / 65536, unitsOf g.data.length)
  ((List.range Config.guestUnits).drop 1).find? fun b => decide (b + n ≤ Config.guestUnits)
    && !(used.any fun u => decide (b < u.1 + u.2) && decide (u.1 < b + n))

/-- BEGIN (R528, R532, R536). -/
def fwuBegin (h : Hub) (path peer : Nat) : Nat × Hub :=
  let target := odNum h OD.fwuTarget
  let name := odNum h OD.fwuGuest
  let len := odNum h OD.fwuLength
  let f : Fwu := { state := 1, path := path, peer := peer, target := target, guest := name, len := len }
  let fits := if target = 0 then inRange len 352 8388608 else inRange len 1 67108864
  if !fits then (5, h)
  else if h.mg.fwu.state != 0 || slotBusy h then (7, h)
  else if target = 0 then
    let n := 1 - h.mg.flash.active
    (0, setFwu (recSlot h n { state := 1 }) { f with slot := n })
  else match freeUnits h (unitsOf len) with
    | none => (7, h)
    | some u => if 256 ≤ h.guestImgs.length then (7, h) else if fwDelivering h name then (8, h) else (0, setFwu h { f with unit := u })

/-- FWU_ERASE_DONE. -/
def eraseDone (h : Hub) : Hub := if ctlUp h && h.mg.fwu.state == 1 then setFwu h { h.mg.fwu with state := 2 } else h

def execFwuEraseDone (s : State) : Host.Outcome State Fault Refusal := act s eraseDone

/-- The next chunk. -/
def fwuData (h : Hub) (b : List Byte) : Nat × Hub :=
  let f := h.mg.fwu
  if f.state = 0 || decide (f.len ≤ f.bytes.length) then (7, h)
  else if f.state = 1 then (8, h)
  else (0, setFwu h { f with bytes := f.bytes ++ b.take (f.len - f.bytes.length) })

/-- What END finds of the image: bytes that were not written are erased flash. -/
def fwuImage (f : Fwu) : List Byte := f.bytes ++ List.replicate (f.len - f.bytes.length) 0xFF

/-- END of a guest image: the new entry, and only then the older ones of its name go (R536). -/
def guestEnd (h : Hub) (f : Fwu) : Hub :=
  let d := fwuImage f
  let v := f.guest % 65536
  let i := f.guest / 65536 % 2 ^ 32
  let e := ((List.range 256).find? fun k => !(h.guestImgs.any fun g => g.entry == k)).getD 0
  let q := h.guestImgs.foldl (fun m g => Nat.max m (g.seq + 1)) 0
  { h with guestImgs := (dropIf h.guestImgs fun g => g.vendor == v && g.fwId == i) ++ [⟨e, v, i, 65536 * f.unit, q % 2 ^ 32, Config.sha384 d, d⟩] }

/-- END (R529). -/
def fwuEnd (h : Hub) : Nat × Hub :=
  let f := h.mg.fwu
  if f.state = 0 then (7, h)
  else if f.state = 1 then (8, h)
  else
    let h := setFwu h { result := f.result }
    if f.target != 0 then (0, guestEnd h f)
    else
      let b := fwuImage f
      if headerOk b && numAt b 16 4 == f.len && decide (numAt b 8 2 ≤ storeVersion h) then (0, recSlot h f.slot { state := 2, bytes := b })
      else (5, recSlot h f.slot {})

/-- ABORT: the slot is EMPTY. -/
def fwuAbort (h : Hub) : Nat × Hub :=
  let f := h.mg.fwu
  if f.state = 0 then (7, h)
  else
    let h := setFwu h { result := f.result }
    (0, if f.target = 0 then recSlot h f.slot {} else h)

/-- ACTIVATE: the control half restarts once the write is answered. -/
def fwuActivate (h : Hub) : Nat × Hub :=
  if (slotInState h 2).isNone then (7, h) else (0, { h with mg := { h.mg with restart := 1 } })

/-- CONFIRM. -/
def fwuConfirm (h : Hub) : Nat × Hub :=
  match slotInState h 3 with
  | none => (7, h)
  | some n => (0, confirmSlot h n)

/-- ROLLBACK. -/
def fwuRollback (h : Hub) : Nat × Hub :=
  let n := 1 - h.mg.flash.active
  if slotBusy h || (fwSlot h n).state != 4 then (7, h) else (0, recState h n 2)

/-- DELETE_GUEST. -/
def fwuDelete (h : Hub) : Nat × Hub :=
  let name := odNum h OD.fwuGuest
  let mine (g : GuestImg) : Bool := g.vendor == name % 65536 && g.fwId == name / 65536 % 2 ^ 32
  if !h.guestImgs.any mine then (7, h)
  else if fwDelivering h name then (8, h)
  else (0, { h with guestImgs := dropIf h.guestImgs mine })

/-- A command of OD 0x1300.05. -/
def fwuOp (h : Hub) (path peer cmd : Nat) : Nat × Hub :=
  match cmd with
  | 1 => fwuBegin h path peer
  | 2 => fwuEnd h
  | 3 => fwuAbort h
  | 4 => fwuActivate h
  | 5 => fwuConfirm h
  | 6 => fwuRollback h
  | _ => fwuDelete h

/-- Only the requester of BEGIN writes .02 to .07 until the update ends. -/
def fwuHeld (h : Hub) (path peer : Nat) : Bool := h.mg.fwu.state != 0 && !(h.mg.fwu.path == path && h.mg.fwu.peer == peer)

/-- A command with its result in .08. -/
def fwuCmd (h : Hub) (path peer cmd : Nat) : Nat × Hub :=
  if fwuHeld h path peer then (8, h)
  else
    let (c, h) := fwuOp h path peer cmd
    (c, setFwu h { h.mg.fwu with result := c })

/-- The trial image has run for OD 0x1300.0C seconds. -/
def autoConfirm (h : Hub) : Hub :=
  if ctlUp h && odNum h OD.autoConfirmS != 0 then (fwuConfirm h).2 else h

def execFwuAutoConfirm (s : State) : Host.Outcome State Fault Refusal := act s autoConfirm

end Sys2Proof.Machine
end

