-- ==== Sys2Proof/Machine/Mgmt.lean ====
section
/-!
DEFINITION. Machine/Mgmt.lean: reads and writes of the object dictionary (R459 to R467, R483 to R488): who may do what, in which order a
request is checked, and what an accepted write does.
-/
namespace Sys2Proof.Machine

/-! ### Sessions (R465, R466) -/

/-- The requester holds an expert session: path 1 field network (the peer's address), 2 mailbox, 3 sideband. -/
def isExpert (h : Hub) (path peer : Nat) : Bool := (path == 2 && h.mg.ctl.expMbx) || (path == 1 && h.mg.ctl.expField.contains peer)

/-- A fresh 32 B nonce for the requester; its earlier one is void. -/
def expertNonce (h : Hub) (path peer : Nat) : List Byte × Hub :=
  let (n, h) := freshNonce h 32
  let rest := h.mg.ctl.nonces.filter fun e => !(e.1 == path && e.2.1 == peer)
  (n, setCtl h { h.mg.ctl with nonces := rest ++ [(path, peer, n)] })

/-- The requester's nonce is void. -/
def voidNonce (h : Hub) (path peer : Nat) : Hub :=
  setCtl h { h.mg.ctl with nonces := h.mg.ctl.nonces.filter fun e => !(e.1 == path && e.2.1 == peer) }

/-- The proof that opens a session. -/
def expectedProof (h : Hub) (path : Nat) (nonce : List Byte) : List Byte :=
  sliceB (Config.hmac256 (odBytes h OD.expertKey 32) (nonce ++ leBytes 8 (Config.deviceId % 2 ^ 64) ++ leBytes 1 path)) 0 16

/-- A session opens: EXPERT_OPENED. -/
def openSession (h : Hub) (path peer : Nat) : Hub :=
  let c := h.mg.ctl
  let h := if path = 2 then setFld (setCtl h { c with expMbx := true }) F.mbxStatusExpert 0 1
    else if c.expField.contains peer then h else setCtl h { c with expField := c.expField ++ [peer] }
  deliverNotice h 3 (path + (if path = 1 then peer % 2 ^ 56 else 0) * 256)

/-- A mismatch is counted on its path; whether the last eight fell within 60 s is a free bit. -/
def countMiss (h : Hub) (path : Nat) : Hub :=
  let c := h.mg.ctl
  let n := tgetD c.misses path 0 + 1
  if n < 8 then setCtl h { c with misses := tset c.misses path n }
  else
    let (x, h) := drawFree h 1
    let c := h.mg.ctl
    if x = 1 then setCtl h { c with misses := tdel c.misses path, locked := c.locked ++ [path] } else setCtl h { c with misses := tset c.misses path 7 }

/-- Proofs are refused with code 11: after eight mismatches, and on the field network while no key is set. -/
def proofLocked (h : Hub) (path : Nat) : Bool := h.mg.ctl.locked.contains path || (path == 1 && (tget h.od OD.expertKey).isNone)

/-- A write of a proof. -/
def proof (h : Hub) (path peer : Nat) (b : List Byte) : Nat × Hub :=
  if path = 2 && (tget h.od OD.expertKey).isNone then (0, openSession h path peer)
  else
    let n := h.mg.ctl.nonces.find? fun e => e.1 == path && e.2.1 == peer
    let h := voidNonce h path peer
    match n with
    | none => (5, countMiss h path)
    | some (_, _, nonce) =>
      if expectedProof h path nonce != b then (5, countMiss h path)
      else if path = 1 && !h.mg.ctl.expField.contains peer && decide (8 ≤ h.mg.ctl.expField.length) then (8, h)
      else (0, openSession h path peer)

/-! ### Reads -/

/-- A value that a read itself makes or that runs on by itself: nonces, the requester's own session, times and counts. -/
def liveValue (h : Hub) (path peer k : Nat) (r : OdRow) : List Byte × Hub :=
  if k = OD.expertNonce then expertNonce h path peer
  else if k = OD.dbgNonce then dbgNonce h
  else if k = OD.expertActive then (leBytes 1 (b2n (isExpert h path peer)), h)
  else if k = OD.ctlUptimeS then
    let (x, h) := drawFree h 64
    (leBytes 8 x, h)
  else if k = OD.sramCe then
    let (x, h) := drawFree h 32
    (leBytes 4 x, h)
  else if k = OD.rtc then
    let (x, h) := drawFree h 40
    let h := { h with pwr := { h.pwr with rtc := (h.pwr.rtc + x) % 2 ^ 64 } }
    (leBytes 8 h.pwr.rtc, h)
  else (entryValue h k r, h)

/-- A read: its code, value and the hub. A value is returned from byte `off` on, which only a DOMAIN has and the sideband. -/
def dictRead (h : Hub) (path peer k off len : Nat) : Nat × List Byte × Hub :=
  match entry? h k with
  | none => (if off != 0 && path != 3 then 10 else 1, [], h)
  | some r =>
    if path = 3 && !sideRead k then (4, [], h)
    else if r.type != .domain && off != 0 && path != 3 then (10, [], h)
    else
      let (b, h) := liveValue h path peer k r
      (0, (b.drop off).take len, h)

/-- A describe request. -/
def dictDescribe (h : Hub) (k : Nat) : Nat × List Byte :=
  match firstEntry h k with
  | none => (1, [])
  | some e => match entry? h e with
    | none => (1, [])
    | some r => (0, descriptor h e r)

/-! ### Writes: the checks (R462, R467) -/

/-- The path forbids the write. -/
def pathForbids (h : Hub) (path k : Nat) (r : OdRow) (b : List Byte) : Bool :=
  match path with
  | 1 => !odOn h OD.fieldEnable || k == OD.fieldEnable
  | 2 => decide (odNum h OD.mbxRights < (if r.level = .expert then 2 else 1)) || (k == OD.mbxRights && decide (odNum h OD.mbxRights < leNat b))
  | _ => !sideWrite k || !odOn h OD.sbWriteOk

/-- The access code forbids the write. -/
def accessForbids (k : Nat) (r : OdRow) (b : List Byte) : Bool :=
  (match entryAcc k r with
    | .ro => true
    | .const => true
    | _ => false) || (k == OD.expertActive && leNat b == 1)

/-- The code of the first check that fails, up to RANGE; 0 where none does. -/
def writeCode (h : Hub) (path peer k : Nat) (r : OdRow) (b : List Byte) : Nat :=
  if pathForbids h path k r b then 4
  else if accessForbids k r b then 2
  else if r.level = .expert && !isExpert h path peer then 3
  else if heldByOverlay h k then 9
  else if !lenOk r b.length then 6
  else if k = OD.expertProof && proofLocked h path then 11
  else if !legalValue h k r b then 5
  else if stateForbids h k b then 7
  else 0

/-! ### Overlays' editor (R487) -/

/-- The overlay being edited, and a name's form. -/
def editName (h : Hub) : List Byte := (odBytes h OD.ovlEditName 8).takeWhile (· != 0)
def nameOk (n : List Byte) : Bool :=
  decide (1 ≤ n.length) && decide (n.length ≤ 8) && n.all fun c => let x := c.toNat; inRange x 65 90 || inRange x 48 57 || x == 95

/-- CONFIG_CHANGED names an entry and the path. -/
def configChanged (h : Hub) (path k : Nat) : Hub := deliverNotice h 2 (k / 256 + k % 256 * 2 ^ 16 + path * 2 ^ 24)

/-- The overlays with `o` in place of the one of its name. -/
def putOverlay (h : Hub) (o : Overlay) : Hub :=
  markDirty (setCtl h { h.mg.ctl with overlays := mapIf h.mg.ctl.overlays (fun x => x.name == o.name) fun _ => o })

/-- An overlay is replaced by `o`, whose entry `k` changed. On the active one the change is checked and applied as a write. -/
def editOverlay (h : Hub) (path : Nat) (o : Overlay) (k : Nat) : Nat × Hub :=
  if h.mg.ctl.active != o.name then (0, putOverlay h o)
  else if !checkChanges (some o) [k] h then (7, h)
  else (0, configChanged (entryEffect (putEffective (putOverlay h o) (some o) k) k) path k)

/-- The value that PUT places: the entry's own size. -/
def editValue (h : Hub) (r : OdRow) : List Byte :=
  let v := odBytes h OD.ovlEditValue 64
  match r.type with
  | .str n => (sliceB v 0 n).takeWhile (· != 0)
  | _ => sliceB v 0 r.type.size

def ovlCreate (h : Hub) : Nat × Hub :=
  let n := editName h
  if !nameOk n || decide (16 ≤ h.mg.ctl.overlays.length) || h.mg.ctl.overlays.any (fun o => o.name == n) then (5, h)
  else (0, markDirty (setCtl h { h.mg.ctl with overlays := h.mg.ctl.overlays ++ [{ name := n }] }))

/-- The overlay named; without one of that name the command is refused with code 5. -/
def onOverlay (h : Hub) (f : Overlay → Nat × Hub) : Nat × Hub :=
  match h.mg.ctl.overlays.find? fun o => o.name == editName h with
  | none => (5, h)
  | some o => f o

def ovlDelete (h : Hub) : Nat × Hub :=
  onOverlay h fun o => if h.mg.ctl.active == o.name then (7, h)
    else (0, markDirty (setCtl h { h.mg.ctl with overlays := dropIf h.mg.ctl.overlays fun x => x.name == o.name }))

def ovlPut (h : Hub) (path : Nat) : Nat × Hub :=
  let k := odNum h OD.ovlEditEntry
  onOverlay h fun o => match entry? h k with
    | none => (9, h)
    | some r =>
      let v := editValue h r
      if !overlayable k r then (9, h)
      else if decide (128 ≤ o.vals.length) && (tget o.vals k).isNone then (8, h)
      else if !lenOk r v.length then (6, h)
      else if !legalValue h k r v then (5, h)
      else editOverlay h path { o with vals := tset o.vals k v } k

def ovlRemove (h : Hub) (path : Nat) : Nat × Hub :=
  let k := odNum h OD.ovlEditEntry
  onOverlay h fun o => if (tget o.vals k).isNone then (1, h) else editOverlay h path { o with vals := tdel o.vals k } k

def ovlClear (h : Hub) : Nat × Hub :=
  onOverlay h fun o => if h.mg.ctl.active == o.name then (7, h) else (0, putOverlay h { o with vals := [] })

/-- A command of OD 0xB010.02 with its result in .05. -/
def ovlCmd (h : Hub) (path cmd : Nat) : Nat × Hub :=
  let (c, h) := match cmd with
    | 1 => ovlCreate h
    | 2 => ovlDelete h
    | 3 => ovlPut h path
    | 4 => ovlRemove h path
    | _ => ovlClear h
  (c, setOdNum h OD.ovlEditResult 1 c)

/-! ### Writes: the effects -/

/-- A factory reset is asked for or withdrawn (R488). -/
def storeCmd (h : Hub) (v : Nat) : Hub := markDirty (setCtl h { h.mg.ctl with reset := v == 1 })

/-- WAKE_REQ (R501): source 4 on the sideband, 5 on another path. -/
def wakeReq (h : Hub) (path : Nat) : Hub := wantWake (coastExit h) (if path = 3 then 4 else 5)

/-- A read of the memory window starts, or is refused with its code in .06 too (R553). -/
def dbgMem (h : Hub) : Nat × Hub :=
  let a := odNum h OD.dbgMemDpa
  let n := odNum h OD.dbgMemSectors
  let no (c : Nat) : Nat × Hub := (c, setOdNum h OD.dbgMemResult 1 c)
  if interleaved h < a + 32 * n then no 5
  else if !debugOpen h || !serving h then no 7
  else if h.mg.ctl.memRead.isSome then no 8
  else (0, wantWake (setCtl h { h.mg.ctl with memRead := some (a, n) }) 5)

/-- The region commands of R172 and R451, which need the data half. -/
def regionWrite (h : Hub) (f : Hub → Nat × Hub) : Nat × Hub := if serving h then f (wantWake h 5) else (7, h)

/-- The active overlay is chosen: its own entry is committed with it. -/
def ovlSwitch (h : Hub) (path : Nat) (b : List Byte) : Nat × Hub :=
  match switchOverlay h (b.takeWhile (· != 0)) with
  | (0, h) => (0, configChanged h path OD.ovlActive)
  | (c, h) => (c, h)

/-- A stored value: the base, the effective value, what follows at once, the commit, the notice. -/
def storeValue (h : Hub) (path k : Nat) (b : List Byte) : Hub :=
  let b := if k = OD.houseStations then leBytes 4 (leNat b &&& stationsPresent h.variant) else b
  let h := setCtl h { h.mg.ctl with base := tset h.mg.ctl.base k b }
  configChanged (markDirty (entryEffect { h with od := tset h.od k b } k)) path k

/-- An accepted write's effect, with the code it still may end in. -/
def applyWrite (h : Hub) (path peer k : Nat) (r : OdRow) (b : List Byte) : Nat × Hub :=
  let i := k / 256
  let s := k % 256
  let v := leNat b
  if k = OD.expertProof then proof h path peer b
  else if k = OD.expertActive then (0, if isExpert h path peer then endSession h path peer else h)
  else if k = OD.lcScrap then lcScrap h v
  else if k = OD.attestNonce then (0, attestNonce h b)
  else if k = OD.dbgResponse then dbgResponse h b
  else if k = OD.opdbg then (0, opdbg h path peer v)
  else if k = OD.storeCmd then (0, storeCmd h v)
  else if k = OD.ovlActive then ovlSwitch h path b
  else if k = OD.ovlEditCmd then ovlCmd h path v
  else if k = OD.wakeReq then (0, wakeReq h path)
  else if k = OD.dbgMemCmd then dbgMem h
  else if k = OD.fwuCmd then fwuCmd h path peer v
  else if k = OD.fwuData then (if fwuHeld h path peer then (8, h) else fwuData h b)
  else if i = 0x1300 && decide (2 ≤ s) && decide (s ≤ 4) && fwuHeld h path peer then (8, h)
  else if 0x5100 ≤ i && i < 0x5140 && s = 5 then regionWrite h fun h => regionCmd h (i - 0x5100) v
  else if 0x8080 ≤ i && i < 0x80C0 && s = 6 then
    regionWrite h fun h => if v = 1 then bindLoad h (i - 0x8080) else bindAbort h (i - 0x8080)
  else if k = OD.traceClasses then (0, setFld h F.trcMaskClass 0 v)
  else if k = OD.traceEn then (0, setFld h F.trcCtlEn 0 v)
  else if isStored k r then (0, storeValue h path k b)
  else (0, { h with od := tset h.od k b })

/-- A write: its code and the hub. A refused one changes nothing but what its own rule names (R13). -/
def dictWrite (h : Hub) (path peer k : Nat) (b : List Byte) : Nat × Hub :=
  match entry? h k with
  | none => (1, h)
  | some r => match writeCode h path peer k r b with
    | 0 => applyWrite h path peer k r b
    | c => (c, if k = OD.lcScrap && (c = 5 || c = 7) then lcResult h 2 else h)

end Sys2Proof.Machine
end

