-- ==== Sys2Proof/Machine/Paths.lean ====
section
/-!
DEFINITION. Machine/Paths.lean: the three paths to the dictionary: the mailbox (R468, R469), the field network (R470 to R477, R480) and the
sideband (R481, R482); and the dictionary's actions as commands of their own.
-/
namespace Sys2Proof.Machine

/-! ### The mailbox -/

/-- A request ends: its code, its value at the start of the buffer, DONE and its interrupt. -/
def mbxFinish (h : Hub) (code : Nat) (b : List Byte) : Hub :=
  let h := setFld (setFld h F.mbxStatusResult 0 code) F.mbxStatusRetLen 0 b.length
  let h := setCtl h { h.mg.ctl with mbxBuf := Memory.writeN h.mg.ctl.mbxBuf 0 b }
  let h := raise h E.mbxDone
  let h := if flag h F.mbxCfgIntEn then sendMsix h 0 (fld h F.mbxCfgVector) else h
  emit h .mbxAnswer 0 [code] b

/-- The request in MBX.CMD and MBX.OFFSET is served. -/
def mbxServe (h : Hub) : Hub :=
  let k := fld h F.mbxCmdIndex * 256 + fld h F.mbxCmdSub
  let len := fld h F.mbxCmdLength
  let off := fld h F.mbxOffsetOffset
  let op := fld h F.mbxCmdOp
  if 4096 < len then mbxFinish h 10 []
  else match op with
    | 1 =>
      let (c, b, h) := dictRead h 2 0 k off len
      mbxFinish h c b
    | 2 =>
      if off != 0 then mbxFinish h 10 []
      else
        let (c, h) := dictWrite h 2 0 k (Memory.readN h.mg.ctl.mbxBuf 0 len)
        mbxFinish h c []
    | 3 =>
      if off != 0 then mbxFinish h 10 []
      else
        let (c, b) := dictDescribe h k
        mbxFinish h c b
    | _ => mbxFinish h 10 []

/-- MBX.CTL.GO: the request is served, and a restart it asked for follows. -/
def mbxGo (h : Hub) : Hub := afterAnswer (mbxServe h)

/-- A driver's whole request: MBX.CMD, MBX.OFFSET, the buffer, GO. -/
def mbxRequest (h : Hub) (op k len off : Nat) (b : List Byte) : Hub :=
  let h := setReg h .mbxCmd 0 (op % 8 + k / 256 % 65536 * 2 ^ 8 + k % 256 * 2 ^ 24 + len % 2 ^ 13 * 2 ^ 32)
  let h := setReg h .mbxOffset 0 (off % 2 ^ 20)
  mbxGo (setCtl h { h.mg.ctl with mbxBuf := Memory.writeN h.mg.ctl.mbxBuf 0 (b.take 4096) })

def execMbxRead (index sub length offset : Nat) (s : State) : Host.Outcome State Fault Refusal :=
  ctlReg s fun h => mbxRequest h 1 (index % 65536 * 256 + sub % 256) length offset []
def execMbxWrite (index sub : Nat) (value : List Byte) (s : State) : Host.Outcome State Fault Refusal :=
  ctlReg s fun h => mbxRequest h 2 (index % 65536 * 256 + sub % 256) value.length 0 value
def execMbxDescribe (index sub : Nat) (s : State) : Host.Outcome State Fault Refusal :=
  ctlReg s fun h => mbxRequest h 3 (index % 65536 * 256 + sub % 256) 16 0 []

/-- MBX.CTL.NOTE_POP: the oldest notice, or zeros. -/
def notePop (h : Hub) : Hub :=
  let b := match h.noteRing with
    | n :: _ => noticeBytes n.1 n.2.1 n.2.2
    | [] => []
  let h := setReg (setReg h .mbxNote0 0 (numAt b 0 8)) .mbxNote1 0 (numAt b 8 8)
  setFld { h with noteRing := h.noteRing.drop 1 } F.mbxStatusNotes 0 (h.noteRing.length - 1)

def execMbxNotePop (s : State) : Host.Outcome State Fault Refusal := ctlReg s notePop

/-! ### The field network -/

/-- What the field network needs of the hub: the control half. -/
def fieldOn (h : Hub) : Bool := !h.ctlDown && h.dead == 0

/-- A counter of OD 0x1021 plus one. -/
def countField (h : Hub) (k : Nat) : Hub := bumpOd h k 4

/-- An IPv6 link-local address. -/
def isLinkLocal (a : Nat) : Bool := a / 2 ^ 118 == 0xFE80 / 64

/-- An answer leaves under the key and the address that held when its request came (R475, R490). -/
def kmpAnswer (h : Hub) (key : List Byte) (own dst : Nat) (body : List Byte) : List Byte × Hub :=
  let h := setOdNum h OD.txFrames 8 ((odNum h OD.txFrames + 1) % 2 ^ 64)
  let p := body ++ kmpTag key (beBytes 16 own) (beBytes 16 dst) body
  (p, emit h .kmpResponse dst [] p)

/-- The authenticated EPOCH message (R476). -/
def sendEpoch (h : Hub) (key : List Byte) (own dst seq : Nat) : Hub :=
  (kmpAnswer h key own dst (kmpBody 6 0 h.mg.epoch seq 0 0 0 (leBytes 4 h.mg.epoch ++ leBytes 4 h.mg.ctl.floor))).2

def setPeers (h : Hub) (ps : List KmpPeer) : Hub := setCtl h { h.mg.ctl with peers := ps }

/-- A new request is applied and its response kept among the peer's last 16 (R477). -/
def kmpApply (h : Hub) (key : List Byte) (own src : Nat) (p : List Byte) : Hub :=
  let seq := numAt p 8 4
  let k := numAt p 12 2 * 256 + numAt p 14 1
  let off := numAt p 16 4
  let write := numAt p 1 1 == 2
  let desc := bitOf (numAt p 2 1) 0
  let (c, b, h) :=
    if write then (if off != 0 then (10, [], h) else
      let (c, h) := dictWrite h 1 src k (sliceB p 24 (numAt p 20 2))
      (c, [], h))
    else if desc then (if off != 0 then (10, [], h) else
      let (c, b) := dictDescribe h k
      (c, b, h))
    else dictRead h 1 src k off (numAt p 20 2)
  let (a, h) := kmpAnswer h key own src (kmpBody 3 c (numAt p 4 4) seq (k / 256) (k % 256) off b)
  let h := setPeers h (mapIf h.mg.ctl.peers (·.addr == src) fun x => { x with seq := seq, kept := ((seq, p, a) :: x.kept).take 16 })
  afterAnswer h

/-- A peer without a slot: it takes one, where its SEQ is above the floor; with all 64 in use, that of a peer idle for 60 s (R476). -/
def kmpNewPeer (h : Hub) (key : List Byte) (own src : Nat) (p : List Byte) (idle : Option Nat) : Hub :=
  let seq := numAt p 8 4
  let ps := h.mg.ctl.peers
  if seq ≤ h.mg.ctl.floor then sendEpoch h key own src seq
  else if ps.length < 64 then kmpApply (setPeers h (ps ++ [{ addr := src, seq := 0 }])) key own src p
  else match idle.bind fun a => ps.find? (·.addr == a) with
    | some x =>
      let h := setPeers h ((ps.filter (·.addr != x.addr)) ++ [{ addr := src, seq := 0 }])
      kmpApply (setCtl h { h.mg.ctl with floor := Nat.max h.mg.ctl.floor x.seq }) key own src p
    | none => (kmpAnswer h key own src (kmpBody 3 8 (numAt p 4 4) seq (numAt p 12 2) (numAt p 14 1) (numAt p 16 4) [])).2

/-- A READ or WRITE request: epoch, replay, then the dictionary. -/
def kmpRequest (h : Hub) (key : List Byte) (own src : Nat) (p : List Byte) (idle : Option Nat) : Hub :=
  let seq := numAt p 8 4
  if numAt p 4 4 != h.mg.epoch then sendEpoch h key own src seq
  else match h.mg.ctl.peers.find? (·.addr == src) with
    | none => kmpNewPeer h key own src p idle
    | some x =>
      if x.seq < seq then kmpApply h key own src p
      else match x.kept.find? fun e => e.1 == seq && e.2.1 == p with
        | some (_, _, a) => emit (setOdNum h OD.txFrames 8 ((odNum h OD.txFrames + 1) % 2 ^ 64)) .kmpResponse src [] a
        | none => countField h OD.replays

/-- A NOTIFY_ACK ends the resends of the NOTIFY whose number it echoes. -/
def notifyAck (h : Hub) (src seq epoch : Nat) : Hub :=
  if epoch != h.mg.epoch then h else { h with notifies := dropIf h.notifies fun n => n.seq == seq && n.dest == src }

/-- A payload is in order (R474). A READ's LENGTH is the bytes wanted, and none follow (DEDUCED, log entry 46). -/
def kmpWellFormed (p : List Byte) : Bool :=
  let t := numAt p 1 1
  let len := numAt p 20 2
  decide (40 ≤ p.length) && numAt p 0 1 == 1 && inRange t 1 6 && decide (numAt p 2 1 ≤ 1) && (t == 1 || numAt p 2 1 == 0)
    && (t == 3 || numAt p 3 1 == 0) && numAt p 15 1 == 0 && numAt p 22 2 == 0 && decide (len ≤ 1024)
    && p.length == 40 + (if t = 1 then 0 else len)

/-- A KMP payload arrives from `src` for `dst`. Its tag is checked before any other field (R475). -/
def kmpRx (h : Hub) (src dst : Nat) (p : List Byte) (idle : Option Nat) : Hub :=
  let own := beNat (linkLocal h)
  let key := segKey h
  if !fieldOn h || dst != own then h
  else
    let h := setOdNum h OD.rxFrames 8 ((odNum h OD.rxFrames + 1) % 2 ^ 64)
    if !fieldUp h || !isLinkLocal src then h
    else if p.length < 40 || p.drop (p.length - 16) != kmpTag key (beBytes 16 src) (beBytes 16 dst) (p.take (p.length - 16)) then
      countField h OD.strangers
    else if !kmpWellFormed p then countField h OD.strangers
    else match numAt p 1 1 with
      | 1 => kmpRequest h key own src p idle
      | 2 => kmpRequest h key own src p idle
      | 5 => notifyAck h src (numAt p 8 4) (numAt p 4 4)
      | _ => h

/-- A payload's bytes, `length` being what LENGTH says. -/
def kmpPayload (typ flags epoch seq index sub offset length : Nat) (value tag : List Byte) : List Byte :=
  [1, BitVec.ofNat 8 typ, BitVec.ofNat 8 flags, 0] ++ leBytes 4 epoch ++ leBytes 4 seq ++ leBytes 2 index ++ leBytes 1 sub ++ [0]
    ++ leBytes 4 offset ++ leBytes 2 length ++ [0, 0] ++ value ++ sliceB tag 0 16

def execKmpRead (src dst epoch seq index sub offset length : Nat) (tag : List Byte) (idle : Option Nat) (s : State) :
    Host.Outcome State Fault Refusal :=
  act s fun h => kmpRx h src dst (kmpPayload 1 0 epoch seq index sub offset length [] tag) idle

def execKmpDescribe (src dst epoch seq index sub offset : Nat) (tag : List Byte) (idle : Option Nat) (s : State) :
    Host.Outcome State Fault Refusal :=
  act s fun h => kmpRx h src dst (kmpPayload 1 1 epoch seq index sub offset 0 [] tag) idle

def execKmpWrite (src dst epoch seq index sub offset : Nat) (value tag : List Byte) (idle : Option Nat) (s : State) :
    Host.Outcome State Fault Refusal :=
  act s fun h => kmpRx h src dst (kmpPayload 2 0 epoch seq index sub offset value.length value tag) idle

def execKmpNotifyAck (src dst epoch seq : Nat) (tag : List Byte) (s : State) : Host.Outcome State Fault Refusal :=
  act s fun h => kmpRx h src dst (kmpPayload 5 0 epoch seq 0 0 0 0 [] tag) none

/-- KMP_RESPONSE_EXPIRY: a kept response is 10 s old. -/
def responseExpiry (h : Hub) (peer seq : Nat) : Hub :=
  setPeers h (mapIf h.mg.ctl.peers (·.addr == peer) fun x => { x with kept := x.kept.filter fun e => e.1 != seq })

def execKmpResponseExpiry (peer seq : Nat) (s : State) : Host.Outcome State Fault Refusal := act s fun h => responseExpiry h peer seq

/-- NOTIFY_RESEND: after 6 sends the notice is dropped (R480). -/
def notifyResend (h : Hub) (seq : Nat) : Hub :=
  match h.notifies.find? fun n => n.seq == seq && n.sends != 0 with
  | none => h
  | some n =>
    if !fieldOn h || !fieldUp h then h
    else if 6 ≤ n.sends then countField { h with notifies := h.notifies.erase n } OD.notifyDropped
    else sendNotify (countField { h with notifies := mapIf h.notifies (· == n) fun n => { n with sends := n.sends + 1 } } OD.notifyResent) n

def execNotifyResend (seq : Nat) (s : State) : Host.Outcome State Fault Refusal := act s fun h => notifyResend h seq

/-- A frame: 0 with a bad FCS, 1 with RX_ER, 2 addressed to the hub and neither neighbour discovery nor KMP, 3 neighbour discovery,
which changes nothing of the hub's state, 4 a KMP payload as it stands (R472). -/
def fieldFrame (h : Hub) (kind src dst : Nat) (payload : List Byte) (idle : Option Nat) : Hub :=
  let rx (h : Hub) : Hub := setOdNum h OD.rxFrames 8 ((odNum h OD.rxFrames + 1) % 2 ^ 64)
  if !fieldOn h then h
  else match kind with
    | 0 => countField h OD.fcsErr
    | 1 => countField h OD.rxEr
    | 2 => countField (rx h) OD.rxOther
    | 3 => rx h
    | _ => kmpRx h src dst payload idle

def execFieldFrameRx (kind src dst : Nat) (payload : List Byte) (idle : Option Nat) (s : State) : Host.Outcome State Fault Refusal :=
  actUnit (decide (kind < 5)) s fun h => fieldFrame h kind src dst payload idle

/-- A collision on transmit: late, or the sixteenth (R472). -/
def txCollision (h : Hub) (late aborted : Bool) : Hub :=
  if !fieldOn h then h
  else
    let h := countField h OD.collisions
    let h := if late then countField h OD.lateColl else h
    if aborted then countField h OD.txAbort else h

def execFieldTxCollision (late aborted : Bool) (s : State) : Host.Outcome State Fault Refusal := act s fun h => txCollision h late aborted

/-- PLCA status falls, and comes back (R471). -/
def beaconLoss (h : Hub) : Hub :=
  if fieldOn h && h.mg.ctl.plca then countField (setCtl h { h.mg.ctl with plca := false }) OD.beaconLoss else h

def beaconReturn (h : Hub) : Hub := if fieldOn h && odOn h OD.plcaEn then setCtl h { h.mg.ctl with plca := true } else h

def execPlcaBeaconLoss (s : State) : Host.Outcome State Fault Refusal := act s beaconLoss
def execPlcaBeaconReturn (s : State) : Host.Outcome State Fault Refusal := act s beaconReturn

/-- Duplicate address detection ends (R473): passed, the NOTIFYs that waited go out; failed, nothing is sent. -/
def dadComplete (h : Hub) (unique : Bool) : Hub :=
  if !fieldOn h || h.mg.dad != 0 then h
  else
    let waiting := h.notifies.filter fun n => n.sends == 0
    let h := { h with mg := { h.mg with dad := if unique then 1 else 2 }, notifies := dropIf h.notifies fun n => n.sends == 0 }
    if !unique || !fieldUp h then h
    else each waiting h fun h n =>
      let h := if n.dest = allNodes then h else { h with notifies := h.notifies ++ [{ n with sends := 1 }] }
      sendNotify h n

def execDadComplete (unique : Bool) (s : State) : Host.Outcome State Fault Refusal := act s fun h => dadComplete h unique

/-! ### The sideband -/

/-- DYNAMIC_ADDRESS_ASSIGNMENT. -/
def execDynamicAddressAssignment (addr : Nat) (s : State) : Host.Outcome State Fault Refusal :=
  actUnit (decide (addr < 128)) s fun h => if fieldOn h then setCtl h { h.mg.ctl with dynAddr := some addr } else h

/-- A write transaction: 1 to 32 value bytes. With a bad PEC it is not applied, and the next read answers FRAME. -/
def sbWrite (h : Hub) (k : Nat) (b : List Byte) (pecOk : Bool) : Hub :=
  if !fieldOn h then h
  else if !pecOk then setCtl h { h.mg.ctl with sbBad := true }
  else afterAnswer (dictWrite h 3 0 k b).2

def execSbWrite (index sub : Nat) (value : List Byte) (pecOk : Bool) (s : State) : Host.Outcome State Fault Refusal :=
  actUnit (inRange value.length 1 32) s fun h => sbWrite h (index % 65536 * 256 + sub % 256) value pecOk

/-- No image runs: the ROM answers the identity subset alone (R439, R531). -/
def romAnswers (h : Hub) : Bool := h.pwr.on && h.ctlDown && h.dead == 0 && h.mg.resume == 3 && h.mg.slot.isNone

/-- A read transaction: status, length, up to 32 bytes. -/
def sbRead_ (h : Hub) (k off : Nat) (pecOk : Bool) : Hub :=
  let answer (h : Hub) (c : Nat) (b : List Byte) : Hub := emit h .sbAnswer 0 [c, b.length] b
  if romAnswers h then
    if !pecOk then answer h 10 []
    else if identityEntry k then
      let (c, b, h) := dictRead h 3 0 k off 32
      answer h c b
    else answer h 4 []
  else if !fieldOn h then h
  else if !pecOk || h.mg.ctl.sbBad then answer (setCtl h { h.mg.ctl with sbBad := false }) 10 []
  else
    let (c, b, h) := dictRead h 3 0 k off 32
    answer h c b

def execSbRead (index sub offset : Nat) (pecOk : Bool) (s : State) : Host.Outcome State Fault Refusal :=
  act s fun h => sbRead_ h (index % 65536 * 256 + sub % 256) offset pecOk

/-! ### The dictionary's actions as commands -/

/-- A dictionary write by a requester: on the mailbox with all a mailbox request does; a field peer's is an authenticated new request,
whose answer here names the code and the entry; on the sideband as a good write. -/
def odWrite (h : Hub) (path peer k : Nat) (b : List Byte) : Hub :=
  if !ctlUp h then h
  else match path with
    | 2 => mbxRequest h 2 k b.length 0 b
    | 1 =>
      let (c, h) := dictWrite h 1 peer k b
      afterAnswer (emit h .kmpResponse peer [c, k])
    | _ => sbWrite h k b true

/-- A dictionary read by a requester. -/
def odRead (h : Hub) (path peer k n : Nat) : Hub :=
  if !ctlUp h then h
  else match path with
    | 2 => mbxRequest h 1 k n 0 []
    | 1 =>
      let (c, b, h) := dictRead h 1 peer k 0 n
      emit h .kmpResponse peer [c, k] b
    | _ => sbRead_ h k 0 true

/-- A write of entry `k` as a command. -/
def odRow (s : State) (path peer k : Nat) (b : List Byte) : Host.Outcome State Fault Refusal :=
  actUnit (inRange path 1 3) s fun h => odWrite h path peer k b

def execLcScrap (path peer value : Nat) (s : State) : Host.Outcome State Fault Refusal := odRow s path peer OD.lcScrap (leBytes 4 value)
def execAttestNonce (path peer : Nat) (nonce : List Byte) (s : State) : Host.Outcome State Fault Refusal := odRow s path peer OD.attestNonce nonce
def execDbgResponse (path peer : Nat) (response : List Byte) (s : State) : Host.Outcome State Fault Refusal :=
  odRow s path peer OD.dbgResponse response
def execOpdbg (path peer : Nat) (on : Bool) (s : State) : Host.Outcome State Fault Refusal := odRow s path peer OD.opdbg (leBytes 1 (b2n on))
def execBindLoad (path peer region : Nat) (s : State) : Host.Outcome State Fault Refusal :=
  if region < 64 then odRow s path peer (OD.bindCmd region) [1] else .fault .noSuchUnit
def execBindAbort (path peer region : Nat) (s : State) : Host.Outcome State Fault Refusal :=
  if region < 64 then odRow s path peer (OD.bindCmd region) [2] else .fault .noSuchUnit
def execExpertProof (path peer : Nat) (proof : List Byte) (s : State) : Host.Outcome State Fault Refusal := odRow s path peer OD.expertProof proof
def execExpertClose (path peer : Nat) (s : State) : Host.Outcome State Fault Refusal := odRow s path peer OD.expertActive [0]
def execOverlaySwitch (path peer : Nat) (name : List Byte) (s : State) : Host.Outcome State Fault Refusal := odRow s path peer OD.ovlActive name
def execOvlCreate (path peer : Nat) (s : State) : Host.Outcome State Fault Refusal := odRow s path peer OD.ovlEditCmd [1]
def execOvlDelete (path peer : Nat) (s : State) : Host.Outcome State Fault Refusal := odRow s path peer OD.ovlEditCmd [2]
def execOvlPut (path peer : Nat) (s : State) : Host.Outcome State Fault Refusal := odRow s path peer OD.ovlEditCmd [3]
def execOvlRemove (path peer : Nat) (s : State) : Host.Outcome State Fault Refusal := odRow s path peer OD.ovlEditCmd [4]
def execOvlClear (path peer : Nat) (s : State) : Host.Outcome State Fault Refusal := odRow s path peer OD.ovlEditCmd [5]
def execStoreCmd (path peer value : Nat) (s : State) : Host.Outcome State Fault Refusal := odRow s path peer OD.storeCmd (leBytes 1 value)
def execWakeReq (path peer value : Nat) (s : State) : Host.Outcome State Fault Refusal := odRow s path peer OD.wakeReq (leBytes 1 value)
def execDbgMemRead (path peer : Nat) (s : State) : Host.Outcome State Fault Refusal := odRow s path peer OD.dbgMemCmd [1]
def execFwuBegin (path peer : Nat) (s : State) : Host.Outcome State Fault Refusal := odRow s path peer OD.fwuCmd [1]
def execFwuEnd (path peer : Nat) (s : State) : Host.Outcome State Fault Refusal := odRow s path peer OD.fwuCmd [2]
def execFwuAbort (path peer : Nat) (s : State) : Host.Outcome State Fault Refusal := odRow s path peer OD.fwuCmd [3]
def execFwuActivate (path peer : Nat) (s : State) : Host.Outcome State Fault Refusal := odRow s path peer OD.fwuCmd [4]
def execFwuConfirm (path peer : Nat) (s : State) : Host.Outcome State Fault Refusal := odRow s path peer OD.fwuCmd [5]
def execFwuRollback (path peer : Nat) (s : State) : Host.Outcome State Fault Refusal := odRow s path peer OD.fwuCmd [6]
def execFwuDeleteGuest (path peer : Nat) (s : State) : Host.Outcome State Fault Refusal := odRow s path peer OD.fwuCmd [7]
def execFwuData (path peer : Nat) (chunk : List Byte) (s : State) : Host.Outcome State Fault Refusal := odRow s path peer OD.fwuData chunk

def execExpertNonce (path peer : Nat) (s : State) : Host.Outcome State Fault Refusal :=
  actUnit (inRange path 1 3) s fun h => odRead h path peer OD.expertNonce 32

/-- DBG_NONCE over a path, or (path 0) over JTAG, which answers it too. -/
def execDbgNonce (path peer : Nat) (s : State) : Host.Outcome State Fault Refusal :=
  actUnit (decide (path ≤ 3)) s fun h =>
    if path != 0 then odRead h path peer OD.dbgNonce 48
    else if ctlUp h && lcState h != 3 then
      let (n, h) := dbgNonce h
      emit h .jtagAnswer 0 [] n
    else h

/-- EXPERT_IDLE_TIMEOUT and PROOF_LOCKOUT_END (R465, R466). -/
def execExpertIdleTimeout (path peer : Nat) (s : State) : Host.Outcome State Fault Refusal :=
  actUnit (inRange path 1 2) s fun h => if isExpert h path peer then endSession h path peer else h

def execProofLockoutEnd (path : Nat) (s : State) : Host.Outcome State Fault Refusal :=
  actUnit (inRange path 1 2) s fun h => setCtl h { h.mg.ctl with locked := h.mg.ctl.locked.filter (· != path) }

end Sys2Proof.Machine
end

