-- ==== Sys2Proof/Machine/RegMap.lean ====
section
/-!
DEFINITION. Machine/RegMap.lean: where the registers lie in BAR0 (R28, R418 and the chapters' blocks), and what a read of one returns
(R11, R12, R35).
-/
namespace Sys2Proof.Machine

/-! ### The map -/

/-- What lies at an 8-byte word of BAR0: nothing (R12), a register of a block's unit at its offset there, a word of an MSI-X table or
Pending Bit Array, of the mailbox buffer, of the fault ring, of the trace buffer, of a semaphore slot in the debug window, or of
SITE.DESC. -/
inductive Place where
  | none
  | reg (b : Block) (unit off : Nat)
  | msix (fn off : Nat)
  | pba (fn off : Nat)
  | mbxBuf (off : Nat)
  | ring (off : Nat)
  | traceBuf (off : Nat)
  | semSlot (n word : Nat)
  | desc (anchor off : Nat)
deriving DecidableEq, Repr

/-- Registers of a site or UCIe port in its block, at offset `x` (R289, R318, R335). At a site that is not an anchor, 0x120 to 0x17F read 0. -/
def linkPlace (h : Hub) (s x : Nat) : Place :=
  if x < 0x100 then (if s < 32 then .reg .spk s x else .reg .uci (s - 32) x)
  else if x < 0x120 then .reg .site s x
  else if x < 0x180 then (if anchorOf h s = s then .reg .site s x else .none)
  else if decide (0x1000 ≤ x) && decide (x < 0x2000) then .desc s (x - 0x1000)
  else .none

/-- Registers at memory port `p` (R126, R151, R185, R211, R388); a fused port's block is empty, a removed one has no directory. -/
def portPlace (h : Hub) (p x : Nat) : Place :=
  if !h.variant.portOn p then .none
  else if x < 0x1000 then .reg .mem p x
  else if x < 0xC000 then .none
  else if x < 0xD000 then .reg .whl p (x - 0xC000)
  else if x < 0xE000 then (if h.live.contains p || memState h p = 6 then .reg .coh p (x - 0xD000) else .none)
  else if x < 0xF000 then .reg .red p (x - 0xE000)
  else .reg .dec p (x - 0xF000)

/-- The block of the endpoint at router `n` (R101, R126, R151, R255, R407). -/
def endpointBlock (n : Nat) : Option (Block × Nat) :=
  match endpointAt n with
  | (1, i) => some (.crank, i)
  | (2, i) => some (.vec, i)
  | (3, i) => some (.drl, i)
  | (4, i) => some (.cas, i)
  | (6, _) => some (.sync, 0)
  | (8, _) => some (.pod, 0)
  | _ => none

/-- Registers at router `n` (R231, R353, R387); those of a fused endpoint are empty. -/
def routerPlace (h : Hub) (n x : Nat) : Place :=
  if x < 0x1000 then .reg .rim n x
  else if endpointFused h.variant n then .none
  else if x < 0x2000 then .reg .reg n (x - 0x1000)
  else if x < 0x3000 then (match endpointBlock n with
    | some (b, i) => .reg b i (x - 0x2000)
    | none => .none)
  else if [1, 2, 3].contains (endpointAt n).1 then .reg .tc n (x - 0x3000)
  else .none

/-- The physical function's map (R28, R370, R372, R421, R469, R506, R523, R552). -/
def pfPlace (h : Hub) (o : Nat) : Place :=
  if o < 0x100 then .reg .hub 0 o
  else if o < 0x7F00 then .reg .boot 0 (o - 0x100)
  else if o < 0x8000 then .pba 0 (o - 0x7F00)
  else if o < 0x10000 then .msix 0 (o - 0x8000)
  else if o < 0x11000 then .reg .mbx 0 (o - 0x10000)
  else if o < 0x12000 then .mbxBuf (o - 0x11000)
  else if o < 0x100000 then .none
  else if o < 0x300000 then (let s := (o - 0x100000) / 0x10000; if h.variant.siteOn s then linkPlace h s (o % 0x10000) else .none)
  else if o < 0x310000 then linkPlace h (32 + (o - 0x300000) / 0x8000) (o % 0x8000)
  else if o < 0x400000 then .none
  else if o < 0x800000 then portPlace h ((o - 0x400000) / 0x10000) (o % 0x10000)
  else if o < 0x900000 then routerPlace h ((o - 0x800000) / 0x4000) (o % 0x4000)
  else if o < 0x1000000 then .none
  else if o < 0x2000000 then .reg .ctx ((o - 0x1000000) / 0x800) (o % 0x800)
  else if o < 0x2200000 then .semSlot ((o - 0x2000000) / 16) (o % 16)
  else if o < 0x3000000 then .none
  else if o < 0x3020000 then .ring (o - 0x3000000)
  else if o < 0x3030000 then .reg .fault 0 (o - 0x3020000)
  else if o < 0x3040000 then .reg .trc 0 (o - 0x3030000)
  else if o < 0x3080000 then .traceBuf (o - 0x3040000)
  else if o < 0x3800000 then .none
  else if o < 0x3810000 then .reg .pwr 0 (o - 0x3800000)
  else .none

/-- A virtual function's map (R418). -/
def vfPlace (h : Hub) (f o : Nat) : Place :=
  if o < 0x100 then .reg .vf f o
  else if decide (0x700 ≤ o) && decide (o < 0x708) then .pba f (o - 0x700)
  else if decide (0x800 ≤ o) && decide (o < 0xC00) then .msix f (o - 0x800)
  else if decide (0x20000 ≤ o) && decide (o < 0x40000) then
    match tget (func h f).slots ((o - 0x20000) / 0x800) with
    | some c => .reg .ctx c (o % 0x800)
    | none => .none
  else .none

/-- What function `f` finds at the word at offset `o`. -/
def placeAt (h : Hub) (f o : Nat) : Place := if f = 0 then pfPlace h o else vfPlace h f o

/-- Who serves an offset (R28, R418): 0 the endpoint core, 1 the control half, 2 the data half. -/
def servedBy (f o : Nat) : Nat :=
  if f != 0 then (if o < 0x20000 then 0 else 2)
  else if o < 0x100 then 0
  else if o < 0x20000 then 1
  else if o < 0x3000000 then (if inRange o 0x100000 0x2FFFFF || inRange o 0x300000 0x30FFFF || decide (0x400000 ≤ o) then 2 else 0)
  else 1

/-- The half that serves the offset is up. -/
def halfUp (h : Hub) (f o : Nat) : Bool :=
  match servedBy f o with
  | 0 => true
  | 1 => ctlUp h
  | _ => serving h

/-! ### Where a register's value stands -/

/-- The bank of register `r` of unit `u`, place `i` in its array: a register behind a selector stands in the bank it selects. -/
def bankOf (h : Hub) (r : Reg) (u i : Nat) : Nat :=
  match r with
  | .ctxQsqBase | .ctxQcqBase | .ctxQcfg | .ctxQstat | .ctxQpos => qkey u (qsel h u)
  | .ctxRouteSlot0 => u * 8 + i
  | .casPoolBase | .casPoolGeom | .casPoolSize | .casPoolOwn | .casPoolCtl | .casPoolStat | .casPoolStat2 => poolSel h u
  | .syncBarCfg => fld h F.syncBarSelBarrier
  | .syncBarMask0 => fld h F.syncBarSelBarrier * 4 + i
  | .syncCtxCfg | .syncCtxStat => fld h F.syncCtxSelCtx
  | .spkLaneStat => laneBank u (fld h F.spkLaneSelDir u) (fld h F.spkLaneSelGroup u) (fld h F.spkLaneSelLane u)
  | .uciLaneStat => uciBank u (fld h F.uciLaneSelDir u) (fld h F.uciLaneSelModule u) (fld h F.uciLaneSelLane u)
  | .siteLease => lkey u (fld h F.siteLeaseSelSlot u)
  | .siteWinBase | .siteWinSize => lkey u (fld h F.siteLeaseSelSlot u) * 8 + fld h F.siteLeaseSelWin u
  | .rimPortFlits | .rimPortStall | .rimPortErr => rimBank u (fld h F.rimPortSelPort u) (fld h F.rimPortSelNet u)
  | .whlMap0 => u * 4 + i
  | .whlSlots0 => u * 5 + i
  | .podChCfg | .podChRing | .podChWin | .podChWinsz | .podChVec | .podChCtl | .podChStat => chSel h
  | _ => u

/-- The station of router `n`'s endpoint. -/
def routerStn (n : Nat) : Nat :=
  match endpointAt n with
  | (1, i) => i
  | (2, i) => 0x10 + i
  | (3, i) => 0x20 + i
  | (_, i) => 0x30 + i

/-- Lines with a valid sector in a station's tile cache. -/
def tcLines (h : Hub) (stn : Nat) : Nat := (((h.tc.filter fun e => e.stn == stn).map fun e => (e.ctx, e.sec / 2)).eraseDups).length

/-- Directory entries of home `p`. -/
def dirOf (h : Hub) (p : Nat) : List DirEntry := (h.dir.filter fun e => e.1 / 65536 == p).map (·.2)

/-- The violation-log entry that SITE.VLOG_SEL selects, as VLOG_A and VLOG_B show it. -/
def vlogWords (h : Hub) (a : Nat) : Nat × Nat :=
  match (guest h a).vlog[fld h F.siteVlogSelEntry a]? with
  | some e => (e.kind % 16 + e.ctx % 8192 * 2 ^ 4 + e.src % 256 * 2 ^ 17 + b2n e.agent * 2 ^ 25 + e.seq % 2 ^ 32 * 2 ^ 32, e.va)
  | none => (0, 0)

/-- The barrier that SYNC.BAR_SEL selects. -/
def barSel (h : Hub) : Barrier := tgetD h.barriers (fld h F.syncBarSelBarrier) {}

/-- A set of participants as four words. -/
def partWord (ps : List Nat) (i : Nat) : Nat := (List.range 64).foldl (fun a k => a + b2n (ps.contains (64 * i + k)) * 2 ^ k) 0

/-- A bit of a register that reads 1 while the action it started is under way (R37). -/
def busy (v bit : Nat) (on : Bool) : Nat := setBits v bit 1 (b2n on)

/-! ### What a register shows -/

/-- The 64 bits register `r` of unit `u` shows: its stored value, with the fields that mirror other state. -/
def regView (h : Hub) (r : Reg) (u i : Nat) : Nat :=
  let k := bankOf h r u i
  let v := getReg h r k
  match r with
  | .vfStatus => getReg h .hubStatus 0 % 64 + (func h u).slots.length * 2 ^ 16
  | .vfSlot => (match tget (func h u).slots (fld h F.vfSlotSelSlot u) with
    | some c => c + 2 ^ 13
    | none => 0)
  | .ctxQctl => busy 0 1 (qState h u (qsel h u) == 3)
  | .ctxCtl => busy (busy v 1 (ctxState h u == 3)) 4 (ctxState h u == 6 || h.held.contains (.ctxTeardown u))
  | .ctxStatus => setBits v 32 17 (h.atc.filter fun e => e.ctx == u).length
  | .crankStatus => setBits (setBits (setBits v 0 2 (stnShown h u)) 5 2 (Nat.min 2 (resident h u))) 16 16 h.pwr.clk
  | .vecStatus => setBits v 0 2 (stnShown h (0x10 + u))
  | .drlStatus => setBits v 0 2 (stnShown h (0x20 + u))
  | .casStatus => setBits v 0 2 (stnShown h (0x30 + u))
  | .tcStatus => tcLines h (routerStn u)
  | .cohStatus => (dirOf h u).length + ((dirOf h u).filter (·.bcast)).length * 2 ^ 32
  | .cohDirSel => if debugOpen h then v else 0
  | .cohDirLo => if debugOpen h then v else 0
  | .cohDirHi => if debugOpen h then v else 0
  | .syncBarStat => (barSel h).state + (barSel h).arrived.length * 4 + (barSel h).gen % 2 ^ 32 * 2 ^ 32
  | .syncBarArr0 => partWord (barSel h).arrived i
  | .syncPart => (match tget h.parts (fld h F.syncPartSelCtx * 256 + fld h F.syncPartSelPart) with
    | some (kind, id) => kind + id * 2 ^ 16
    | none => 0)
  | .syncCtxStat => setBits v 0 15 (h.waits.filter fun w => w.ctx == k).length
  | .spkLaneStat => if 132 ≤ fld h F.spkLaneSelLane u then 0 else v
  | .uciLaneStat => if 68 ≤ fld h F.uciLaneSelLane u then 0 else v
  | .siteStatus =>
    let leases := ((List.range 16).filter fun s => leaseState h u s != 0).length
    let v := setBits (setBits v 10 1 (b2n (siteState h u == 3 && anchorOf h u == u && shared h u))) 24 5 leases
    if u < 32 then v else setBits v 3 6 u
  | .siteCtl => busy v 1 (flag h F.siteCtlReadmit u && (siteState h u == 2 || h.held.contains (.readmit u)))
  | .siteVlogA => (vlogWords h u).1
  | .siteVlogB => (vlogWords h u).2
  | .siteLeaseCtl =>
    let s := fld h F.siteLeaseSelSlot u
    busy (busy v 0 ((leaseRec h u s).step == 1)) 1 (leaseState h u s == 2 || leaseState h u s == 3)
  | .rimStatus => setBits v 4 1 (b2n (h.live.contains u))
  | .regCfg => if regHouse h u || regGuest h u then v else 0
  | .regLimit => if regHouse h u then v else 0
  | .whlStatus =>
    let t := fld h F.memStatusTherm u
    setBits (setBits v 2 2 (if t = 3 then 1 else if t = 4 then 2 else 0)) 4 7 (slotsServed h u)
  | .whlGap => (List.range 5).foldl (fun a c => a + gapOf (wheel h u).owners c * 2 ^ (7 * c)) 0
  | .podChCtl => busy v 1 (chState h k == 3)
  | .pwrStatus => setBits (setBits (setBits v 0 2 h.pwr.state) 2 3 h.pwr.level) 16 16 h.pwr.clk
  | .trcStatus => setBits v 0 1 (b2n (tracing h))
  | _ => v

/-- A field that runs on by itself by a free amount before each read (log entry 4). -/
def runOn (h : Hub) (f : Fld) (i : Nat) : Hub :=
  let (x, h) := drawFree h 32
  addFld h f i x

/-- A read of register `r`: what it shows, where time or traffic that the model leaves free has moved it on. RIDE_MS counts while
RIDE_THROUGH is 1 and holds at 500 (R30). -/
def regRead (h : Hub) (r : Reg) (u i : Nat) : Nat × Hub :=
  match r with
  | .hubStatus =>
    if flag h F.hubStatusRideThrough then
      let (x, h) := drawFree h 9
      let h := setFld h F.hubStatusRideMs 0 (Nat.min 500 (fld h F.hubStatusRideMs + x))
      (getReg h .hubStatus 0, h)
    else (getReg h .hubStatus 0, h)
  | .trcDcount => stamp h
  | .trcCcount => stampC h
  | .regStatus =>
    if regHouse h u || regGuest h u then
      let (x, h) := drawFree h 48
      (x % 2 + x / 2 ^ 16 * 2 ^ 16, h)
    else (0, h)
  | .regUrgCyc =>
    let h := runOn h F.regUrgCycUrg u
    (getReg h .regUrgCyc u, h)
  | .rimPortStall =>
    let k := bankOf h r u i
    let h := runOn h F.rimPortStallStall k
    (getReg h .rimPortStall k, h)
  | .spkLaneStat =>
    let (x, h) := drawFree h 16
    (setBits (regView h r u i) 32 16 (if 132 ≤ fld h F.spkLaneSelLane u then 0 else x), h)
  | .uciLaneStat =>
    let (x, h) := drawFree h 16
    (setBits (regView h r u i) 16 16 (if 68 ≤ fld h F.uciLaneSelLane u then 0 else x), h)
  | _ => (regView h r u i, h)

/-! ### A read -/

/-- The two words of an MSI-X entry (R421). -/
def msixWord (h : Hub) (f off : Nat) : Nat :=
  let e : MsixEntry := tgetD h.msix (f * 2048 + off / 16) {}
  if off % 16 = 0 then e.addr % 2 ^ 64 else e.data % 2 ^ 32 + b2n e.masked * 2 ^ 32

/-- A word of the Pending Bit Array. -/
def pbaWord (h : Hub) (f off : Nat) : Nat :=
  (List.range 64).foldl (fun a i => a + b2n (tgetD h.msix (f * 2048 + 8 * off + i) ({} : MsixEntry)).pending * 2 ^ i) 0

/-- The trace record in slot `j` of the buffer: the newest whose SEQ falls there (R551). -/
def traceSlot (h : Hub) (j : Nat) : List Byte := ((h.trcBuf.reverse.find? fun b => numAt b 8 4 % 8192 == j)).getD []

/-- The word at a place. -/
def placeRead (h : Hub) (p : Place) : Nat × Hub :=
  match p with
  | .none => (0, h)
  | .reg b u o => (match regAt b o with
    | some (r, i) => regRead h r u i
    | none => (0, h))
  | .msix f o => (msixWord h f o, h)
  | .pba f o => (pbaWord h f o, h)
  | .mbxBuf o => (leNat (Memory.readN h.mg.ctl.mbxBuf o 8), h)
  | .ring o => (numAt ((tget h.faultRing (o / 32)).getD []) (o % 32) 8, h)
  | .traceBuf o => (numAt (traceSlot h (o / 32)) (o % 32) 8, h)
  | .semSlot n w =>
    if !debugOpen h then (0, h)
    else if w = 0 then (ofSigned 64 (sem h n).count, h)
    else (semWord1 h n, h)
  | .desc a o => (numAt (guest h a).shown o 8, h)

/-- An access that R11 admits: 32 or 64 bits wide, and aligned. -/
def accessOk (off size : Nat) : Bool := (size == 8 && off % 8 == 0) || (size == 4 && off % 4 == 0)

/-- The part of a word that an access of `size` bytes at `off` reads. -/
def partOf (v off size : Nat) : Nat := if size = 8 then v % 2 ^ 64 else v / 2 ^ (8 * (off % 8)) % 2 ^ 32

/-- A read of BAR0: another size or alignment reads 0 without effect; a half that is down reads 0 and the access is dropped (R17, R20). -/
def barRead (h : Hub) (f off size : Nat) : Nat × Hub :=
  if !accessOk off size then (0, h)
  else if !halfUp h f off then (0, regDropped h)
  else
    let h := if servedBy f off = 2 then hostCalls h else h
    let (v, h) := placeRead h (placeAt h f (off / 8 * 8))
    (partOf v off size, h)

/-- The offset lies in the function's BAR0: 64 MiB of the PF, 256 KiB of a VF (R414). -/
def inBar0 (f off : Nat) : Bool := decide (f < 64) && decide (off < (if f = 0 then 2 ^ 26 else 2 ^ 18))

/-- The function takes a BAR0 request: after a hub-fatal error, only one for the hub global registers (R541). -/
def barOpen (h : Hub) (f off : Nat) : Bool := memOpen h f && (h.dead == 0 || (f == 0 && decide (off < 0x100)))

/-- A memory read request to BAR0, and its completion. -/
def regReadTlp (h : Hub) (f off size : Nat) : Hub :=
  if !h.pcie.up then h
  else if !barOpen h f off then emit h .cplUr f [off]
  else
    let (v, h) := barRead h f off size
    emit h .regRead f [off, size, v]

def execRegRead (fn off size : Nat) (s : State) : Host.Outcome State Fault Refusal :=
  actUnit (inBar0 fn off) s fun h => regReadTlp h fn off size

end Sys2Proof.Machine
end

