-- ==== Sys2Proof/Machine/Spoke.lean ====
section
/-!
DEFINITION. Machine/Spoke.lean: spokes and UCIe ports in service: truing (R281, R282), quiet points and stalls (R283, R284,
R331), credits (R272), heartbeat and the isolation causes of the wires (R277, R285, R329 to R333).
-/
namespace Sys2Proof.Machine

/-- A link in service or in a stall, of a guest that is not held in reset. -/
def inService (h : Hub) (s : Nat) : Bool := linkAlive h s && (siteState h s == 3 || siteState h s == 2)

/-- Time spent in a stall is free (STALL_CYC). -/
def addStall (h : Hub) (s : Nat) : Hub :=
  let (x, h) := drawFree h 32
  if s < 32 then addFld h F.spkStallCycStall s x else addFld h F.uciStallCycStall (s - 32) x

/-! ### Truing (R281, R282) -/

/-- LINK.TRUE for group `g`. B0 is left free. -/
def sendTrue (h : Hub) (s g : Nat) : Hub :=
  let (b, h) := drawFree h 16
  countTx (emit (setLink h s { link h s with truing := some g }) .linkTrue s [g, b]) s 1

def activeGroups (h : Hub) (s : Nat) : List Nat := widthGroups (fld h F.spkStatusWidth s) (fld h F.spkStatusClass s)

/-- A window falls due. -/
def truingWindow (h : Hub) (s g : Nat) : Hub :=
  if linkUp h s && (link h s).truing.isNone && (activeGroups h s).contains g then sendTrue h s g else h

def execSpokeTruingWindow (site group : Nat) (s : State) : Host.Outcome State Fault Refusal :=
  inData s (decide (site < 32) && decide (group < 32)) fun h => truingWindow h site group

/-- The window of the group under way ends; TRUE_NOW goes on with the next group. -/
def truingEnds (h : Hub) (s : Nat) : Hub :=
  let l := link h s
  let h := setLink h s { l with truing := none }
  match l.trueLeft with
  | [] => setFld h F.spkCtlTrueNow s 0
  | g :: r =>
    let h := setLink h s { link h s with trueLeft := r }
    if linkUp h s then sendTrue h s g else h

/-- SPK.CTL.TRUE_NOW (R289). -/
def trueNow (h : Hub) (s : Nat) : Hub :=
  if !linkUp h s || flag h F.spkCtlTrueNow s then h
  else
    let h := setFld h F.spkCtlTrueNow s 1
    let h := setLink h s { link h s with trueLeft := activeGroups h s }
    if (link h s).truing.isSome then h else truingEnds h s

def execSpkTrueNow (site : Nat) (s : State) : Host.Outcome State Fault Refusal := dataReg s (decide (site < 32)) fun h => trueNow h site

/-- The group is re-centred: each lane's direction, number, margin in 1/64 beat, and corrected errors of the period. -/
def trueReport (h : Hub) (s g : Nat) (lanes : List (Nat × Nat × Nat × Nat)) : Hub :=
  let l := link h s
  if l.truing != some g then h
  else
    let h := each lanes h fun h e =>
      let b := laneBank s e.1 g e.2.1
      let h := setFld (setFld h F.spkLaneStatMargin b (Nat.min 63 e.2.2.1)) F.spkLaneStatCe b (Nat.min 65535 e.2.2.2)
      raiseN h E.spkCellCe s e.2.2.2
    let m := lanes.foldl (fun a e => Nat.min a e.2.2.1) 63
    let h := if lanes.isEmpty then h else setFld h F.spkStatusMargin s m
    let bad := lanes.filter fun e => decide (e.2.2.1 < odNum h OD.spkMargin) || decide (odNum h OD.spkLaneCe < e.2.2.2)
    let h := failLanes h s (bad.map fun e => (e.1, g, e.2.1))
    truingEnds (setLink h s { link h s with failRun := tdel (link h s).failRun g }) s

/-- A link message a guest may not send on this link is a protocol error (R278, R324). -/
def linkProtocol (h : Hub) (s : Nat) : Hub := violation h (anchorOf h s) 8 0 0 false 0 none none

def execLinkTrueRpt (site group : Nat) (lanes : List (Nat × Nat × Nat × Nat)) (s : State) : Host.Outcome State Fault Refusal :=
  inData s (isLink site && decide (group < 32) && lanes.all fun e => decide (e.1 < 2) && decide (e.2.1 < 132)) fun h =>
    if !inService h site then h
    else if 32 ≤ site then linkProtocol (countRx h site 1) site
    else trueReport (countRx h site 1) site group lanes

/-- A missing report counts one failed window; two in a row fail the group's down lanes (R281, R282). -/
def trueMissed (h : Hub) (s : Nat) : Hub :=
  let l := link h s
  match l.truing with
  | none => h
  | some g =>
    let n := tgetD l.failRun g 0 + 1
    let h := setLink h s { l with failRun := tset l.failRun g n }
    let h := if n < 2 then h else failLanes h s ((List.range 128).map fun i => (0, g, i))
    truingEnds h s

def execTrueRptTimeout (site : Nat) (s : State) : Host.Outcome State Fault Refusal := inData s (decide (site < 32)) fun h => trueMissed h site

/-! ### Quiet points (R283, R284) -/

/-- LINK.MAP goes out and the stall starts; B1 is left free. -/
def sendMap (h : Hub) (s kind dir g k l w c : Nat) : Hub :=
  let (b, h) := drawFree h 16
  let h := setLink h s { link h s with stall := 1, mapKind := kind, mapDir := dir, mapGroup := g, mapSpare := k, mapLane := l, newWidth := w,
                                       newClass := c, mapB1 := b, truing := none, trueLeft := [] }
  let h := setFld (setFld h F.spkStatusState s 4) F.spkCtlTrueNow s 0
  countTx (emit h .linkMap s [kind, dir, g, k - 128, l, w, c, b]) s 1

/-- What the hub decides for lanes that fail: a spare repair of one lane, else a narrower state, else isolation with cause
WIDTH. Lanes that have a spare are repaired first (log entry 30). -/
def decideMap (h : Hub) (s : Nat) : Hub :=
  let w := fld h F.spkStatusWidth s
  let c := fld h F.spkStatusClass s
  let bad := (unrepaired h s).filter fun e => (widthGroups w c).contains e.2.1
  match bad.find? fun e => !(freeSpares h s e.1 e.2.1).isEmpty with
  | some e => sendMap h s 0 e.1 e.2.1 ((freeSpares h s e.1 e.2.1).headD 128) e.2.2 w c
  | none =>
    if bad.isEmpty then h
    else match (nextWidths false w c).find? (widthClean h s) with
      | some (x, y) => sendMap h s 1 0 0 128 0 x y
      | none => isolate h (anchorOf h s) 5

def execSpokeQuietPoint (site : Nat) (s : State) : Host.Outcome State Fault Refusal :=
  inData s (decide (site < 32)) fun h => if linkUp h site && siteState h site == 3 then decideMap h site else h

/-- Step 3: the new map is in use. -/
def mapInUse (h : Hub) (s : Nat) : Hub :=
  let l := link h s
  let h := setLink h s { l with stall := 2 }
  if l.mapKind = 0 then setSpares (mapSpare h s l.mapDir l.mapGroup l.mapLane l.mapSpare) s else setWidth h s (some (l.newWidth, l.newClass))

/-- LINK.MAP_ACK: of a spoke with B1 echoed, of a UCIe port with 0 (R284, R331). Another value is a nonzero reserved field or a
wrong echo, a protocol error. -/
def mapAck (h : Hub) (s b : Nat) : Hub :=
  let l := link h s
  if l.stall != 1 then h
  else if s < 32 then (if b = l.mapB1 then mapInUse h s else linkProtocol h s)
  else if b = 0 then setLink h s { l with stall := 2 } else linkProtocol h s

def execLinkMapAck (site b1 : Nat) (s : State) : Host.Outcome State Fault Refusal :=
  inData s (isLink site) fun h => if inService h site then mapAck (countRx h site 1) site b1 else h

/-- The trace event of a width that went down. -/
def widthTrace (h : Hub) (s w : Nat) : Hub := trace h 0 (guestRouter (anchorOf h s)) 0x52 none (s + w * 2 ^ 12)

/-- A stall ends: cells resume. -/
def stallEnds (h : Hub) (s : Nat) (down : Bool) (w : Nat) : Hub :=
  let h := setLink (addStall h s) s { link h s with stall := 0 }
  let h := if s < 32 then
      let h := setFld h F.spkStatusState s 3
      if down then raise h E.spkWidthDown s else raise h E.spkLaneRepair s
    else
      let h := setFld h F.uciStatusState (s - 32) 2
      if down then raise h E.uciWidthDown (s - 32) else raise h E.uciLaneRepair (s - 32)
  drainLink (if down then widthTrace h s w else h) s

/-- LINK.MAP_RPT: `errors` the guest saw, and the lanes that erred in either direction. With errors and no lane named, the spare just
mapped is the one that erred; a width change is then verified again. -/
def mapReport (h : Hub) (s errors : Nat) (bad : List (Nat × Nat × Nat)) : Hub :=
  let l := link h s
  if l.stall != 2 then h
  else if errors = 0 && bad.isEmpty then stallEnds h s (l.mapKind == 1) l.newWidth
  else if !bad.isEmpty then decideMap (failLanes h s bad) s
  else if l.mapKind = 0 then decideMap (failLanes h s [(l.mapDir, l.mapGroup, l.mapSpare)]) s
  else sendMap h s 1 0 0 128 0 l.newWidth l.newClass

def execLinkMapRpt (site errors : Nat) (failed : List (Nat × Nat × Nat)) (s : State) : Host.Outcome State Fault Refusal :=
  inData s (isLink site && failed.all laneOk) fun h =>
    if !inService h site then h
    else if 32 ≤ site then linkProtocol (countRx h site 1) site
    else mapReport (countRx h site 1) site errors failed

/-- A guest misses step 2 or 4 of a stall, or step 2 of a UCIe stall (R284, R331). -/
def execStallBoundMiss (site : Nat) (s : State) : Host.Outcome State Fault Refusal :=
  inData s (isLink site) fun h =>
    let st := (link h site).stall
    if st = 1 || (st = 2 && site < 32) then isolate h (anchorOf h site) 3 else h

/-! ### Credits (R272) -/

/-- LINK.CREDIT: from the guest, the cells it freed; or, with none, the hub returns those it owes. -/
def linkCredit (h : Hub) (s : Nat) (counts : Option (List Nat)) : Hub :=
  if !linkAlive h s then h
  else
    let l := link h s
    match counts with
    | some cs => drainLink (countRx (setLink h s { l with guestCr := l.guestCr.zipIdx.map fun e => e.1 + cs.getD e.2 0 }) s 1) s
    | none =>
      let h := setLink h s { l with hubCr := l.hubCr.zipIdx.map (fun e => e.1 + l.owed.getD e.2 0), owed := [0, 0, 0, 0, 0, 0] }
      countTx (emit h .linkCredit s l.owed) s 1

def execLinkCredit (site : Nat) (counts : Option (List Nat)) (s : State) : Host.Outcome State Fault Refusal :=
  inData s (isLink site && ((counts.getD []).all fun c => decide (c < 65536)) && decide ((counts.getD []).length ≤ 6)) fun h =>
    linkCredit h site counts

/-! ### Heartbeat, wires and cell errors (R277, R285, R333) -/

/-- A toggle or a beat restarts the check: the line's level is kept. -/
def beat (h : Hub) (s : Nat) : Hub := setLink h s { link h s with pins := ((link h s).pins + 1) % 2 }

def execHbeatToggle (site : Nat) (s : State) : Host.Outcome State Fault Refusal := inData s (decide (site < 32)) fun h => beat h site

/-- LINK.BEAT: on a spoke a protocol error (R324). -/
def execLinkBeat (site : Nat) (s : State) : Host.Outcome State Fault Refusal :=
  inData s (isLink site) fun h =>
    if !inService h site then h
    else if site < 32 then linkProtocol (countRx h site 1) site
    else beat (countRx h site 1) site

/-- GRST_N of the guest is high: it has come to training, or is ADMITTED. -/
def guestRuns (h : Hub) (s : Nat) : Bool := siteState h s == 3 || (siteState h s == 2 && decide (6 ≤ (guest h (anchorOf h s)).step))

/-- No toggle for 4 µs. A UCIe port's check is suspended in a stall. -/
def execHeartbeatLost (site : Nat) (s : State) : Host.Outcome State Fault Refusal :=
  inData s (isLink site) fun h =>
    if guestRuns h site && !(decide (32 ≤ site) && (link h site).stall != 0) then isolate h (anchorOf h site) 1 else h

def execGuestResetRequest (site : Nat) (s : State) : Host.Outcome State Fault Refusal :=
  inData s (isLink site) fun h => if guestRuns h site then isolate h (anchorOf h site) 2 else h

def execGuestError (site : Nat) (s : State) : Host.Outcome State Fault Refusal :=
  inData s (isLink site) fun h => if guestRuns h site then isolate h (anchorOf h site) 3 else h

/-- An uncorrectable cell: wholly in a DAT message's sectors, which then arrive poisoned; anywhere else it isolates the site. -/
def cellUe (h : Hub) (s : Nat) (data : Bool) : Hub :=
  if !inService h s then h
  else
    let h := if s < 32 then raise h E.spkCellUe s else raise h E.uciCellUe (s - 32)
    if data then h else isolate h (anchorOf h s) 4

def execCellUe (site : Nat) (data : Bool) (s : State) : Host.Outcome State Fault Refusal := inData s (isLink site) fun h => cellUe h site data

/-! ### UCIe in service (R329 to R332) -/

/-- Lanes fail: a repair or x32 in one stall, or the port goes down. Failures in a stall join it. -/
def uciLaneFail (h : Hub) (p : Nat) (ls : List (Nat × Nat × Nat)) : Hub :=
  let s := 32 + p
  if !inService h s then h
  else
    let h := uciFail h p ls
    if (link h s).stall != 0 || (uciUnrepaired h p).isEmpty then h
    else match uciSettle h p with
      | none => isolate (raise h E.uciLinkDown p) s 5
      | some h' =>
        let h := setFld (setLink h s { link h s with stall := 1 }) F.uciStatusState p 3
        countTx (emit h .linkMap s [1, 0, 0, 0, 0, b2n (flag h' F.uciStatusX32 p), 0, 0]) s 1

def execUcieLaneFail (port : Nat) (lanes : List (Nat × Nat × Nat)) (s : State) : Host.Outcome State Fault Refusal :=
  inData s (decide (port < 2) && lanes.all uciLaneOk) fun h => uciLaneFail h port lanes

/-- The retrain returns to active with the new repair or width. -/
def retrained (h : Hub) (p : Nat) : Hub :=
  let s := 32 + p
  if (link h s).stall != 2 then h
  else match uciSettle h p with
    | none => isolate (raise h E.uciLinkDown p) s 5
    | some h' => stallEnds h' s (flag h' F.uciStatusX32 p && !flag h F.uciStatusX32 p) 1

def execUcieRetrainDone (port : Nat) (s : State) : Host.Outcome State Fault Refusal := inData s (decide (port < 2)) fun h => retrained h port

def execUcieRetrainTimeout (port : Nat) (s : State) : Host.Outcome State Fault Refusal :=
  inData s (decide (port < 2)) fun h => if (link h (32 + port)).stall = 2 then isolate h (32 + port) 5 else h

/-- The mainband drops: LINK_UE outside a stall; inside one, a failure of step 3. -/
def execUcieLinkDown (port : Nat) (s : State) : Host.Outcome State Fault Refusal :=
  inData s (decide (port < 2)) fun h =>
    let s := 32 + port
    if !inService h s then h
    else isolate (raise h E.uciLinkDown port) s (if (link h s).stall != 0 then 5 else 4)

end Sys2Proof.Machine
end

