-- ==== Sys2Proof/Machine/Sync.lean ====
section
/-!
DEFINITION. Machine/Sync.lean: the commands on semaphores, waits and barriers (R232 to R255): guest messages, the driver's
registers, the debug window and the watchdog.
-/
namespace Sys2Proof.Machine

/-! ### Guest messages -/

/-- Waits that the guest at `a` has outstanding, those whose acquire range is still due included (R304 check 8). -/
def guestWaits (h : Hub) (a : Nat) : Nat :=
  (h.waits.filter fun w => match w.by_ with
    | .guest b _ _ => b == a
    | _ => false).length + (h.acqWait.filter fun w => w.anchor == a).length

/-- What a sync request asks of the permit: class SEM (R301); it names no station and no agent (R238). -/
def askSem (c : Nat) : Ask := { cls := some 4, ctx := some c }

/-- SEM.WAIT_GE of a guest (R237, R238). The station `n` that sends it is known to its spoke (log entry 20). With ACQ it
waits for its second flit. -/
def guestWaitGe (h : Hub) (site n txn c m thr : Nat) (acq : Bool) (form : Nat) : Hub :=
  let a := anchorOf h site
  let stn := stnNum site n
  let full := decide (fld h F.siteLimitsSemMax a ≤ guestWaits h a)
  arrive h site 0 2 form { askSem c with full := full } false (fun h => semResult h (.guest a txn stn) 4 0) fun h =>
    if acq then setGuest h a { guest h a with part := some ⟨site, stn, txn, c, m, toSigned 64 thr⟩ }
    else semWait h (.guest a txn stn) c m (toSigned 64 thr) none

def execSemWaitGe (site n txn ctx sem thr : Nat) (acq : Bool) (form : Nat) (s : State) : Host.Outcome State Fault Refusal :=
  actUnit (isLink site && decide (n < 64) && decide (sem < 131072) && formOk form) s fun h =>
    guestWaitGe h site n txn ctx sem thr acq form

/-- SEM.ACQ_RANGE (R238): it must follow its wait at once, with the same TXN and a length of 1 to 2^27 units; the whole
range must lie in windows with the read right (R304 check 6). -/
def guestAcqRange (h : Hub) (site txn base len form : Nat) : Hub :=
  let a := anchorOf h site
  match (guest h a).part with
  | none => arrive h site 0 2 1 {} true id id
  | some p =>
    if p.site != site || p.txn != txn || form == 1 then arrive h site 0 2 1 {} (p.site != site) id id
    else
      let h := setGuest h a { guest h a with part := none }
      let form := if len = 0 || decide (2 ^ 27 < len) then 2 else form
      let pages := (List.range ((base * 32 + len * 32 - 1) / 4096 - base * 32 / 4096 + 1)).map fun i => (base * 32 / 4096 + i) * 4096
      arrive h site 0 2 form { askSem p.ctx with vas := pages, rd := true } true (fun h => semResult h (.guest a txn p.stn) 4 0)
        fun h => semWait h (.guest a txn p.stn) p.ctx p.sem p.thr (some (base * 32, len))

def execSemAcqRange (site txn base len form : Nat) (s : State) : Host.Outcome State Fault Refusal :=
  actUnit (isLink site && formOk form) s fun h => guestAcqRange h site txn base len form

/-- SEM.ADD or SEM.SUB of a guest (R237, R240, R241): a fast post goes at once where fast posts are honoured; an ordered
one is held while an earlier write of the guest under the context is not acknowledged. -/
def guestPost (h : Hub) (site n txn c m v : Nat) (sub fast : Bool) (form : Nat) : Hub :=
  let a := anchorOf h site
  let stn := stnNum site n
  arrive h site 0 2 form (askSem c) false (fun h => semResult h (.guest a txn stn) 4 0) fun h =>
    let due := pendingWrites h a c
    if (fast && odOn h OD.syncFastPost) || due.isEmpty then semPost h (.guest a txn stn) c m v sub
    else { h with posts := h.posts ++ [⟨a, txn, c, m, v, sub, stn, due⟩] }

def execSemAdd (site n txn ctx sem value : Nat) (fast : Bool) (form : Nat) (s : State) : Host.Outcome State Fault Refusal :=
  actUnit (isLink site && decide (n < 64) && decide (sem < 131072) && formOk form) s fun h =>
    guestPost h site n txn ctx sem (value % 2 ^ 64) false fast form

def execSemSub (site n txn ctx sem value : Nat) (fast : Bool) (form : Nat) (s : State) : Host.Outcome State Fault Refusal :=
  actUnit (isLink site && decide (n < 64) && decide (sem < 131072) && formOk form) s fun h =>
    guestPost h site n txn ctx sem (value % 2 ^ 64) true fast form

/-- A held post goes out once every write it followed is acknowledged (R240). -/
def postRelease (h : Hub) (a stn txn : Nat) : Hub :=
  match h.posts.find? fun p => p.anchor == a && p.stn == stn && p.txn == txn with
  | none => h
  | some p =>
    let left := pendingWrites h a p.ctx
    if p.due.any fun d => left.contains d then h
    else semPost { h with posts := h.posts.erase p } (.guest a txn stn) p.ctx p.sem p.value p.sub

def execOrderedPostRelease (anchor stn txn : Nat) (s : State) : Host.Outcome State Fault Refusal :=
  inData s (isLink anchor) fun h => postRelease h anchor stn txn

/-! ### The driver's registers (R234, R235, R246, R255) -/

/-- A write that gives a sync register a value outside its range, or an action refused (R255). -/
def syncRefused (h : Hub) : Hub := raise h E.syncCfgRefused

/-- RESULT of the last semaphore action. -/
def semRes (h : Hub) (r : Nat) : Hub :=
  let h := setFld h F.syncSemCtlResult 0 r
  if r = 0 then h else syncRefused h

/-- INIT (R234): the context named is checked first (R235, log entry 109); a free semaphore is claimed; its owner re-initialises it, and waiters that the new count meets are
released. -/
def semInit (h : Hub) : Hub :=
  let n := fld h F.syncSemSelSem
  let c := fld h F.syncSemSelCtx
  let v := toSigned 64 (fld h F.syncSemValValue)
  let m := sem h n
  if !ctxLive h c then semRes h 5
  else if m.alloc && m.owner != c then semRes h 1
  else if m.alloc then releaseMet (semRes (setSem h n { m with count := v, baseline := v, abandoned := false, handSet := false }) 0) n
  else semRes (setSem h n { count := v, owner := c, alloc := true, baseline := v }) 0

/-- FREE (R234). -/
def semFree (h : Hub) : Hub :=
  let n := fld h F.syncSemSelSem
  let m := sem h n
  if !m.alloc || m.owner != fld h F.syncSemSelCtx then semRes h 1
  else if !(semWaiters h n).isEmpty then semRes h 2
  else if m.barrier then semRes h 6
  else semRes { h with sems := tdel h.sems n, grants := dropIf h.grants fun g => g.sem == n } 0

/-- GRANT (R235): a context's further grant on the same semaphore takes the place of its earlier one. -/
def semGrant (h : Hub) : Hub :=
  let n := fld h F.syncSemSelSem
  let m := sem h n
  let g := fld h F.syncSemGrantGrantee
  let w := flag h F.syncSemGrantWait
  let p := flag h F.syncSemGrantPost
  let others := dropIf h.grants fun x => x.sem == n && x.ctx == g
  if !m.alloc || m.owner != fld h F.syncSemSelCtx then semRes h 1
  else if !(w || p) || !ctxLive h g then semRes h 5
  else if 128 ≤ (others.filter fun x => x.sem % 64 == n % 64).length then semRes h 3
  else semRes { h with grants := others ++ [⟨n, g, w, p⟩] } 0

/-- REVOKE (R235). -/
def semRevoke (h : Hub) : Hub :=
  let n := fld h F.syncSemSelSem
  let m := sem h n
  let mine (x : Grant) : Bool := x.sem == n && x.ctx == fld h F.syncSemGrantGrantee
  if !m.alloc || m.owner != fld h F.syncSemSelCtx then semRes h 1
  else if !h.grants.any mine then semRes h 4
  else semRes { h with grants := dropIf h.grants mine } 0

def execSemInit (s : State) : Host.Outcome State Fault Refusal := dataReg s true semInit
def execSemFree (s : State) : Host.Outcome State Fault Refusal := dataReg s true semFree
def execSemGrant (s : State) : Host.Outcome State Fault Refusal := dataReg s true semGrant
def execSemRevoke (s : State) : Host.Outcome State Fault Refusal := dataReg s true semRevoke

def barRes (h : Hub) (r : Nat) : Hub :=
  let h := setFld h F.syncBarCtlResult 0 r
  if r = 0 then h else syncRefused h

/-- The participants named in the mask registers of record `i`. -/
def barMask (h : Hub) (i : Nat) : List Nat :=
  (List.range 256).filter fun p => bitOf (getReg h .syncBarMask0 (i * 4 + p / 64)) (p % 64)

/-- CREATE (R246). -/
def barCreate (h : Hub) : Hub :=
  let i := fld h F.syncBarSelBarrier
  let x := fld h F.syncBarCfgArriveSem i
  let y := fld h F.syncBarCfgReleaseSem i
  let c := fld h F.syncBarCfgCtx i
  let mask := barMask h i
  let b : Barrier := tgetD h.barriers i {}
  let own (n : Nat) : Bool := (sem h n).alloc && (sem h n).owner == c && !(sem h n).barrier
  if b.state != 0 then barRes h 1
  else if !ctxLive h c then barRes h 4
  else if !own x || !own y || x == y then barRes h 2
  else if mask.isEmpty || mask.any fun p => (tget h.parts (c * 256 + p)).isNone then barRes h 3
  else
    let h := setSem (setSem h x { sem h x with barrier := true }) y { sem h y with barrier := true }
    barRes { h with barriers := tset h.barriers i { state := 1, ctx := c, arrive := x, release := y, mask := mask } } 0

/-- DESTROY (R246): the record is FREE and its semaphores' BARRIER bits are clear. -/
def barDestroy (h : Hub) : Hub :=
  let i := fld h F.syncBarSelBarrier
  match tget h.barriers i with
  | none => barRes h 1
  | some b =>
    let clear (h : Hub) (n : Nat) : Hub := if (sem h n).alloc then setSem h n { sem h n with barrier := false } else h
    barRes { clear (clear h b.arrive) b.release with barriers := tdel h.barriers i } 0

/-- FORCE (R253): the current generation is released as if every participant had arrived. -/
def barForce (h : Hub) : Hub :=
  let i := fld h F.syncBarSelBarrier
  let b : Barrier := tgetD h.barriers i {}
  if !debugOpen h then barRes h 5
  else if b.state != 1 then barRes h 1
  else barRelease (barRes h 0) i b

def execBarCreate (s : State) : Host.Outcome State Fault Refusal := dataReg s true barCreate
def execBarDestroy (s : State) : Host.Outcome State Fault Refusal := dataReg s true barDestroy
def execBarForce (s : State) : Host.Outcome State Fault Refusal := dataReg s true barForce

/-- A binding's identity lies in its kind's range (R245). -/
def partIdOk (kind id : Nat) : Bool :=
  match kind with
  | 0 => true
  | 1 => decide (id < 64)
  | 2 => isGuest id
  | _ => decide (id < 4096)

/-- A write of SYNC.PART binds the selected participant (R245); kind 0 unbinds it. -/
def partBind (h : Hub) (kind id : Nat) : Hub :=
  let c := fld h F.syncPartSelCtx
  let p := fld h F.syncPartSelPart
  let k := c * 256 + p
  let used := h.barriers.any fun b => b.2.state == 1 && b.2.ctx == c && b.2.mask.contains p
  if used || !partIdOk kind id then syncRefused h
  else if kind = 0 then { h with parts := tdel h.parts k }
  else if (tget h.parts k).isNone && decide (16384 ≤ h.parts.length) then syncRefused h
  else { h with parts := tset h.parts k (kind, id) }

def execPartBind (kind id : Nat) (s : State) : Host.Outcome State Fault Refusal :=
  dataReg s (decide (kind < 4) && decide (id < 65536)) fun h => partBind h kind id

/-- SYNC.CTX_CTL.AUDIT (R254). -/
def execSyncAudit (s : State) : Host.Outcome State Fault Refusal := dataReg s true fun h => syncAudit h (fld h F.syncCtxSelCtx)

/-- A write of SYNC.CTX_CFG (R255): dropped whole where the period or the vector is out of range (R421). -/
def syncCtxCfg (h : Hub) (wdog vec : Nat) : Hub :=
  let c := fld h F.syncCtxSelCtx
  if 600000 < wdog || vectors (ctxFunc h c) ≤ vec then syncRefused h
  else setFld (setFld h F.syncCtxCfgWdogMs c wdog) F.syncCtxCfgVector c vec

def execSyncCtxCfgWrite (wdog vector : Nat) (s : State) : Host.Outcome State Fault Refusal :=
  dataReg s (decide (wdog < 2 ^ 20) && decide (vector < 2 ^ 11)) fun h => syncCtxCfg h wdog vector

/-! ### The debug window (R29, R253) -/

/-- A write of the window on semaphore `n`: dropped outside a session, and on a slot that is not allocated. -/
def handSet (h : Hub) (n : Nat) (f : Hub → Hub) : Hub :=
  if !debugOpen h || !(sem h n).alloc then h
  else raise (f (setSem h n { sem h n with handSet := true })) E.syncHandSet

/-- SEM.SET: the whole count (0), its lower half (1) or its upper half (2) (R11, R253). -/
def semSet (h : Hub) (n half v : Nat) : Hub :=
  handSet h n fun h =>
    let old := ofSigned 64 (sem h n).count
    let w := if half = 0 then v else if half = 1 then setBits old 0 32 v else setBits old 32 32 v
    releaseMet (setSem h n { sem h n with count := toSigned 64 w }) n

def execSemSet (sem half value : Nat) (s : State) : Host.Outcome State Fault Refusal :=
  dataReg s (decide (sem < 131072) && decide (half < 3)) fun h => semSet h sem half value

/-- The command word: WAKE_ALL releases every waiter with OK, CLR_ABANDONED clears ABANDONED (R253). -/
def semWord (h : Hub) (n : Nat) (wake clear : Bool) : Hub :=
  handSet h n fun h =>
    let h := if wake then each (semWaiters h n) h fun h w => releaseWait h w 0 else h
    if clear then setSem h n { sem h n with abandoned := false } else h

def execSemWakeAll (sem : Nat) (s : State) : Host.Outcome State Fault Refusal :=
  dataReg s (decide (sem < 131072)) fun h => semWord h sem true false

def execSemClrAbandoned (sem : Nat) (s : State) : Host.Outcome State Fault Refusal :=
  dataReg s (decide (sem < 131072)) fun h => semWord h sem false true

/-! ### The watchdog (R251, R252) -/

/-- The event, what fired and the vector. -/
def wdogNote (h : Hub) (c what : Nat) : Hub :=
  let h := setFld (raise h E.syncWdog) F.syncCtxStatWdogWhat c what
  sendMsix h (ctxFunc h c) (fld h F.syncCtxCfgVector c)

/-- A queue held by a full completion ring (R60): it has records or commands that the ring keeps waiting. -/
def heldByRing (h : Hub) (c s : Nat) : Bool :=
  let q := qrec h c s
  qState h c s == 1 && !cqRoom h c s && (!q.recs.isEmpty || !(cmdsOf h c s).isEmpty || q.nextRd != q.sqTail)

/-- The watchdog of context `c` fires on wait-table entry `what`, or, with `ring`, on the full completion ring of queue
slot `what`. It does not count while the data half is frozen or the context is suspended. -/
def wdogFire (h : Hub) (c what : Nat) (ring : Bool) : Hub :=
  if frozen h || ctxState h c != 2 then h
  else if ring then
    if !heldByRing h c what then h
    else
      let h := wdogNote h c 0x20000
      if odOn h OD.syncWdogKill then later h (.kill c 2)
      else
        let h := haltQueue h c what 8
        let q := qrec h c what
        setQrec h c what { q with recs := q.recs ++ [⟨0, 8, 0x20000, none⟩] }
  else
    match h.waits.find? fun w => w.index == what && w.ctx == c with
    | none => h
    | some w =>
      let h := wdogNote h c w.sem
      if odOn h OD.syncWdogKill then later h (.kill c 2) else releaseWait h w 2

def execWatchdogFire (ctx what : Nat) (ring : Bool) (s : State) : Host.Outcome State Fault Refusal :=
  inData s (decide (ctx < 8192)) fun h => wdogFire h ctx what ring

end Sys2Proof.Machine
end

