-- ==== Sys2Proof/Machine/RegAccess.lean ====
section
/-!
DEFINITION. Machine/RegAccess.lean: writes of registers through BAR0 (R11, R12, R30 to R37) and over the stem link (R456), the trace
buffer's CLEAR (R552), and an error of the endpoint core (R541).
-/
namespace Sys2Proof.Machine

/-! ### One register -/

/-- The bits of a 64-bit word that an access of `size` bytes at `off` touches. -/
def touched (off size : Nat) : Nat := if size = 8 then 2 ^ 64 - 1 else (2 ^ 32 - 1) * 2 ^ (8 * (off % 8))

/-- The word with the touched bits of `w` in place of its own. -/
def mergeBits (old m w : Nat) : Nat := (old - (old &&& m)) ||| (w &&& m)

/-- TRC.CTL.CLEAR: the buffer is empty and TRIGGERED is 0; SEQ goes on. -/
def trcClear (h : Hub) : Hub := setFld { h with trcBuf := [], trcN := 0, trcLeft := none } F.trcStatusTriggered 0 0

/-- Do `f` where `bit` of the written word is 1: a W1S field. -/
def onBit (h : Hub) (w bit : Nat) (f : Hub → Hub) : Hub := if bitOf w bit then f h else h

/-- A write to HUB.CTL: dropped whole where the operator forbids driver-initiated resets (R31). -/
def hubCtlWrite (h : Hub) (new w : Nat) : Hub :=
  if !odOn h OD.drvResetOk then regDropped h
  else onBit (onBit (setFld h F.hubCtlEvtIntEn 0 (new / 4 % 2)) w 0 hubDataReset) w 1 hubCtlRestart

/-- The station that the SELFTEST bit of a block's unit tests. -/
def blockStn (r : Reg) (u : Nat) : Nat :=
  match r with
  | .crankCtl => u
  | .vecCtl => 0x10 + u
  | .drlCtl => 0x20 + u
  | _ => 0x30 + u

/-- The bits of register `r` that hold: a plain write keeps the others as they are. -/
def plainWrite (h : Hub) (r : Reg) (k new : Nat) : Hub :=
  let old := getReg h r k
  setReg h r k ((old - (old &&& r.info.rw)) ||| new)

/-- The effect of a write that leaves `new` in the RW bits of register `r` and writes 1 to the W1S bits of `w`; by the PF or not. The
W1S fields of a register act in the order of their bits. -/
def regEffect (h : Hub) (pf : Bool) (r : Reg) (u i new w : Nat) : Hub :=
  let k := bankOf h r u i
  match r with
  | .hubCtl => hubCtlWrite h new w
  | .ctxQsqBase => queueCfg h u 0 new
  | .ctxQcqBase => queueCfg h u 1 new
  | .ctxQcfg => queueCfg h u 2 new
  | .ctxQctl => onBit (onBit (onBit h w 0 fun h => queueCreate h u) w 1 fun h => queueDestroy h u) w 2 fun h => queueResume h u
  | .ctxRouteWin => if pf then routeWin h u (new % 2 ^ 16) (new / 2 ^ 16) else h
  | .ctxRouteCtl => onBit (onBit h w 0 fun h => routeWrite h u) w 1 fun h => routeRead h u
  | .ctxFunc => if pf then funcWrite h u new else h
  | .ctxPasid => pasidWrite h u new
  | .ctxCfg => ctxCfgWrite h u new
  | .ctxCtl =>
    let h := onBit (onBit (onBit h w 0 fun h => ctxCreate h u) w 1 fun h => ctxSuspend h u) w 2 fun h => ctxResume h u
    onBit (onBit h w 3 fun h => ctxKill h u) w 4 fun h => ctxTeardown h u
  | .crankCtl | .vecCtl | .drlCtl | .casCtl => onBit h w 0 fun h => selftest h (blockStn r u)
  | .casPoolCtl => onBit (onBit h w 0 fun h => casBind h k) w 1 fun h => casUnbind h k
  | .memCtl => onBit (onBit h w 0 fun h => scrubNow h u) w 1 fun h => memRetrain h u
  | .cohDirSel => if debugOpen h then onBit (setReg h .cohDirSel u (new % 2 ^ 16)) w 16 fun h => dirRead h u else h
  | .tcCtl => onBit h w 0 fun h => tcInvalAll h (routerStn u)
  | .syncSemCtl => onBit (onBit (onBit (onBit h w 0 semInit) w 1 semFree) w 2 semGrant) w 3 semRevoke
  | .syncBarCtl => onBit (onBit (onBit h w 0 barCreate) w 1 barDestroy) w 2 barForce
  | .syncPart => partBind h (new % 4) (new / 2 ^ 16 % 2 ^ 16)
  | .syncCtxCfg => syncCtxCfg h (new % 2 ^ 20) (new / 2 ^ 20 % 2 ^ 11)
  | .syncCtxCtl => onBit h w 0 fun h => syncAudit h (fld h F.syncCtxSelCtx)
  | .spkCtl => onBit h w 0 fun h => trueNow h u
  | .siteCtl => onBit (onBit h w 0 fun h => siteIsolate h u) w 1 fun h => siteReadmit h u
  | .siteLease => if leaseState h u (fld h F.siteLeaseSelSlot u) = 0 then plainWrite h r k new else h
  | .siteLeaseCtl => onBit (onBit h w 0 fun h => leaseGrant h u) w 1 fun h => leaseEndSel h u
  | .rimCtl => onBit h w 0 fun h => rimClear h u
  | .regCfg => regWrite h u false new
  | .regLimit => regWrite h u true new
  | .whlCtl => onBit h w 0 fun h => whlApply h u
  | .podChCfg => if chState h k = 0 then plainWrite h r k new else h
  | .podChVec => podVecWrite h new
  | .podChCtl => onBit (onBit (onBit h w 0 chOpen) w 1 chClose) w 2 chResume
  | .mbxCtl => onBit (onBit h w 0 mbxGo) w 1 notePop
  | .faultHead => faultHead h new
  | .trcCtl => onBit (plainWrite h r k new) w 2 trcClear
  | _ => plainWrite h r k new

/-- A write of `w` to the bits `m` of register `r`: reserved and read-only bits are ignored, a half not addressed keeps its value and
triggers nothing (R11, R12), a W1C flag written with 1 is cleared and no counter changes (R34). -/
def regStore (h : Hub) (pf : Bool) (r : Reg) (u i m w : Nat) : Hub :=
  let x := r.info
  let k := bankOf h r u i
  let old := if r = .syncPart then regView h r u i else getReg h r k
  if x.w1c &&& m != 0 then setReg h r k (w1cClear (getReg h r k) x.w1c (w &&& m))
  else if (x.rw ||| x.w1s) &&& m = 0 then h
  else regEffect h pf r u i (mergeBits old m w &&& x.rw) (w &&& m &&& x.w1s)

/-! ### A write -/

/-- A write to an MSI-X entry; its mask bit cleared sends what pended (R421). -/
def msixStore (h : Hub) (f off m w : Nat) : Hub :=
  let k := f * 2048 + off / 16
  let e : MsixEntry := tgetD h.msix k {}
  let v := mergeBits (msixWord h f off) m w
  if off % 16 = 0 then { h with msix := tset h.msix k { e with addr := v } }
  else msixMask { h with msix := tset h.msix k { e with data := v % 2 ^ 32 } } f (off / 16) (bitOf v 32)

/-- A write to a semaphore slot in the debug window (R253). -/
def semStore (h : Hub) (n word m w : Nat) : Hub :=
  let half := if m = 2 ^ 64 - 1 then 0 else if m < 2 ^ 32 then 1 else 2
  if word = 0 then semSet h n half (if half = 2 then w / 2 ^ 32 else w)
  else semWord h n (bitOf (w &&& m) 0) (bitOf (w &&& m) 1)

/-- A write of the word `w` to the bits `m` at a place. The fault ring, the trace buffer and SITE.DESC are only read. -/
def placeWrite (h : Hub) (pf : Bool) (p : Place) (m w : Nat) : Hub :=
  match p with
  | .reg b u o => (match regAt b o with
    | some (r, i) => regStore h pf r u i m w
    | none => h)
  | .msix f o => msixStore h f o m w
  | .mbxBuf o =>
    setCtl h { h.mg.ctl with mbxBuf := Memory.writeN h.mg.ctl.mbxBuf o (leBytes 8 (mergeBits (leNat (Memory.readN h.mg.ctl.mbxBuf o 8)) m w)) }
  | .semSlot n word => semStore h n word m w
  | _ => h

/-- The value of an access of `size` bytes at `off`, at its place in the word. -/
def wordOf (v off size : Nat) : Nat := if size = 8 then v % 2 ^ 64 else v % 2 ^ 32 * 2 ^ (8 * (off % 8))

/-- A write of BAR0: another size or alignment is dropped; so is one to a half that is down, which sets REG_DROPPED (R17, R20). -/
def barWrite (h : Hub) (f off size v : Nat) : Hub :=
  if !accessOk off size then h
  else if !halfUp h f off then regDropped h
  else
    let h := if servedBy f off = 2 then hostCalls h else h
    placeWrite h (f == 0) (placeAt h f (off / 8 * 8)) (touched off size) (wordOf v off size)

/-- A memory write request to BAR0; one the function does not take is an Unsupported Request (R420). -/
def regWriteTlp (h : Hub) (f off size v : Nat) : Hub :=
  if !h.pcie.up then h
  else if !barOpen h f off then logError h f 20
  else barWrite h f off size v

def execRegWrite (fn off size value : Nat) (s : State) : Host.Outcome State Fault Refusal :=
  actUnit (inBar0 fn off) s fun h => regWriteTlp h fn off size value

/-- The word at `off` is a register of W1C flags. -/
def isFlags (h : Hub) (f off : Nat) : Bool :=
  match placeAt h f (off / 8 * 8) with
  | .reg b _ o => (match regAt b o with
    | some (r, _) => r.info.w1c != 0
    | none => false)
  | _ => false

/-- W1C_WRITE: a write whose word is a register of W1C flags. -/
def execW1cWrite (fn off size value : Nat) (s : State) : Host.Outcome State Fault Refusal :=
  actUnit (inBar0 fn off) s fun h => if isFlags h fn off then regWriteTlp h fn off size value else h

/-! ### The stem link's register accesses (R456) -/

/-- An access of the management core to a data-half block, and its answer: the value read, or that the write is done. A data half in
reset or in Park answers nothing. -/
def stemReg (h : Hub) (write : Bool) (off size v : Nat) : Hub :=
  if h.ctlDown || h.dataReset || h.dead != 0 || decide (2 ≤ h.pwr.state) || !accessOk off size then h
  else if write then
    emit (placeWrite h true (placeAt h 0 (off / 8 * 8)) (touched off size) (wordOf v off size)) .stemReg 1 [off]
  else
    let (v, h) := placeRead h (placeAt h 0 (off / 8 * 8))
    emit h .stemReg 0 [off, partOf v off size]

def execStemReg (write : Bool) (off size value : Nat) (s : State) : Host.Outcome State Fault Refusal :=
  actUnit (inBar0 0 off && servedBy 0 off == 2) s fun h => stemReg h write off size value

/-! ### Trace, endpoint core -/

def execTrcClear (s : State) : Host.Outcome State Fault Refusal := ctlReg s trcClear

/-- An uncorrectable error in the endpoint core's own state makes the hub fatal (R541). -/
def execEndpointCoreUe (s : State) : Host.Outcome State Fault Refusal :=
  act s fun h => if h.pwr.on && h.dead == 0 then later h (.hubFatal 1) else h

end Sys2Proof.Machine
end

