-- ==== Sys2Proof/Machine/Meanings.lean ====
section
/-!
DEFINITION. Machine/Meanings.lean: brings the families' meanings together for Machine/Dispatch.lean.
-/
end

