-- ==== Sys2Proof/Machine/Dispatch.lean ====
section
/-!
DEFINITION. Machine/Dispatch.lean: every command and its meaning, one arm each.
-/
namespace Sys2Proof.Machine

def exec (i : Instr) (s : State) : Host.Outcome State Fault Refusal :=
  match i with
  | .regWrite fn off size value => Sys2Proof.Machine.execRegWrite fn off size value s
  | .w1cWrite fn off size value => Sys2Proof.Machine.execW1cWrite fn off size value s
  | .stemBeatSend fromControl => Sys2Proof.Machine.execStemBeatSend fromControl s
  | .stemBeat fromControl count => Sys2Proof.Machine.execStemBeat fromControl count s
  | .stemBeatTimeout ofControl => Sys2Proof.Machine.execStemBeatTimeout ofControl s
  | .stemWordUe ok => Sys2Proof.Machine.execStemWordUe ok s
  | .stemFreeze => Sys2Proof.Machine.execStemFreeze s
  | .stemResume => Sys2Proof.Machine.execStemResume s
  | .stemReg write off size value => Sys2Proof.Machine.execStemReg write off size value s
  | .stemDict entry => Sys2Proof.Machine.execStemDict entry s
  | .stemNotice => Sys2Proof.Machine.execStemNotice s
  | .rideThroughFreeze => Sys2Proof.Machine.execRideThroughFreeze s
  | .ctlHalfReturn cellBlows => Sys2Proof.Machine.execCtlHalfReturn cellBlows s
  | .warmRestartPhaseEnd ms rimOk hbms fails failed => Sys2Proof.Machine.execWarmRestartPhaseEnd ms rimOk hbms fails failed s
  | .hubCtlDataReset => Sys2Proof.Machine.execHubCtlDataReset s
  | .hubCtlCtlRestart => Sys2Proof.Machine.execHubCtlCtlRestart s
  | .coldPowerUp => Sys2Proof.Machine.execColdPowerUp s
  | .perst cool => Sys2Proof.Machine.execPerst cool s
  | .hotReset => Sys2Proof.Machine.execHotReset s
  | .linkDown => Sys2Proof.Machine.execLinkDown s
  | .powerLoss aon => Sys2Proof.Machine.execPowerLoss aon s
  | .doorbellWrite fn page slot sq cq => Sys2Proof.Machine.execDoorbellWrite fn page slot sq cq s
  | .cmdNop ctx slot => Sys2Proof.Machine.execCmdNop ctx slot s
  | .cmdRoute ctx slot => Sys2Proof.Machine.execCmdRoute ctx slot s
  | .rangeFlush ctx slot => Sys2Proof.Machine.execRangeFlush ctx slot s
  | .rangeClean ctx slot => Sys2Proof.Machine.execRangeClean ctx slot s
  | .rangeInval ctx slot => Sys2Proof.Machine.execRangeInval ctx slot s
  | .cmdDescriptorRead ctx slot => Sys2Proof.Machine.execCmdDescriptorRead ctx slot s
  | .cmdFenceRelease ctx slot => Sys2Proof.Machine.execCmdFenceRelease ctx slot s
  | .cmdAcqInvalDone ctx slot => Sys2Proof.Machine.execCmdAcqInvalDone ctx slot s
  | .cmdTranslationDone ctx slot => Sys2Proof.Machine.execCmdTranslationDone ctx slot s
  | .tileOpIssue ctx slot => Sys2Proof.Machine.execTileOpIssue ctx slot s
  | .topRow opid tcErr memErr hurt => Sys2Proof.Machine.execTopRow opid tcErr memErr hurt s
  | .topOut house site opid row flit smask scale data bad form => Sys2Proof.Machine.execTopOut house site opid row flit smask scale data bad form s
  | .topCredit site stn count form => Sys2Proof.Machine.execTopCredit site stn count form s
  | .topDone house site stn opid status form => Sys2Proof.Machine.execTopDone house site stn opid status form s
  | .cmdFlushDone ctx slot => Sys2Proof.Machine.execCmdFlushDone ctx slot s
  | .cplRecordAck ctx slot count => Sys2Proof.Machine.execCplRecordAck ctx slot count s
  | .waitTableRetry ctx slot => Sys2Proof.Machine.execWaitTableRetry ctx slot s
  | .queueCfgWrite ctx which value => Sys2Proof.Machine.execQueueCfgWrite ctx which value s
  | .queueCreate ctx => Sys2Proof.Machine.execQueueCreate ctx s
  | .queueDestroy ctx => Sys2Proof.Machine.execQueueDestroy ctx s
  | .queueDrained ctx slot => Sys2Proof.Machine.execQueueDrained ctx slot s
  | .queueResume ctx => Sys2Proof.Machine.execQueueResume ctx s
  | .routeWinWrite ctx base count => Sys2Proof.Machine.execRouteWinWrite ctx base count s
  | .routeWrite ctx => Sys2Proof.Machine.execRouteWrite ctx s
  | .routeRead ctx => Sys2Proof.Machine.execRouteRead ctx s
  | .crankMatmul opid => Sys2Proof.Machine.execCrankMatmul opid s
  | .crankWregParity opid band second => Sys2Proof.Machine.execCrankWregParity opid band second s
  | .crankStoreEcc stn opid input row sector scale uncorr => Sys2Proof.Machine.execCrankStoreEcc stn opid input row sector scale uncorr s
  | .crankControlUe n => Sys2Proof.Machine.execCrankControlUe n s
  | .crankStallTimeout n => Sys2Proof.Machine.execCrankStallTimeout n s
  | .crankSelftest n => Sys2Proof.Machine.execCrankSelftest n s
  | .crankSelftestDone n pass => Sys2Proof.Machine.execCrankSelftestDone n pass s
  | .vecAdd opid => Sys2Proof.Machine.execVecAdd opid s
  | .vecSub opid => Sys2Proof.Machine.execVecSub opid s
  | .vecMul opid => Sys2Proof.Machine.execVecMul opid s
  | .vecMax opid => Sys2Proof.Machine.execVecMax opid s
  | .vecMin opid => Sys2Proof.Machine.execVecMin opid s
  | .vecScale opid => Sys2Proof.Machine.execVecScale opid s
  | .vecCopy opid => Sys2Proof.Machine.execVecCopy opid s
  | .vecExp opid => Sys2Proof.Machine.execVecExp opid s
  | .vecLog opid => Sys2Proof.Machine.execVecLog opid s
  | .vecRsqrt opid => Sys2Proof.Machine.execVecRsqrt opid s
  | .vecRecip opid => Sys2Proof.Machine.execVecRecip opid s
  | .vecTanh opid => Sys2Proof.Machine.execVecTanh opid s
  | .vecSigmoid opid => Sys2Proof.Machine.execVecSigmoid opid s
  | .vecSilu opid => Sys2Proof.Machine.execVecSilu opid s
  | .vecSiluMul opid => Sys2Proof.Machine.execVecSiluMul opid s
  | .vecGeluTanh opid => Sys2Proof.Machine.execVecGeluTanh opid s
  | .vecGeluErf opid => Sys2Proof.Machine.execVecGeluErf opid s
  | .vecRelu opid => Sys2Proof.Machine.execVecRelu opid s
  | .vecRmsnorm opid => Sys2Proof.Machine.execVecRmsnorm opid s
  | .vecLayernorm opid => Sys2Proof.Machine.execVecLayernorm opid s
  | .vecRowSum opid => Sys2Proof.Machine.execVecRowSum opid s
  | .vecRowMax opid => Sys2Proof.Machine.execVecRowMax opid s
  | .vecRowMin opid => Sys2Proof.Machine.execVecRowMin opid s
  | .vecRowSumsq opid => Sys2Proof.Machine.execVecRowSumsq opid s
  | .vecSoftmax opid => Sys2Proof.Machine.execVecSoftmax opid s
  | .vecSmState opid => Sys2Proof.Machine.execVecSmState opid s
  | .vecSmExp opid => Sys2Proof.Machine.execVecSmExp opid s
  | .vecSmRescale opid => Sys2Proof.Machine.execVecSmRescale opid s
  | .vecSmFinal opid => Sys2Proof.Machine.execVecSmFinal opid s
  | .drlConvert opid => Sys2Proof.Machine.execDrlConvert opid s
  | .drlTranspose opid => Sys2Proof.Machine.execDrlTranspose opid s
  | .drlGather opid => Sys2Proof.Machine.execDrlGather opid s
  | .drlScatter opid => Sys2Proof.Machine.execDrlScatter opid s
  | .drlPackKpw opid => Sys2Proof.Machine.execDrlPackKpw opid s
  | .vdrStallTimeout stn => Sys2Proof.Machine.execVdrStallTimeout stn s
  | .vecSelftest n => Sys2Proof.Machine.execVecSelftest n s
  | .drlSelftest n => Sys2Proof.Machine.execDrlSelftest n s
  | .vdrSelftestDone stn pass => Sys2Proof.Machine.execVdrSelftestDone stn pass s
  | .redAdd dpa codeErr => Sys2Proof.Machine.execRedAdd dpa codeErr s
  | .redMin dpa codeErr => Sys2Proof.Machine.execRedMin dpa codeErr s
  | .redMax dpa codeErr => Sys2Proof.Machine.execRedMax dpa codeErr s
  | .decPageDecode opid input va codeErr => Sys2Proof.Machine.execDecPageDecode opid input va codeErr s
  | .casOpen opid => Sys2Proof.Machine.execCasOpen opid s
  | .casFork opid => Sys2Proof.Machine.execCasFork opid s
  | .casAppend opid => Sys2Proof.Machine.execCasAppend opid s
  | .casAdvance opid => Sys2Proof.Machine.execCasAdvance opid s
  | .casTrim opid => Sys2Proof.Machine.execCasTrim opid s
  | .casClose opid => Sys2Proof.Machine.execCasClose opid s
  | .casGatherK opid => Sys2Proof.Machine.execCasGatherK opid s
  | .casGatherV opid => Sys2Proof.Machine.execCasGatherV opid s
  | .casPoolBind cas => Sys2Proof.Machine.execCasPoolBind cas s
  | .casPoolUnbind cas => Sys2Proof.Machine.execCasPoolUnbind cas s
  | .casStallTimeout n => Sys2Proof.Machine.execCasStallTimeout n s
  | .casSelftest n => Sys2Proof.Machine.execCasSelftest n s
  | .casSelftestDone n pass => Sys2Proof.Machine.execCasSelftestDone n pass s
  | .hbmTempRead port temp => Sys2Proof.Machine.execHbmTempRead port temp s
  | .holdWindowEnd stack => Sys2Proof.Machine.execHoldWindowEnd stack s
  | .reducedPeriodEnd stack => Sys2Proof.Machine.execReducedPeriodEnd stack s
  | .hbmCattrip stack => Sys2Proof.Machine.execHbmCattrip stack s
  | .memScrubNow port => Sys2Proof.Machine.execMemScrubNow port s
  | .hbmTruingWindow port pc margin recent => Sys2Proof.Machine.execHbmTruingWindow port pc margin recent s
  | .hbmRetrainDone port margins => Sys2Proof.Machine.execHbmRetrainDone port margins s
  | .memCtlRetrain port => Sys2Proof.Machine.execMemCtlRetrain port s
  | .hbmStepDown stack => Sys2Proof.Machine.execHbmStepDown stack s
  | .hbmStepDownDone stack failed => Sys2Proof.Machine.execHbmStepDownDone stack failed s
  | .regionOpen region => Sys2Proof.Machine.execRegionOpen region s
  | .regionSeal region => Sys2Proof.Machine.execRegionSeal region s
  | .regionReload region => Sys2Proof.Machine.execRegionReload region s
  | .regionRelease region => Sys2Proof.Machine.execRegionRelease region s
  | .rdShared agent txn ctx vline form dirErr memErr => Sys2Proof.Machine.execRdShared agent txn ctx vline form dirErr memErr s
  | .rdUnique agent txn ctx vline form dirErr memErr => Sys2Proof.Machine.execRdUnique agent txn ctx vline form dirErr memErr s
  | .rdOnce agent txn ctx vline smask form dirErr memErr => Sys2Proof.Machine.execRdOnce agent txn ctx vline smask form dirErr memErr s
  | .upgrade agent txn ctx vline form dirErr memErr => Sys2Proof.Machine.execUpgrade agent txn ctx vline form dirErr memErr s
  | .wrLine agent txn ctx vline smask data poison form dirErr memErr => Sys2Proof.Machine.execWrLine agent txn ctx vline smask data poison form dirErr memErr s
  | .evictClean agent txn ctx vline form dirErr => Sys2Proof.Machine.execEvictClean agent txn ctx vline form dirErr s
  | .evictDirty agent txn ctx vline data poison form dirErr => Sys2Proof.Machine.execEvictDirty agent txn ctx vline data poison form dirErr s
  | .streamingRead stn txn => Sys2Proof.Machine.execStreamingRead stn txn s
  | .streamingWrite stn txn => Sys2Proof.Machine.execStreamingWrite stn txn s
  | .snpInv agent home stxn wrote evicting data => Sys2Proof.Machine.execSnpInv agent home stxn wrote evicting data s
  | .snpShare agent home stxn wrote evicting data => Sys2Proof.Machine.execSnpShare agent home stxn wrote evicting data s
  | .snpAll agent home stxn wrote evicting data => Sys2Proof.Machine.execSnpAll agent home stxn wrote evicting data s
  | .snoopAck agent home stxn evicted held form => Sys2Proof.Machine.execSnoopAck agent home stxn evicted held form s
  | .completionAck agent home txn form => Sys2Proof.Machine.execCompletionAck agent home txn form s
  | .ackData agent home stxn data bad form => Sys2Proof.Machine.execAckData agent home stxn data bad form s
  | .cmp agent txn => Sys2Proof.Machine.execCmp agent txn s
  | .nackPoison agent txn reason => Sys2Proof.Machine.execNackPoison agent txn reason s
  | .snoopTimeout agent home stxn => Sys2Proof.Machine.execSnoopTimeout agent home stxn s
  | .agentSweepDone agent => Sys2Proof.Machine.execAgentSweepDone agent s
  | .contextSweepDone ctx agents => Sys2Proof.Machine.execContextSweepDone ctx agents s
  | .cohDirRead port => Sys2Proof.Machine.execCohDirRead port s
  | .tcInvalAll stn => Sys2Proof.Machine.execTcInvalAll stn s
  | .tcDropDone stn => Sys2Proof.Machine.execTcDropDone stn s
  | .semWaitGe site n txn ctx sem thr acq form => Sys2Proof.Machine.execSemWaitGe site n txn ctx sem thr acq form s
  | .semAdd site n txn ctx sem value fast form => Sys2Proof.Machine.execSemAdd site n txn ctx sem value fast form s
  | .semSub site n txn ctx sem value fast form => Sys2Proof.Machine.execSemSub site n txn ctx sem value fast form s
  | .semAcqRange site txn base len form => Sys2Proof.Machine.execSemAcqRange site txn base len form s
  | .orderedPostRelease anchor stn txn => Sys2Proof.Machine.execOrderedPostRelease anchor stn txn s
  | .semInit => Sys2Proof.Machine.execSemInit s
  | .semFree => Sys2Proof.Machine.execSemFree s
  | .semGrant => Sys2Proof.Machine.execSemGrant s
  | .semRevoke => Sys2Proof.Machine.execSemRevoke s
  | .barCreate => Sys2Proof.Machine.execBarCreate s
  | .barDestroy => Sys2Proof.Machine.execBarDestroy s
  | .barForce => Sys2Proof.Machine.execBarForce s
  | .partBind kind id => Sys2Proof.Machine.execPartBind kind id s
  | .syncAudit => Sys2Proof.Machine.execSyncAudit s
  | .syncCtxCfgWrite wdog vector => Sys2Proof.Machine.execSyncCtxCfgWrite wdog vector s
  | .watchdogFire ctx what ring => Sys2Proof.Machine.execWatchdogFire ctx what ring s
  | .semSet sem half value => Sys2Proof.Machine.execSemSet sem half value s
  | .semWakeAll sem => Sys2Proof.Machine.execSemWakeAll sem s
  | .semClrAbandoned sem => Sys2Proof.Machine.execSemClrAbandoned sem s
  | .spokeTruingWindow site group => Sys2Proof.Machine.execSpokeTruingWindow site group s
  | .linkTrueRpt site group lanes => Sys2Proof.Machine.execLinkTrueRpt site group lanes s
  | .trueRptTimeout site => Sys2Proof.Machine.execTrueRptTimeout site s
  | .spokeQuietPoint site => Sys2Proof.Machine.execSpokeQuietPoint site s
  | .linkMapAck site b1 => Sys2Proof.Machine.execLinkMapAck site b1 s
  | .linkMapRpt site errors failed => Sys2Proof.Machine.execLinkMapRpt site errors failed s
  | .stallBoundMiss site => Sys2Proof.Machine.execStallBoundMiss site s
  | .linkCredit site counts => Sys2Proof.Machine.execLinkCredit site counts s
  | .linkBeat site => Sys2Proof.Machine.execLinkBeat site s
  | .cellUe site data => Sys2Proof.Machine.execCellUe site data s
  | .strRd site stn txn ctx va smask form => Sys2Proof.Machine.execStrRd site stn txn ctx va smask form s
  | .strWr site stn txn ctx va smask form => Sys2Proof.Machine.execStrWr site stn txn ctx va smask form s
  | .strWdata site stn txn smask data bad form => Sys2Proof.Machine.execStrWdata site stn txn smask data bad form s
  | .heartbeatLost site => Sys2Proof.Machine.execHeartbeatLost site s
  | .guestResetRequest site => Sys2Proof.Machine.execGuestResetRequest site s
  | .guestError site => Sys2Proof.Machine.execGuestError site s
  | .guestPresence site low => Sys2Proof.Machine.execGuestPresence site low s
  | .guestPreq site high => Sys2Proof.Machine.execGuestPreq site high s
  | .spkTrueNow site => Sys2Proof.Machine.execSpkTrueNow site s
  | .sidebandRetry site => Sys2Proof.Machine.execSidebandRetry site s
  | .guestCmdEnd site ok => Sys2Proof.Machine.execGuestCmdEnd site ok s
  | .guestCmdTimeout site => Sys2Proof.Machine.execGuestCmdTimeout site s
  | .sbReadyTimeout site => Sys2Proof.Machine.execSbReadyTimeout site s
  | .violationWindowEnd anchor => Sys2Proof.Machine.execViolationWindowEnd anchor s
  | .siteIsolate anchor => Sys2Proof.Machine.execSiteIsolate anchor s
  | .siteReadmit anchor => Sys2Proof.Machine.execSiteReadmit anchor s
  | .autoReadmit anchor => Sys2Proof.Machine.execAutoReadmit anchor s
  | .leaseGrant anchor => Sys2Proof.Machine.execLeaseGrant anchor s
  | .leaseEnd anchor => Sys2Proof.Machine.execLeaseEnd anchor s
  | .leaseDrainDone anchor slot => Sys2Proof.Machine.execLeaseDrainDone anchor slot s
  | .leaseDrainTimeout anchor slot => Sys2Proof.Machine.execLeaseDrainTimeout anchor slot s
  | .leaseGraceEnd anchor ctx => Sys2Proof.Machine.execLeaseGraceEnd anchor ctx s
  | .ucieSbTimeout port => Sys2Proof.Machine.execUcieSbTimeout port s
  | .ucieLaneFail port lanes => Sys2Proof.Machine.execUcieLaneFail port lanes s
  | .ucieRetrainDone port => Sys2Proof.Machine.execUcieRetrainDone port s
  | .ucieRetrainTimeout port => Sys2Proof.Machine.execUcieRetrainTimeout port s
  | .ucieLinkDown port => Sys2Proof.Machine.execUcieLinkDown port s
  | .rimFlitUe router port net syndrome parityHolds again => Sys2Proof.Machine.execRimFlitUe router port net syndrome parityHolds again s
  | .rimRetryRequest router port net n => Sys2Proof.Machine.execRimRetryRequest router port net n s
  | .rimStorageUe router => Sys2Proof.Machine.execRimStorageUe router s
  | .rimRouteErr router route => Sys2Proof.Machine.execRimRouteErr router route s
  | .rimCntClear router => Sys2Proof.Machine.execRimCntClear router s
  | .ctxFuncWrite ctx value => Sys2Proof.Machine.execCtxFuncWrite ctx value s
  | .ctxPasidWrite ctx value => Sys2Proof.Machine.execCtxPasidWrite ctx value s
  | .ctxCreate ctx => Sys2Proof.Machine.execCtxCreate ctx s
  | .ctxSuspend ctx => Sys2Proof.Machine.execCtxSuspend ctx s
  | .ctxResume ctx => Sys2Proof.Machine.execCtxResume ctx s
  | .ctxKill ctx => Sys2Proof.Machine.execCtxKill ctx s
  | .ctxTeardown ctx => Sys2Proof.Machine.execCtxTeardown ctx s
  | .teardownStepDone ctx => Sys2Proof.Machine.execTeardownStepDone ctx s
  | .translationCompletion ctx va who write status size r w u addr => Sys2Proof.Machine.execTranslationCompletion ctx va who write status size r w u addr s
  | .atsCompletionTimeout ctx va who write => Sys2Proof.Machine.execAtsCompletionTimeout ctx va who write s
  | .atsInvalidation itag fn pasid global base len => Sys2Proof.Machine.execAtsInvalidation itag fn pasid global base len s
  | .atsInvalComplete itag fn => Sys2Proof.Machine.execAtsInvalComplete itag fn s
  | .faultHeadWrite value => Sys2Proof.Machine.execFaultHeadWrite value s
  | .vectorRegWrite which unit value => Sys2Proof.Machine.execVectorRegWrite which unit value s
  | .wheelSlot port waiting urgent err => Sys2Proof.Machine.execWheelSlot port waiting urgent err s
  | .wheelTurnStart port => Sys2Proof.Machine.execWheelTurnStart port s
  | .deadlineMiss port router cls => Sys2Proof.Machine.execDeadlineMiss port router cls s
  | .whlApply port => Sys2Proof.Machine.execWhlApply port s
  | .regCfgWrite router limit value => Sys2Proof.Machine.execRegCfgWrite router limit value s
  | .ethPortState port up => Sys2Proof.Machine.execEthPortState port up s
  | .podFrame port dst src etherType bytes full => Sys2Proof.Machine.execPodFrame port dst src etherType bytes full s
  | .podPutPerformed key => Sys2Proof.Machine.execPodPutPerformed key s
  | .podRetxTimeout hub => Sys2Proof.Machine.execPodRetxTimeout hub s
  | .podAckTimer hub => Sys2Proof.Machine.execPodAckTimer hub s
  | .podUnreachable hub => Sys2Proof.Machine.execPodUnreachable hub s
  | .podBeatTimer => Sys2Proof.Machine.execPodBeatTimer s
  | .podWatchdog hub => Sys2Proof.Machine.execPodWatchdog hub s
  | .podChOpen => Sys2Proof.Machine.execPodChOpen s
  | .podChClose => Sys2Proof.Machine.execPodChClose s
  | .podChResume => Sys2Proof.Machine.execPodChResume s
  | .podCmdFetch ch => Sys2Proof.Machine.execPodCmdFetch ch s
  | .podCmdNop ch => Sys2Proof.Machine.execPodCmdNop ch s
  | .podCmdPut ch => Sys2Proof.Machine.execPodCmdPut ch s
  | .podCmdReducePut ch => Sys2Proof.Machine.execPodCmdReducePut ch s
  | .podCmdSemAdd ch => Sys2Proof.Machine.execPodCmdSemAdd ch s
  | .podCmdSemSub ch => Sys2Proof.Machine.execPodCmdSemSub ch s
  | .podCmdArrive ch => Sys2Proof.Machine.execPodCmdArrive ch s
  | .configRequest fn off write => Sys2Proof.Machine.execConfigRequest fn off write s
  | .bar4Read tag addr len => Sys2Proof.Machine.execBar4Read tag addr len s
  | .bar4Write addr data ep => Sys2Proof.Machine.execBar4Write addr data ep s
  | .initiateFlr fn => Sys2Proof.Machine.execInitiateFlr fn s
  | .flrDone fn => Sys2Proof.Machine.execFlrDone fn s
  | .d3hotEntry fn => Sys2Proof.Machine.execD3hotEntry fn s
  | .d0Return fn => Sys2Proof.Machine.execD0Return fn s
  | .bar4Resize size value => Sys2Proof.Machine.execBar4Resize size value s
  | .vfEnable on => Sys2Proof.Machine.execVfEnable on s
  | .hostCompletion fn tag status ep data => Sys2Proof.Machine.execHostCompletion fn tag status ep data s
  | .hostCompletionTimeout tag => Sys2Proof.Machine.execHostCompletionTimeout tag s
  | .msixUnmask fn vec => Sys2Proof.Machine.execMsixUnmask fn vec s
  | .pmeTurnOff => Sys2Proof.Machine.execPmeTurnOff s
  | .lcScrap path peer value => Sys2Proof.Machine.execLcScrap path peer value s
  | .lcJtagTransition goal => Sys2Proof.Machine.execLcJtagTransition goal s
  | .attestNonce path peer nonce => Sys2Proof.Machine.execAttestNonce path peer nonce s
  | .attestRecordReady => Sys2Proof.Machine.execAttestRecordReady s
  | .dbgNonce path peer => Sys2Proof.Machine.execDbgNonce path peer s
  | .dbgResponse path peer response => Sys2Proof.Machine.execDbgResponse path peer response s
  | .dbgVerifyDone => Sys2Proof.Machine.execDbgVerifyDone s
  | .opdbg path peer on => Sys2Proof.Machine.execOpdbg path peer on s
  | .bindLoad path peer region => Sys2Proof.Machine.execBindLoad path peer region s
  | .bindAbort path peer region => Sys2Proof.Machine.execBindAbort path peer region s
  | .bindUnwrapDone region => Sys2Proof.Machine.execBindUnwrapDone region s
  | .bindChunk region => Sys2Proof.Machine.execBindChunk region s
  | .mgmtWatchdog => Sys2Proof.Machine.execMgmtWatchdog s
  | .sramUe => Sys2Proof.Machine.execSramUe s
  | .mbxRead index sub length offset => Sys2Proof.Machine.execMbxRead index sub length offset s
  | .mbxWrite index sub value => Sys2Proof.Machine.execMbxWrite index sub value s
  | .mbxDescribe index sub => Sys2Proof.Machine.execMbxDescribe index sub s
  | .mbxNotePop => Sys2Proof.Machine.execMbxNotePop s
  | .kmpRead src dst epoch seq index sub offset length tag idle => Sys2Proof.Machine.execKmpRead src dst epoch seq index sub offset length tag idle s
  | .kmpDescribe src dst epoch seq index sub offset tag idle => Sys2Proof.Machine.execKmpDescribe src dst epoch seq index sub offset tag idle s
  | .kmpWrite src dst epoch seq index sub offset value tag idle => Sys2Proof.Machine.execKmpWrite src dst epoch seq index sub offset value tag idle s
  | .kmpNotifyAck src dst epoch seq tag => Sys2Proof.Machine.execKmpNotifyAck src dst epoch seq tag s
  | .kmpResponseExpiry peer seq => Sys2Proof.Machine.execKmpResponseExpiry peer seq s
  | .notifyResend seq => Sys2Proof.Machine.execNotifyResend seq s
  | .fieldFrameRx kind src dst payload idle => Sys2Proof.Machine.execFieldFrameRx kind src dst payload idle s
  | .fieldTxCollision late aborted => Sys2Proof.Machine.execFieldTxCollision late aborted s
  | .plcaBeaconLoss => Sys2Proof.Machine.execPlcaBeaconLoss s
  | .sbWrite index sub value pecOk => Sys2Proof.Machine.execSbWrite index sub value pecOk s
  | .sbRead index sub offset pecOk => Sys2Proof.Machine.execSbRead index sub offset pecOk s
  | .expertNonce path peer => Sys2Proof.Machine.execExpertNonce path peer s
  | .expertProof path peer proof => Sys2Proof.Machine.execExpertProof path peer proof s
  | .expertClose path peer => Sys2Proof.Machine.execExpertClose path peer s
  | .expertIdleTimeout path peer => Sys2Proof.Machine.execExpertIdleTimeout path peer s
  | .proofLockoutEnd path => Sys2Proof.Machine.execProofLockoutEnd path s
  | .storeCommit ok => Sys2Proof.Machine.execStoreCommit ok s
  | .storeCommitRetry ok => Sys2Proof.Machine.execStoreCommitRetry ok s
  | .overlaySwitch path peer name => Sys2Proof.Machine.execOverlaySwitch path peer name s
  | .ovlCreate path peer => Sys2Proof.Machine.execOvlCreate path peer s
  | .ovlDelete path peer => Sys2Proof.Machine.execOvlDelete path peer s
  | .ovlPut path peer => Sys2Proof.Machine.execOvlPut path peer s
  | .ovlRemove path peer => Sys2Proof.Machine.execOvlRemove path peer s
  | .ovlClear path peer => Sys2Proof.Machine.execOvlClear path peer s
  | .storeCmd path peer value => Sys2Proof.Machine.execStoreCmd path peer value s
  | .coastEntry => Sys2Proof.Machine.execCoastEntry s
  | .parkEntry abort => Sys2Proof.Machine.execParkEntry abort s
  | .parkWake source voltageFail pllFail failed => Sys2Proof.Machine.execParkWake source voltageFail pllFail failed s
  | .kickstandWake => Sys2Proof.Machine.execKickstandWake s
  | .rtcAlarm => Sys2Proof.Machine.execRtcAlarm s
  | .wakeReq path peer value => Sys2Proof.Machine.execWakeReq path peer value s
  | .avsInRegulation => Sys2Proof.Machine.execAvsInRegulation s
  | .avsTimeout => Sys2Proof.Machine.execAvsTimeout s
  | .avsRetry => Sys2Proof.Machine.execAvsRetry s
  | .limiterTick power temps => Sys2Proof.Machine.execLimiterTick power temps s
  | .bootPhaseEnd ms cellBlows fuseOdd rimOk hbms fails failed => Sys2Proof.Machine.execBootPhaseEnd ms cellBlows fuseOdd rimOk hbms fails failed s
  | .bootPhaseOverrun => Sys2Proof.Machine.execBootPhaseOverrun s
  | .pllLockTimeout => Sys2Proof.Machine.execPllLockTimeout s
  | .stemUpTimeout => Sys2Proof.Machine.execStemUpTimeout s
  | .gateRunEnd site errors => Sys2Proof.Machine.execGateRunEnd site errors s
  | .gateDeadline anchor => Sys2Proof.Machine.execGateDeadline anchor s
  | .fwAnswerTimeout anchor => Sys2Proof.Machine.execFwAnswerTimeout anchor s
  | .fwuBegin path peer => Sys2Proof.Machine.execFwuBegin path peer s
  | .fwuEraseDone => Sys2Proof.Machine.execFwuEraseDone s
  | .fwuData path peer chunk => Sys2Proof.Machine.execFwuData path peer chunk s
  | .fwuEnd path peer => Sys2Proof.Machine.execFwuEnd path peer s
  | .fwuAbort path peer => Sys2Proof.Machine.execFwuAbort path peer s
  | .fwuActivate path peer => Sys2Proof.Machine.execFwuActivate path peer s
  | .fwuConfirm path peer => Sys2Proof.Machine.execFwuConfirm path peer s
  | .fwuRollback path peer => Sys2Proof.Machine.execFwuRollback path peer s
  | .fwuDeleteGuest path peer => Sys2Proof.Machine.execFwuDeleteGuest path peer s
  | .fwuAutoConfirm => Sys2Proof.Machine.execFwuAutoConfirm s
  | .trcClear => Sys2Proof.Machine.execTrcClear s
  | .dbgMemRead path peer => Sys2Proof.Machine.execDbgMemRead path peer s
  | .endpointCoreUe => Sys2Proof.Machine.execEndpointCoreUe s
  | .supplyFault supply => Sys2Proof.Machine.execSupplyFault supply s
  | .siteIoutPoll site iout fault answers => Sys2Proof.Machine.execSiteIoutPoll site iout fault answers s
  | .hbeatToggle site => Sys2Proof.Machine.execHbeatToggle site s
  | .vdrControlUe stn => Sys2Proof.Machine.execVdrControlUe stn s
  | .casControlUe n => Sys2Proof.Machine.execCasControlUe n s
  | .sidebandTransferDone site words => Sys2Proof.Machine.execSidebandTransferDone site words s
  | .signatureCheckDone anchor => Sys2Proof.Machine.execSignatureCheckDone anchor s
  | .spokeTrainingDone site locked failed => Sys2Proof.Machine.execSpokeTrainingDone site locked failed s
  | .ucieTrainingDone port able ok offer failed => Sys2Proof.Machine.execUcieTrainingDone port able ok offer failed s
  | .regRead fn off size => Sys2Proof.Machine.execRegRead fn off size s
  | .perstDeassert => Sys2Proof.Machine.execPerstDeassert s
  | .pcieLinkUp gts width => Sys2Proof.Machine.execPcieLinkUp gts width s
  | .plcaBeaconReturn => Sys2Proof.Machine.execPlcaBeaconReturn s
  | .dadComplete unique => Sys2Proof.Machine.execDadComplete unique s
  | .dynamicAddressAssignment addr => Sys2Proof.Machine.execDynamicAddressAssignment addr s

end Sys2Proof.Machine
end

