-- ==== Sys2Proof/Safety.lean ====
section
/-!
DEFINITION. Safety.lean: what claims are stated in: quiet hubs, on which a register access has no further consequence, and the
invariants that every step keeps.
-/
namespace Sys2Proof.Machine

/-- Nothing is under way that a step of the hub would carry on: no consequence waits, no operation, command, streaming request,
BAR4 read or memory-window read is open, and no context is SUSPENDING. On such a hub `settle` changes nothing. -/
def Hub.quiet (h : Hub) : Bool :=
  h.todo.isEmpty && h.ops.isEmpty && h.cmds.isEmpty && h.strs.isEmpty && h.pcie.reads.isEmpty && h.mg.ctl.memRead.isNone &&
    (usedCtx h).all fun c => ctxState h c != 3

/-- Coast is a state without work: no operation and no command is open (R491). -/
def Hub.coastIdle (h : Hub) : Bool := h.pwr.state != 1 || (h.ops.isEmpty && h.cmds.isEmpty)

/-- No consequence of an earlier step is left over, and Coast has no work: kept by every step from any state. -/
def State.inv (s : State) : Bool := s.hub.todo.isEmpty && s.hub.coastIdle

/-- The data half serves register accesses and doorbells, and the hub is in Ride: an access acts at once. -/
def Hub.rides (h : Hub) : Bool := serving h && h.pwr.state == 0

/-- The data half is out of reset and not in Park, and no hub-fatal error stopped the hub. -/
def Hub.runs (h : Hub) : Bool := !h.dataReset && h.dead == 0 && decide (h.pwr.state < 2)

/-- Power is on and no hub-fatal error stopped the hub. -/
def Hub.alive (h : Hub) : Bool := h.pwr.on && h.dead == 0

/-- Command `c` completes on `s`: its effect leaves the hub `h`, whose consequences are then carried out; the queue is untouched. -/
def Does (c : Instr) (s : State) (h : Hub) : Prop := exec c s = .next { s with hub := settle h }

/-- Command `c` completes on `s` and leaves exactly the hub `h`; the queue is untouched. -/
def DoesOnly (c : Instr) (s : State) (h : Hub) : Prop := exec c s = .next { s with hub := h }

/-- A legal message of class `cls` and `n` cells from the guest on link `site`, asking `q` of the permit, is taken: the guest is
ADMITTED, its link carries cells, no wait of it misses its second flit, it has the credits, and no check of R304 fails. `k` is the hub
with the credits taken. -/
def Takes (h : Hub) (site cls n : Nat) (q : Ask) (k : Hub) : Prop :=
  siteState h (anchorOf h site) = 3 ∧ linkAlive h site = true ∧ (guest h (anchorOf h site)).part = none ∧ q.seven = false ∧
    takeCells h site cls n = some k ∧ permit k site q = none

/-- A coherent request reaches its home's side on hub `k`: a house agent's at once, a guest agent's through its permit. -/
def CohTakes (h : Hub) (r : CohReq) (k : Hub) : Prop :=
  match agentLink r.agent with
  | none => k = h
  | some site => Takes h site (if r.op == 6 || r.op == 7 then 1 else 0) 2 (cohAsk h (anchorOf h site) r) k

/-- So does an answer of agent `a`. -/
def AnswerTakes (h : Hub) (a cls n : Nat) (k : Hub) : Prop :=
  match agentLink a with
  | none => k = h
  | some site => Takes h site cls n { cls := some 3, agent := some a } k

/-- A register that a write only stores to: every bit of it that software writes is RW, and no rule gives the write a further effect. -/
def plainReg (r : Reg) : Bool :=
  [.ctxQsel, .ctxQpos, .ctxRouteSel, .ctxRouteSlot0, .casPoolSel, .casPoolBase, .casPoolGeom, .casPoolSize, .casPoolOwn, .syncSemSel, .syncSemVal,
   .syncSemGrant, .syncBarSel, .syncBarCfg, .syncBarMask0, .syncPartSel, .syncCtxSel, .spkLaneSel, .siteVlogSel, .siteLeaseSel,
   .siteWinBase, .siteWinSize, .uciLaneSel, .rimPortSel, .whlMap0, .podChSel, .podChRing, .podChWin, .podChWinsz, .vfSlotSel,
   .mbxCmd, .mbxOffset, .mbxCfg, .faultCfg, .trcMask, .trcTrig].contains r

/-- Event flags of the register tables with their counters, part 1. -/
def evtPart1 : List Evt := [
  E.hubCtlRestarted, E.hubFroze, E.hubDataResetDone, E.hubStemResync, E.hubRegDropped, E.ctxSevtHalted, E.ctxSevtDbStale,
  E.ctxSevtDbDropped, E.ctxSevtCfgRefused, E.ctxSevtRouteRefused, E.crankPoisonOut, E.crankWregParity, E.crankEccCorr,
  E.crankEccUncorr, E.crankShapeDemoted, E.crankLost, E.crankIntSat, E.crankFpOvf, E.vecPoisonOut, E.vecEccCorr,
  E.vecEccUncorr, E.vecLost, E.vecFpOvf, E.drlPoisonOut, E.drlEccCorr, E.drlEccUncorr, E.drlLost, E.drlSatClip,
  E.drlNonfinite, E.drlIdxRange, E.redPoisonHit, E.redCodeErr, E.redFpOvf, E.redIntWrap, E.casPoisonOut, E.casEccCorr,
  E.casEccUncorr, E.casLost, E.casListBad, E.casPoolBroken, E.casCow, E.decHdrBad, E.decStreamBad, E.decPoisonIn, E.memCe]

/-- Event flags of the register tables with their counters, part 2. -/
def evtPart2 : List Evt := [
  E.memUe, E.memPoisonRd, E.memRetrain, E.memStepDown, E.memHold, E.memMirrorFix, E.memFenceHit, E.memRoWrite, E.memCacheCe,
  E.memCacheUe, E.memFailed, E.cohTimeout, E.cohPoisonWr, E.cohBackInval, E.cohDirCe, E.cohProto, E.cohNack, E.cohDirUe,
  E.tcEccCorr, E.tcEccUncorr, E.syncWdog, E.syncAbandon, E.syncAuditDiff, E.syncBarStray, E.syncSat, E.syncRights,
  E.syncHandSet, E.syncCfgRefused, E.spkLaneRepair, E.spkWidthDown, E.spkHbLost, E.spkRstReq, E.spkGuestErr, E.spkCellCe,
  E.spkCellUe, E.spkCreditViol, E.siteAdmitted, E.siteIsolated, E.siteRefused, E.siteViolation, E.siteLeaseEnded,
  E.siteStnErr, E.siteSigFail, E.uciLaneRepair, E.uciWidthDown]

/-- Event flags of the register tables with their counters, part 3. -/
def evtPart3 : List Evt := [
  E.uciHbLost, E.uciRstReq, E.uciGuestErr, E.uciCellCe, E.uciCellUe, E.uciCreditViol, E.uciLinkDown, E.uciSbErr, E.rimFlitCe,
  E.rimRetry, E.rimLinkFail, E.rimFlitUe, E.rimRouteErr, E.ctxKilled, E.ctxTornDown, E.ctxAtsInval, E.ctxCfgRefused,
  E.regCfgRefused, E.whlDeadlineMiss, E.whlUrgCap, E.podPortDown, E.podStranger, E.podRetx, E.podUnreach, E.podNotice,
  E.podMgrLost, E.podHalt, E.vfAssigned, E.vfUnassigned, E.mbxDone, E.mbxNotice, E.mbxNoteLost, E.pwrWake, E.pwrRefused,
  E.pwrVfRefused, E.pwrAvsFail, E.bootReady, E.bootFailed, E.bootPhaseOver, E.bootFwRefused, E.bootDegraded, E.faultLost,
  E.trcLost, E.trcTrigger]

/-- Every event flag with its companion counter (R33, R34). -/
def evtList : List Evt := evtPart1 ++ evtPart2 ++ evtPart3

/-- The events whose tables give their counters 32 bits. -/
def wideEvts : List Evt := [E.faultLost, E.trcLost]

end Sys2Proof.Machine
end

