-- ==== Sys2Proof/WellFormed.lean ====
section
/-!
DEFINITION. WellFormed.lean: a command is well formed when every unit it names exists and every field lies in the width its message
or register gives it: ports and routers 0 to 63, links 0 to 33 (32 + p is UCIe port p), contexts 0 to 8,191, queue slots 0 to 63,
semaphores 0 to 131,071, agents 0 to 151, dictionary paths 1 to 3.
-/
namespace Sys2Proof
open Sys2Proof.Machine

/-- Every unit the command names exists (R21, R28, R55, R100, R187, R232, R352, R355, R462). -/
def Instr.wf (c : Instr) : Bool :=
  match c with
  | .regWrite fn off _ _ => inBar0 fn off
  | .w1cWrite fn off _ _ => inBar0 fn off
  | .stemBeatSend _ => true
  | .stemBeat _ _ => true
  | .stemBeatTimeout _ => true
  | .stemWordUe _ => true
  | .stemFreeze => true
  | .stemResume => true
  | .stemReg _ off _ _ => inBar0 0 off && servedBy 0 off == 2
  | .stemDict _ => true
  | .stemNotice => true
  | .rideThroughFreeze => true
  | .ctlHalfReturn _ => true
  | .warmRestartPhaseEnd _ _ _ _ _ => true
  | .hubCtlDataReset => true
  | .hubCtlCtlRestart => true
  | .coldPowerUp => true
  | .perst _ => true
  | .hotReset => true
  | .linkDown => true
  | .powerLoss _ => true
  | .doorbellWrite fn page slot _ _ => decide (fn < 64) && decide (page < 8192) && decide (slot < 64)
  | .cmdNop ctx slot => isQueue ctx slot
  | .cmdRoute ctx slot => isQueue ctx slot
  | .rangeFlush ctx slot => isQueue ctx slot
  | .rangeClean ctx slot => isQueue ctx slot
  | .rangeInval ctx slot => isQueue ctx slot
  | .cmdDescriptorRead ctx slot => isQueue ctx slot
  | .cmdFenceRelease ctx slot => isQueue ctx slot
  | .cmdAcqInvalDone ctx slot => isQueue ctx slot
  | .cmdTranslationDone ctx slot => isQueue ctx slot
  | .tileOpIssue ctx slot => isQueue ctx slot
  | .topRow _ _ _ _ => true
  | .topOut house site _ _ _ _ _ _ _ form => house || (isLink site && formOk form)
  | .topCredit site stn _ form => isLink site && decide (stn < 64) && formOk form
  | .topDone house site stn _ status form => house || (isLink site && decide (stn < 64) && decide (status < 3) && formOk form)
  | .cmdFlushDone ctx slot => isQueue ctx slot
  | .cplRecordAck ctx slot _ => isQueue ctx slot
  | .waitTableRetry ctx slot => isQueue ctx slot
  | .queueCfgWrite ctx which _ => decide (ctx < 8192) && decide (which < 3)
  | .queueCreate ctx => decide (ctx < 8192)
  | .queueDestroy ctx => decide (ctx < 8192)
  | .queueDrained ctx slot => isQueue ctx slot
  | .queueResume ctx => decide (ctx < 8192)
  | .routeWinWrite ctx base count => decide (ctx < 8192) && decide (base < 65536) && decide (count < 131072)
  | .routeWrite ctx => decide (ctx < 8192)
  | .routeRead ctx => decide (ctx < 8192)
  | .crankMatmul _ => true
  | .crankWregParity _ _ _ => true
  | .crankStoreEcc stn _ _ _ _ _ _ => isStore stn
  | .crankControlUe n => isCrank n
  | .crankStallTimeout n => isCrank n
  | .crankSelftest n => isCrank n
  | .crankSelftestDone n _ => isCrank n
  | .vecAdd _ => true
  | .vecSub _ => true
  | .vecMul _ => true
  | .vecMax _ => true
  | .vecMin _ => true
  | .vecScale _ => true
  | .vecCopy _ => true
  | .vecExp _ => true
  | .vecLog _ => true
  | .vecRsqrt _ => true
  | .vecRecip _ => true
  | .vecTanh _ => true
  | .vecSigmoid _ => true
  | .vecSilu _ => true
  | .vecSiluMul _ => true
  | .vecGeluTanh _ => true
  | .vecGeluErf _ => true
  | .vecRelu _ => true
  | .vecRmsnorm _ => true
  | .vecLayernorm _ => true
  | .vecRowSum _ => true
  | .vecRowMax _ => true
  | .vecRowMin _ => true
  | .vecRowSumsq _ => true
  | .vecSoftmax _ => true
  | .vecSmState _ => true
  | .vecSmExp _ => true
  | .vecSmRescale _ => true
  | .vecSmFinal _ => true
  | .drlConvert _ => true
  | .drlTranspose _ => true
  | .drlGather _ => true
  | .drlScatter _ => true
  | .drlPackKpw _ => true
  | .vdrStallTimeout stn => isVdr stn
  | .vecSelftest n => decide (n < 8)
  | .drlSelftest n => decide (n < 4)
  | .vdrSelftestDone stn _ => isVdr stn
  | .redAdd _ _ => true
  | .redMin _ _ => true
  | .redMax _ _ => true
  | .decPageDecode _ input _ _ => decide (input < 2)
  | .casOpen _ => true
  | .casFork _ => true
  | .casAppend _ => true
  | .casAdvance _ => true
  | .casTrim _ => true
  | .casClose _ => true
  | .casGatherK _ => true
  | .casGatherV _ => true
  | .casPoolBind cas => decide (cas < 2)
  | .casPoolUnbind cas => decide (cas < 2)
  | .casStallTimeout n => decide (n < 2)
  | .casSelftest n => decide (n < 2)
  | .casSelftestDone n _ => decide (n < 2)
  | .hbmTempRead port temp => decide (port < 64) && decide (temp < 256)
  | .holdWindowEnd stack => decide (stack < 8)
  | .reducedPeriodEnd stack => decide (stack < 8)
  | .hbmCattrip stack => decide (stack < 8)
  | .memScrubNow port => decide (port < 64)
  | .hbmTruingWindow port pc margin _ => decide (port < 64) && decide (pc < 8) && decide (margin < 64)
  | .hbmRetrainDone port margins => decide (port < 64) && margins.all fun m => decide (m < 64)
  | .memCtlRetrain port => decide (port < 64)
  | .hbmStepDown stack => decide (stack < 8)
  | .hbmStepDownDone stack _ => decide (stack < 8)
  | .regionOpen region => decide (region < 64)
  | .regionSeal region => decide (region < 64)
  | .regionReload region => decide (region < 64)
  | .regionRelease region => decide (region < 64)
  | .rdShared agent txn ctx vline form _ _ => cohOk agent txn ctx vline form
  | .rdUnique agent txn ctx vline form _ _ => cohOk agent txn ctx vline form
  | .rdOnce agent txn ctx vline smask form _ _ => cohOk agent txn ctx vline form && decide (smask < 4)
  | .upgrade agent txn ctx vline form _ _ => cohOk agent txn ctx vline form
  | .wrLine agent txn ctx vline smask _ _ form _ _ => cohOk agent txn ctx vline form && decide (smask < 4)
  | .evictClean agent txn ctx vline form _ => cohOk agent txn ctx vline form
  | .evictDirty agent txn ctx vline _ _ form _ => cohOk agent txn ctx vline form
  | .streamingRead _ _ => true
  | .streamingWrite _ _ => true
  | .snpInv agent home _ _ _ _ => decide (agent < 152) && decide (home < 64)
  | .snpShare agent home _ _ _ _ => decide (agent < 152) && decide (home < 64)
  | .snpAll agent home _ _ _ _ => decide (agent < 152) && decide (home < 64)
  | .snoopAck agent home _ _ _ form => decide (agent < 152) && decide (home < 64) && formOk form
  | .completionAck agent home _ form => decide (agent < 152) && decide (home < 64) && formOk form
  | .ackData agent home _ _ _ form => decide (agent < 152) && decide (home < 64) && formOk form
  | .cmp agent _ => decide (agent < 152)
  | .nackPoison agent txn reason => decide (agent < 152) && decide (txn < 1024) && decide (1 ≤ reason) && decide (reason < 5)
  | .snoopTimeout agent home _ => decide (agent < 152) && decide (home < 64)
  | .agentSweepDone agent => decide (agent < 152)
  | .contextSweepDone ctx _ => decide (ctx < 8192)
  | .cohDirRead port => decide (port < 64)
  | .tcInvalAll stn => hasTc stn
  | .tcDropDone stn => hasTc stn
  | .semWaitGe site n _ _ sem _ _ form => isLink site && decide (n < 64) && decide (sem < 131072) && formOk form
  | .semAdd site n _ _ sem _ _ form => isLink site && decide (n < 64) && decide (sem < 131072) && formOk form
  | .semSub site n _ _ sem _ _ form => isLink site && decide (n < 64) && decide (sem < 131072) && formOk form
  | .semAcqRange site _ _ _ form => isLink site && formOk form
  | .orderedPostRelease anchor _ _ => isLink anchor
  | .semInit => true
  | .semFree => true
  | .semGrant => true
  | .semRevoke => true
  | .barCreate => true
  | .barDestroy => true
  | .barForce => true
  | .partBind kind id => decide (kind < 4) && decide (id < 65536)
  | .syncAudit => true
  | .syncCtxCfgWrite wdog vector => decide (wdog < 2 ^ 20) && decide (vector < 2 ^ 11)
  | .watchdogFire ctx _ _ => decide (ctx < 8192)
  | .semSet sem half _ => decide (sem < 131072) && decide (half < 3)
  | .semWakeAll sem => decide (sem < 131072)
  | .semClrAbandoned sem => decide (sem < 131072)
  | .spokeTruingWindow site group => decide (site < 32) && decide (group < 32)
  | .linkTrueRpt site group lanes => isLink site && decide (group < 32) && lanes.all fun e => decide (e.1 < 2) && decide (e.2.1 < 132)
  | .trueRptTimeout site => decide (site < 32)
  | .spokeQuietPoint site => decide (site < 32)
  | .linkMapAck site _ => isLink site
  | .linkMapRpt site _ failed => isLink site && failed.all laneOk
  | .stallBoundMiss site => isLink site
  | .linkCredit site counts => isLink site && ((counts.getD []).all fun c => decide (c < 65536)) && decide ((counts.getD []).length ≤ 6)
  | .linkBeat site => isLink site
  | .cellUe site _ => isLink site
  | .strRd site stn txn ctx va smask form => strOk site stn txn ctx va smask form
  | .strWr site stn txn ctx va smask form => strOk site stn txn ctx va smask form
  | .strWdata site stn _ smask _ _ form => isLink site && decide (stn < 64) && decide (smask < 256) && formOk form
  | .heartbeatLost site => isLink site
  | .guestResetRequest site => isLink site
  | .guestError site => isLink site
  | .guestPresence site _ => isLink site
  | .guestPreq site _ => isLink site
  | .spkTrueNow site => decide (site < 32)
  | .sidebandRetry site => isLink site
  | .guestCmdEnd site _ => isLink site
  | .guestCmdTimeout site => isLink site
  | .sbReadyTimeout site => isLink site
  | .violationWindowEnd anchor => isLink anchor
  | .siteIsolate anchor => isLink anchor
  | .siteReadmit anchor => isLink anchor
  | .autoReadmit anchor => isLink anchor
  | .leaseGrant anchor => isLink anchor
  | .leaseEnd anchor => isLink anchor
  | .leaseDrainDone anchor slot => isLink anchor && decide (slot < 16)
  | .leaseDrainTimeout anchor slot => isLink anchor && decide (slot < 16)
  | .leaseGraceEnd anchor _ => isLink anchor
  | .ucieSbTimeout port => decide (port < 2)
  | .ucieLaneFail port lanes => decide (port < 2) && lanes.all uciLaneOk
  | .ucieRetrainDone port => decide (port < 2)
  | .ucieRetrainTimeout port => decide (port < 2)
  | .ucieLinkDown port => decide (port < 2)
  | .rimFlitUe router port net _ _ _ => decide (router < 64) && decide (port < 7) && decide (net < 4)
  | .rimRetryRequest router port net n => decide (router < 64) && decide (port < 4) && decide (net < 4) && decide (1 ≤ n) && decide (n ≤ 16)
  | .rimStorageUe router => decide (router < 64)
  | .rimRouteErr router route => decide (router < 64) && decide (route < 2 ^ 24)
  | .rimCntClear router => decide (router < 64)
  | .ctxFuncWrite ctx _ => isCtx ctx
  | .ctxPasidWrite ctx _ => isCtx ctx
  | .ctxCreate ctx => isCtx ctx
  | .ctxSuspend ctx => isCtx ctx
  | .ctxResume ctx => isCtx ctx
  | .ctxKill ctx => isCtx ctx
  | .ctxTeardown ctx => isCtx ctx
  | .teardownStepDone ctx => isCtx ctx
  | .translationCompletion ctx _ _ _ _ size _ _ _ _ => isCtx ctx && decide (12 ≤ size) && decide (size < 64)
  | .atsCompletionTimeout ctx _ _ _ => isCtx ctx
  | .atsInvalidation itag fn _ _ _ _ => decide (itag < 32) && decide (fn < 64)
  | .atsInvalComplete itag fn => decide (itag < 32) && decide (fn < 64)
  | .faultHeadWrite _ => true
  | .vectorRegWrite which unit _ => if which = 0 then isCtx unit else decide (which < 4)
  | .wheelSlot port waiting _ _ => decide (port < 64) && waiting.all fun c => decide (c < 5)
  | .wheelTurnStart port => decide (port < 64)
  | .deadlineMiss port router cls => decide (port < 64) && decide (router < 64) && decide (cls < 5)
  | .whlApply port => decide (port < 64)
  | .regCfgWrite router _ _ => decide (router < 64)
  | .ethPortState port _ => decide (port < 2)
  | .podFrame port _ _ _ _ _ => decide (port < 2)
  | .podPutPerformed _ => true
  | .podRetxTimeout hub => decide (hub < 4096)
  | .podAckTimer hub => decide (hub < 4096)
  | .podUnreachable hub => decide (hub < 4096)
  | .podBeatTimer => true
  | .podWatchdog hub => decide (hub < 4096)
  | .podChOpen => true
  | .podChClose => true
  | .podChResume => true
  | .podCmdFetch ch => decide (ch < 256)
  | .podCmdNop ch => decide (ch < 256)
  | .podCmdPut ch => decide (ch < 256)
  | .podCmdReducePut ch => decide (ch < 256)
  | .podCmdSemAdd ch => decide (ch < 256)
  | .podCmdSemSub ch => decide (ch < 256)
  | .podCmdArrive ch => decide (ch < 256)
  | .configRequest fn off _ => decide (fn < 64) && decide (off < 4096) && decide (off % 4 = 0)
  | .bar4Read _ addr len => decide (1 ≤ len) && decide (len ≤ 4096) && decide (addr + len ≤ 2 ^ 39)
  | .bar4Write addr data _ => decide (data.length ≤ 4096) && decide (addr + data.length ≤ 2 ^ 39)
  | .initiateFlr fn => decide (fn < 64)
  | .flrDone fn => decide (fn < 64)
  | .d3hotEntry fn => decide (fn < 64)
  | .d0Return fn => decide (fn < 64)
  | .bar4Resize _ _ => true
  | .vfEnable _ => true
  | .hostCompletion fn _ status _ _ => decide (fn < 64) && decide (status < 3)
  | .hostCompletionTimeout _ => true
  | .msixUnmask fn vec => decide (fn < 64) && decide (vec < vectors fn)
  | .pmeTurnOff => true
  | .lcScrap path _ _ => inRange path 1 3
  | .lcJtagTransition _ => true
  | .attestNonce path _ _ => inRange path 1 3
  | .attestRecordReady => true
  | .dbgNonce path _ => decide (path ≤ 3)
  | .dbgResponse path _ _ => inRange path 1 3
  | .dbgVerifyDone => true
  | .opdbg path _ _ => inRange path 1 3
  | .bindLoad path _ region => decide (region < 64) && inRange path 1 3
  | .bindAbort path _ region => decide (region < 64) && inRange path 1 3
  | .bindUnwrapDone region => decide (region < 64)
  | .bindChunk region => decide (region < 64)
  | .mgmtWatchdog => true
  | .sramUe => true
  | .mbxRead _ _ _ _ => true
  | .mbxWrite _ _ _ => true
  | .mbxDescribe _ _ => true
  | .mbxNotePop => true
  | .kmpRead _ _ _ _ _ _ _ _ _ _ => true
  | .kmpDescribe _ _ _ _ _ _ _ _ _ => true
  | .kmpWrite _ _ _ _ _ _ _ _ _ _ => true
  | .kmpNotifyAck _ _ _ _ _ => true
  | .kmpResponseExpiry _ _ => true
  | .notifyResend _ => true
  | .fieldFrameRx kind _ _ _ _ => decide (kind < 5)
  | .fieldTxCollision _ _ => true
  | .plcaBeaconLoss => true
  | .sbWrite _ _ value _ => inRange value.length 1 32
  | .sbRead _ _ _ _ => true
  | .expertNonce path _ => inRange path 1 3
  | .expertProof path _ _ => inRange path 1 3
  | .expertClose path _ => inRange path 1 3
  | .expertIdleTimeout path _ => inRange path 1 2
  | .proofLockoutEnd path => inRange path 1 2
  | .storeCommit _ => true
  | .storeCommitRetry _ => true
  | .overlaySwitch path _ _ => inRange path 1 3
  | .ovlCreate path _ => inRange path 1 3
  | .ovlDelete path _ => inRange path 1 3
  | .ovlPut path _ => inRange path 1 3
  | .ovlRemove path _ => inRange path 1 3
  | .ovlClear path _ => inRange path 1 3
  | .storeCmd path _ _ => inRange path 1 3
  | .coastEntry => true
  | .parkEntry abort => decide (abort ≤ 6) || inRange abort 17 23
  | .parkWake source _ _ _ => inRange source 1 5
  | .kickstandWake => true
  | .rtcAlarm => true
  | .wakeReq path _ _ => inRange path 1 3
  | .avsInRegulation => true
  | .avsTimeout => true
  | .avsRetry => true
  | .limiterTick power temps => temps.length == 64 && decide (power < 65536)
  | .bootPhaseEnd _ _ _ _ _ _ _ => true
  | .bootPhaseOverrun => true
  | .pllLockTimeout => true
  | .stemUpTimeout => true
  | .gateRunEnd site errors => isLink site && errors.all (if site < 32 then laneOk else uciLaneOk)
  | .gateDeadline anchor => isLink anchor
  | .fwAnswerTimeout anchor => isLink anchor
  | .fwuBegin path _ => inRange path 1 3
  | .fwuEraseDone => true
  | .fwuData path _ _ => inRange path 1 3
  | .fwuEnd path _ => inRange path 1 3
  | .fwuAbort path _ => inRange path 1 3
  | .fwuActivate path _ => inRange path 1 3
  | .fwuConfirm path _ => inRange path 1 3
  | .fwuRollback path _ => inRange path 1 3
  | .fwuDeleteGuest path _ => inRange path 1 3
  | .fwuAutoConfirm => true
  | .trcClear => true
  | .dbgMemRead path _ => inRange path 1 3
  | .endpointCoreUe => true
  | .supplyFault supply => decide (supply < 6) || inRange supply 8 15
  | .siteIoutPoll site iout _ _ => decide (site < 32) && decide (iout < 65536)
  | .hbeatToggle site => decide (site < 32)
  | .vdrControlUe stn => isVdr stn
  | .casControlUe n => decide (n < 2)
  | .sidebandTransferDone site words => isLink site && words.all fun w => decide (w < 2 ^ 32)
  | .signatureCheckDone anchor => isLink anchor
  | .spokeTrainingDone site _ failed => isLink site && failed.all laneOk
  | .ucieTrainingDone port _ _ _ failed => decide (port < 2) && failed.all uciLaneOk
  | .regRead fn off _ => inBar0 fn off
  | .perstDeassert => true
  | .pcieLinkUp gts width => [2, 5, 8, 16, 32, 64].contains gts && [1, 2, 4, 8, 16].contains width
  | .plcaBeaconReturn => true
  | .dadComplete _ => true
  | .dynamicAddressAssignment addr => decide (addr < 128)

end Sys2Proof
end

