-- ==== Sys2Proof/Certificates/Slice0/Obligations.lean ====
section
/-!
DEFINITION. Certificates/Slice0/Obligations.lean: the statements about the hub for the provers. `Does c s h` says that command `c`
completes on state `s` with the effect that leaves hub `h`, whose consequences (`settle`) are then carried out; `DoesOnly c s h` that
it leaves exactly `h`, so that everything `h` does not name is as before: the queue of commands, every register, flag and counter,
memory, every table. A quiet hub is one on which `settle` changes nothing.
-/
open Sys2Proof
open Sys2Proof.Machine

/-- For every state whose queue starts with a command, the step is that command's exec on the state with the rest of the queue; a
state with a command put in front steps to that command's exec. (The queue of waiting commands is the model's; log entry 1.) -/
def Obligations.StepRunsFrontCommand : Prop :=
  (∀ (s : State) (c : Instr) (rest : List Instr), s.pending = c :: rest → step s = exec c { s with pending := rest }) ∧
  ∀ (s : State) (c : Instr), step (s.withCommand c) = exec c s

/-- On an empty queue a step changes nothing; the spec has no command row for a tick (DESIGN CHOICE, log entry 1). -/
def Obligations.IdleOnEmptyQueue : Prop := ∀ s : State, s.pending = [] → step s = .next s

/-- Right after power is applied every register shows its reset value. Named ones of several blocks: HUB.ALIVE.SENTINEL 0x4B414C45,
HUB.STATUS 0 (no half is up), CRANK.STATUS 5, VEC, DRL and CAS STATUS 1, every context FREE, every queue slot FREE, every event
flag and counter 0, BOOT.STATUS 0. (The variant, a KH-7364, is the model's choice: log entry 2; the variants' own fields are
stated for every variant.) -/
def Obligations.ResetRegisters : Prop :=
  (∀ (r : Reg) (i : Nat), getReg State.reset.hub r i = regReset .kh7364 r i) ∧
  fld State.reset.hub F.hubAliveSentinel = 0x4B414C45 ∧ getReg State.reset.hub .hubStatus 0 = 0 ∧
  (∀ n, getReg State.reset.hub .crankStatus n = 5 ∧ getReg State.reset.hub .vecStatus n = 1 ∧ getReg State.reset.hub .drlStatus n = 1 ∧
    getReg State.reset.hub .casStatus n = 1) ∧
  (∀ c, ctxState State.reset.hub c = 0) ∧ (∀ c slot, qState State.reset.hub c slot = 0) ∧
  (∀ i, getReg State.reset.hub .hubEvt i = 0 ∧ getReg State.reset.hub .hubEvtCnt i = 0 ∧ getReg State.reset.hub .memEvt i = 0 ∧
    getReg State.reset.hub .rimEvt i = 0 ∧ getReg State.reset.hub .siteEvt i = 0 ∧ getReg State.reset.hub .podEvt i = 0) ∧
  getReg State.reset.hub .bootStatus 0 = 0 ∧
  ∀ (v : Variant) (i : Nat), regReset v .hubId i % 65536 = v.part ∧ regReset v .vfId i % 65536 = v.part

/-- Right after power is applied nothing waits to be carried out, Coast has no work, the hub is quiet, and the memories are in
canonical form. -/
def Obligations.ResetInvariant : Prop :=
  State.reset.inv = true ∧ State.reset.hub.quiet = true ∧ State.reset.pending = [] ∧
  Memory.wf State.reset.hub.hbm = true ∧ Memory.wf State.reset.hub.hostMem = true ∧ Memory.wf State.reset.hub.hostBuf = true

/-- From every state with the invariant, a step that answers a next state answers one with the invariant: no consequence waits, and a
hub in Coast has no open command or operation (R491). For a step that runs a command this holds whatever state it starts from.
(That consequences end inside the step is the model's form.) -/
def Obligations.StepKeepsInvariant : Prop :=
  (∀ s t : State, s.inv = true → step s = .next t → t.inv = true) ∧
  ∀ (s t : State) (c : Instr), exec c s = .next t → t.inv = true

/-- Every command of the table completes on every state if and only if it names only units that the spec's numbering has (Instr.wf);
else it stops with the fault noSuchUnit. No command is refused. Whether it stops does not depend on the state. -/
def Obligations.CompletesIffWellFormed : Prop :=
  ∀ (c : Instr) (s : State), if c.wf = true then ∃ t, exec c s = .next t else exec c s = .fault .noSuchUnit

/-- Whatever command runs, the queue of waiting commands is after it what it was before it; a step only takes the first one away. -/
def Obligations.QueueUntouched : Prop :=
  (∀ (c : Instr) (s t : State), exec c s = .next t → t.pending = s.pending) ∧
  ∀ s t : State, step s = .next t → t.pending = s.pending.drop 1

/-- On a quiet hub in Ride, a REG_WRITE of 4 or 8 aligned bytes to a plain register (one that a write only stores to) whose half is up
changes that register alone: a bit takes the written value where the access addresses it and the table calls it RW, and keeps its
value elsewhere (the other half, reserved and read-only bits). Nothing else of the hub changes. -/
def Obligations.RegWriteStores : Prop :=
  ∀ (s : State) (fn off size v : Nat) (b : Block) (u o : Nat) (r : Reg) (i : Nat),
    s.hub.quiet = true → s.hub.pwr.state = 0 → s.hub.pcie.up = true → barOpen s.hub fn off = true → inBar0 fn off = true →
    accessOk off size = true → halfUp s.hub fn off = true → placeAt s.hub fn (off / 8 * 8) = .reg b u o → regAt b o = some (r, i) →
    plainReg r = true →
    ∃ new : Nat, DoesOnly (.regWrite fn off size v) s (setReg s.hub r (bankOf s.hub r u i) new) ∧
      (∀ n, n < 64 → new.testBit n =
        if (touched off size).testBit n && r.info.rw.testBit n then (wordOf v off size).testBit n
        else (getReg s.hub r (bankOf s.hub r u i)).testBit n) ∧
      getReg (setReg s.hub r (bankOf s.hub r u i) new) r (bankOf s.hub r u i) = new % 2 ^ 64

/-- (1) A companion counter counts modulo 2 to its width (it wraps from its maximum to 0), and its width is 16 but for the fields a
table gives 32 bits. (2) A REG_WRITE to a register of counters changes nothing on a quiet hub in Ride: counters are read-only. (3)
A W1C_WRITE of an aligned word or half to a register of event flags leaves exactly that register changed, so no counter: a bit is
1 after it where it was 1 before and was not both a flag and written with 1 inside the half addressed. -/
def Obligations.CountersAndW1c : Prop :=
  (∀ (h : Hub) (e : Evt) (i : Nat), e.cnt.lo + e.cnt.w ≤ 64 → e.cnt.reg ≠ e.flag.reg →
    fld (raise h e i) e.cnt i = (fld h e.cnt i + 1) % 2 ^ e.cnt.w) ∧
  (∀ e ∈ evtList, e.cnt.lo + e.cnt.w ≤ 64 ∧ e.cnt.reg ≠ e.flag.reg ∧ (e.cnt.w = 16 ∨ e ∈ wideEvts) ∧
    e.cnt.reg.info.rw = 0 ∧ e.cnt.reg.info.w1c = 0 ∧ e.cnt.reg.info.w1s = 0 ∧ e.flag.reg.info.w1c.testBit e.flag.lo = true) ∧
  (∀ (s : State) (fn off size v : Nat) (b : Block) (u o : Nat) (r : Reg) (i : Nat),
    s.hub.quiet = true → s.hub.pwr.state = 0 → s.hub.pcie.up = true → barOpen s.hub fn off = true → inBar0 fn off = true →
    accessOk off size = true → halfUp s.hub fn off = true → placeAt s.hub fn (off / 8 * 8) = .reg b u o → regAt b o = some (r, i) →
    (r ∈ evtList.map (·.cnt.reg) → DoesOnly (.regWrite fn off size v) s s.hub) ∧
    (r.info.w1c ≠ 0 → r.info.w1c &&& wordOf v off size ≠ 0 →
      ∃ new : Nat, DoesOnly (.w1cWrite fn off size v) s (setReg s.hub r (bankOf s.hub r u i) new) ∧
        ∀ n, new.testBit n = ((getReg s.hub r (bankOf s.hub r u i)).testBit n &&
          !(r.info.w1c.testBit n && (touched off size).testBit n && (wordOf v off size).testBit n))))

/-- No offset of a virtual function's BAR0 names a hub global register. A write of an aligned word or low half to HUB.CTL while the
operator's policy forbids driver-initiated resets leaves, on a quiet hub in Ride, nothing but the event REG_DROPPED. -/
def Obligations.HubGlobals : Prop :=
  (∀ (h : Hub) (f o u x : Nat), f ≠ 0 → placeAt h f o ≠ .reg .hub u x) ∧
  ∀ (s : State) (size v : Nat), s.hub.quiet = true → s.hub.pwr.state = 0 → s.hub.pcie.up = true → barOpen s.hub 0 0x38 = true →
    size = 4 ∨ size = 8 → odOn s.hub OD.drvResetOk = false →
    DoesOnly (.regWrite 0 0x38 size v) s (raise s.hub E.hubRegDropped)

/-- On a quiet hub in Ride with the data half serving and no debug session open, a REG_READ of the window (BAR0 0x0200_0000 to
0x021F_FFFF) answers 0 and a REG_WRITE there changes nothing; with a session open, a 64-bit read of a slot's first word answers
its count and of its second its state word. -/
def Obligations.SyncDebugWindow : Prop :=
  ∀ (s : State) (off size v : Nat), s.hub.quiet = true → s.hub.pwr.state = 0 → s.hub.pcie.up = true → memOpen s.hub 0 = true →
    serving s.hub = true → 0x2000000 ≤ off → off < 0x2200000 → accessOk off size = true →
    (debugOpen s.hub = false →
      DoesOnly (.regRead 0 off size) s (emit s.hub .regRead 0 [off, size, 0]) ∧ DoesOnly (.regWrite 0 off size v) s s.hub) ∧
    (debugOpen s.hub = true → size = 8 →
      DoesOnly (.regRead 0 off size) s
        (emit s.hub .regRead 0 [off, size,
          partOf (if off % 16 = 0 then ofSigned 64 (sem s.hub ((off - 0x2000000) / 16)).count else semWord1 s.hub ((off - 0x2000000) / 16))
            off size]))

/-- On a quiet hub whose function takes BAR0 requests: a read of another size than 4 or 8 aligned bytes answers 0 and a write of one
is dropped, both without any effect on the hub (R11); a read at a reserved offset of a half that is up answers 0 and a write there
is ignored (R12). -/
def Obligations.OddAccesses : Prop :=
  ∀ (s : State) (fn off size v : Nat), s.hub.quiet = true → s.hub.pwr.state = 0 → s.hub.pcie.up = true →
    barOpen s.hub fn off = true → inBar0 fn off = true →
    (accessOk off size = false →
      DoesOnly (.regRead fn off size) s (emit s.hub .regRead fn [off, size, 0]) ∧ DoesOnly (.regWrite fn off size v) s s.hub) ∧
    (accessOk off size = true → halfUp s.hub fn off = true → placeAt s.hub fn (off / 8 * 8) = .none →
      DoesOnly (.regRead fn off size) s (emit s.hub .regRead fn [off, size, 0]) ∧ DoesOnly (.regWrite fn off size v) s s.hub)

/-- REG_READ answers what the place shows, with a wake or the end of Coast where the data half serves it; REG_WRITE performs the write
at its place; W1C_WRITE does the same at a register of flags; STEM_REG reads and writes data-half blocks for the management core.
An access to a half that is down is dropped and raises REG_DROPPED; the read answers 0. -/
def Obligations.RegisterAccesses : Prop :=
  (∀ (s : State) (fn off size v : Nat), s.hub.pcie.up = true → barOpen s.hub fn off = true → inBar0 fn off = true →
    accessOk off size = true →
    (halfUp s.hub fn off = true →
      Does (.regRead fn off size) s
        (let h := if servedBy fn off = 2 then hostCalls s.hub else s.hub
         let x := placeRead h (placeAt h fn (off / 8 * 8))
         emit x.2 .regRead fn [off, size, partOf x.1 off size]) ∧
      Does (.regWrite fn off size v) s
        (let h := if servedBy fn off = 2 then hostCalls s.hub else s.hub
         placeWrite h (fn == 0) (placeAt h fn (off / 8 * 8)) (touched off size) (wordOf v off size)) ∧
      (isFlags s.hub fn off = true → exec (.w1cWrite fn off size v) s = exec (.regWrite fn off size v) s)) ∧
    (halfUp s.hub fn off = false →
      Does (.regRead fn off size) s (emit (raise s.hub E.hubRegDropped) .regRead fn [off, size, 0]) ∧
      Does (.regWrite fn off size v) s (raise s.hub E.hubRegDropped))) ∧
  ∀ (s : State) (off size v : Nat), s.hub.ctlDown = false → s.hub.runs = true → inBar0 0 off = true → servedBy 0 off = 2 →
    accessOk off size = true →
    Does (.stemReg true off size v) s
      (emit (placeWrite s.hub true (placeAt s.hub 0 (off / 8 * 8)) (touched off size) (wordOf v off size)) .stemReg 1 [off]) ∧
    Does (.stemReg false off size v) s
      (let x := placeRead s.hub (placeAt s.hub 0 (off / 8 * 8))
       emit x.2 .stemReg 0 [off, partOf x.1 off size])

/-- STEM_BEAT_SEND sends a beat of a half that is up with its restart count; STEM_BEAT notes the count; STEM_BEAT_TIMEOUT of the
control half restarts it and sets RIDE_THROUGH where the data half is up, and of the data half changes nothing; STEM_WORD_UE
raises STEM_RESYNC where the link resynchronises, counts a failure, and treats the third in a row as missed beats; STEM_FREEZE
freezes and answers with a beat; STEM_RESUME unfreezes a data half that no fatal source froze; STEM_DICT carries a value;
STEM_NOTICE writes the oldest queued notice; RIDE_THROUGH_FREEZE freezes with RIDE_MS 500. -/
def Obligations.StemCommands : Prop :=
  ∀ s : State, s.hub.alive = true →
    (ctlUp s.hub = true → Does (.stemBeatSend true) s (emit s.hub .stemBeat 1 [0, s.hub.ctlStarts])) ∧
    (s.hub.dataReset = false → Does (.stemBeatSend false) s (emit s.hub .stemBeat 0 [1, s.hub.dataStarts])) ∧
    (∀ n, Does (.stemBeat true n) s { s.hub with mg := { s.hub.mg with seenCtl := n } } ∧
      Does (.stemBeat false n) s { s.hub with mg := { s.hub.mg with seenData := n } }) ∧
    Does (.stemBeatTimeout true) s
      (if dataUp (ctlRestart s.hub) then setFld (ctlRestart s.hub) F.hubStatusRideThrough 0 1 else ctlRestart s.hub) ∧
    Does (.stemBeatTimeout false) s s.hub ∧
    Does (.stemWordUe true) s (raise { s.hub with resyncFail := 0 } E.hubStemResync) ∧
    (s.hub.resyncFail < 2 → Does (.stemWordUe false) s { s.hub with resyncFail := s.hub.resyncFail + 1 }) ∧
    (2 ≤ s.hub.resyncFail → Does (.stemWordUe false) s (beatsMissed { s.hub with resyncFail := 0 } true)) ∧
    (s.hub.runs = true → frozen s.hub = false →
      Does .stemFreeze s (emit (raise (setFld s.hub F.hubStatusFrozen 0 1) E.hubFroze) .stemBeat 0 [1, s.hub.dataStarts])) ∧
    (s.hub.runs = true → frozen s.hub = true → s.hub.frozenBy = 0 → Does .stemResume s (runAll (setFld s.hub F.hubStatusFrozen 0 0))) ∧
    (s.hub.runs = true → flag s.hub F.hubStatusRideThrough = true → dataUp s.hub = true →
      Does .rideThroughFreeze s (setFld (freeze s.hub) F.hubStatusRideMs 0 500)) ∧
    (∀ k r, s.hub.ctlDown = false → entry? s.hub k = some r → Does (.stemDict k) s (emit s.hub .stemDict 0 [k] (entryValue s.hub k r))) ∧
    ∀ n r, ctlUp s.hub = true → s.hub.notices = n :: r → Does .stemNotice s (stemEntry { s.hub with notices := r } n)

/-- MGMT_WATCHDOG and SRAM_UE restart a control half that is up; HUB_CTL_CTL_RESTART does so and reads 1 meanwhile; HUB_CTL_DATA_RESET
starts a data-half reset and its warm restart. Where the operator forbids driver-initiated resets both driver requests are dropped
with REG_DROPPED (R31). CTL_HALF_RETURN runs an image, serves again, empties the stem queue, meets the data half and raises
CTL_RESTARTED; after a restart in a cold bring-up it begins that bring-up again. -/
def Obligations.Restarts : Prop :=
  (∀ s : State, s.hub.dead = 0 → Does .mgmtWatchdog s (ctlRestart s.hub) ∧ Does .sramUe s (ctlRestart s.hub)) ∧
  (∀ s : State, s.hub.dead = 0 → odOn s.hub OD.drvResetOk = true → flag s.hub F.hubCtlCtlRestart = false →
    Does .hubCtlCtlRestart s (ctlRestart (setFld s.hub F.hubCtlCtlRestart 0 1))) ∧
  (∀ s : State, s.hub.dead = 0 → odOn s.hub OD.drvResetOk = true → ctlUp s.hub = true →
    bringingUp s.hub = false → Does .hubCtlDataReset s (dataHalfReset (setFld s.hub F.hubCtlDataReset 0 1))) ∧
  (∀ s : State, s.hub.dead = 0 → odOn s.hub OD.drvResetOk = false →
    Does .hubCtlDataReset s (raise s.hub E.hubRegDropped) ∧ Does .hubCtlCtlRestart s (raise s.hub E.hubRegDropped)) ∧
  (∀ (s : State) (b : Bool), s.hub.alive = true → s.hub.ctlDown = true → bringingUp s.hub = false → s.hub.mg.resume = 1 →
    Does (.ctlHalfReturn b) s
      (beginBringUp { s.hub with ctlStarts := s.hub.ctlStarts + 1, mg := { s.hub.mg with resume := 0 } } false 1)) ∧
  ∀ (s : State) (b bad : Bool) (k : Hub), s.hub.alive = true → s.hub.ctlDown = true → bringingUp s.hub = false → s.hub.mg.resume ≠ 1 →
    firmwareStart 3 (lifeCycleBoot { s.hub with ctlStarts := s.hub.ctlStarts + 1 } b) = (k, bad) → k.mg.slot.isSome = true →
    Does (.ctlHalfReturn b) s
      (let m := raise (meetData (ctlServes k bad)) E.hubCtlRestarted
       { m with mg := { m.mg with resume := 0 } })

/-- On a quiet hub with the control half up and no bring-up running, MGMT_WATCHDOG leaves CTL_UP 0 and the control half down, the data
half's work untouched (memory, contexts, queues, commands, operations, guests), and the hub globals but for CTL_UP as they were
(R30: they keep their values across restarts of either half). -/
def Obligations.ControlRestartKeepsDataHalf : Prop :=
  ∀ s : State, s.hub.quiet = true → s.hub.dead = 0 → s.hub.ctlDown = false → bringingUp s.hub = false →
    ∃ t : Hub, DoesOnly .mgmtWatchdog s t ∧ ctlUp t = false ∧ t.ctlDown = true ∧ t.hbm = s.hub.hbm ∧ t.ops = s.hub.ops ∧
      t.cmds = s.hub.cmds ∧ t.queues = s.hub.queues ∧ t.guests = s.hub.guests ∧ t.sems = s.hub.sems ∧ t.atc = s.hub.atc ∧
      (∀ c, ctxState t c = ctxState s.hub c) ∧ getReg t .hubEvt 0 = getReg s.hub .hubEvt 0 ∧
      getReg t .hubEvtCnt 0 = getReg s.hub .hubEvtCnt 0 ∧ getReg t .hubEvtCnt2 0 = getReg s.hub .hubEvtCnt2 0 ∧
      getReg t .hubCtl 0 = getReg s.hub .hubCtl 0 ∧ getReg t .hubId 0 = getReg s.hub .hubId 0 ∧
      (∀ n, n ≠ 0 → (getReg t .hubStatus 0).testBit n = (getReg s.hub .hubStatus 0).testBit n)

/-- COLD_POWER_UP starts phase 0 on a hub without power; POWER_LOSS leaves what a hub keeps without power; BOOT_PHASE_END ends the
phase that a cold bring-up is in and begins the next (phase 0 to 1, 1 the ROM's, 2 the stem link and the rim, 3 memory, 4, 5, 6
the stations, 7 READY), its time noted; WARM_RESTART_PHASE_END does so in a warm restart, whose reset phase ends with phase 2;
BOOT_PHASE_OVERRUN raises PHASE_OVER; PLL_LOCK_TIMEOUT and STEM_UP_TIMEOUT fail phase 2. -/
def Obligations.BringUpCommands : Prop :=
  (∀ s : State, s.hub.pwr.on = false → s.hub.pwr.state ≠ 3 →
    Does .coldPowerUp s
      (beginBringUp { emit s.hub .pwrOn 0 [1] with pwr := { s.hub.pwr with on := true } } false 0)) ∧
  (∀ (s : State) (aon : Bool), Does (.powerLoss aon) s (offHub s.hub (!aon) false)) ∧
  (∀ (s : State) (ms : Nat) (blows odd ok : Bool) (hs : List (Nat × Nat × Nat × Nat)) (fs : List (List Nat)) (bad : List Nat),
    bringingUp s.hub = true → s.hub.dead = 0 → s.hub.warmRun = false → s.hub.mg.warmReset = false →
    let n := fld s.hub F.bootStatusPhase
    let h := phaseTime s.hub n ms
    (n = 0 → Does (.bootPhaseEnd ms blows odd ok hs fs bad) s (setFld { h with ctlStarts := h.ctlStarts + 1 } F.bootStatusPhase 0 1)) ∧
    (n = 1 → Does (.bootPhaseEnd ms blows odd ok hs fs bad) s (romPhase h blows odd)) ∧
    (n = 2 → Does (.bootPhaseEnd ms blows odd ok hs fs bad) s (rimPhase h ok)) ∧
    (n = 3 → fld (memPhase h hs fs) F.bootStatusPhase = 4 →
      Does (.bootPhaseEnd ms blows odd ok hs fs bad) s (presencePhase (memPhase h hs fs))) ∧
    (n = 4 → Does (.bootPhaseEnd ms blows odd ok hs fs bad) s (setFld h F.bootStatusPhase 0 5)) ∧
    (n = 5 → Does (.bootPhaseEnd ms blows odd ok hs fs bad) s (setFld h F.bootStatusPhase 0 6)) ∧
    (n = 6 → Does (.bootPhaseEnd ms blows odd ok hs fs bad) s (stationPhase h bad)) ∧
    (n = 7 → Does (.bootPhaseEnd ms blows odd ok hs fs bad) s (readyPhase h))) ∧
  (∀ (s : State) (ms : Nat) (ok : Bool) (hs : List (Nat × Nat × Nat × Nat)) (fs : List (List Nat)) (bad : List Nat),
    bringingUp s.hub = true → s.hub.dead = 0 → s.hub.warmRun = true →
    (s.hub.mg.warmReset = true → s.hub.pcie.waits = false →
      Does (.warmRestartPhaseEnd ms ok hs fs bad) s
        (phase2Begin { s.hub with bootMs := s.hub.bootMs + ms, mg := { s.hub.mg with warmReset := false } })) ∧
    (s.hub.mg.warmReset = false → fld s.hub F.bootStatusPhase = 7 →
      Does (.warmRestartPhaseEnd ms ok hs fs bad) s (readyPhase (phaseTime s.hub 7 ms)))) ∧
  (∀ s : State, bringingUp s.hub = true → s.hub.dead = 0 → Does .bootPhaseOverrun s (raise s.hub E.bootPhaseOver)) ∧
  ∀ s : State, inPhase2 s.hub = true →
    Does .pllLockTimeout s (phase2Fails (stemUp s.hub false) 1) ∧ Does .stemUpTimeout s (stemTimeout s.hub)

/-- When phase 3 ends with at least one live port, the capacity C of every port is 1/8 of the capacity (GiB × 2^30) of a stack that
has a live port and no more than that of any other such stack; every address of the live ports' joint capacity lies at a port-
local address below C, so that nothing above C is used; OD 0x5000.06 reads C. -/
def Obligations.PortCapacity : Prop :=
  ∀ (h : Hub) (hs : List (Nat × Nat × Nat × Nat)) (fs : List (List Nat)), (memPhase h hs fs).live ≠ [] →
    let t := memPhase h hs fs
    (∃ p ∈ t.live, 8 * t.portCap = (stack t (p / 8)).gib * 2 ^ 30) ∧ (∀ p ∈ t.live, 8 * t.portCap ≤ (stack t (p / 8)).gib * 2 ^ 30) ∧
      (∀ a, a < t.live.length * t.portCap → localAddr t a < t.portCap) ∧ viewNum t OD.memPortCap = some t.portCap

/-- PERST asserted on a running hub releases THERMTRIP_N where every sensor is cool and loses the link; after a hub-fatal error it
starts a cold boot; HOT_RESET and LINK_DOWN lose the link; PERST_DEASSERT lets the link train and releases WAKE#; PCIE_LINK_UP
sets rate and width, and a bring-up that waited for the link goes on from phase 2. -/
def Obligations.LinkCommands : Prop :=
  (∀ (s : State) (cool : Bool), s.hub.pcie.perst = false → s.hub.pwr.on = true →
    (s.hub.dead = 0 → Does (.perst cool) s (linkLost (tripRelease { s.hub with pcie := { s.hub.pcie with perst := true } } cool))) ∧
    (s.hub.dead ≠ 0 →
      Does (.perst cool) s (powerUp (offHub (tripRelease { s.hub with pcie := { s.hub.pcie with perst := true } } cool) true false)))) ∧
  (∀ s : State, endpointUp s.hub = true → Does .hotReset s (linkLost s.hub) ∧ Does .linkDown s (linkLost s.hub)) ∧
  (∀ s : State, s.hub.pwr.wakeLow = false → Does .perstDeassert s { s.hub with pcie := { s.hub.pcie with perst := false } }) ∧
  ∀ (s : State) (g w : Nat), [2, 5, 8, 16, 32, 64].contains g = true → [1, 2, 4, 8, 16].contains w = true →
    Does (.pcieLinkUp g w) s (pcieUp s.hub g w) ∧
    (s.hub.pcie.perst = false → s.hub.pcie.up = false → s.hub.alive = true →
      (pcieUp s.hub g w).pcie.up = true ∧ (pcieUp s.hub g w).pcie.width = w ∧
        (pcieUp s.hub g w).pcie.gts = Nat.min g (odNum s.hub OD.pcieMaxGts))

/-- INITIATE_FLR resets a function not in a reset, a PF with its VFs, while either half is up (R17); FLR_DONE ends a function-level
reset; D3HOT_ENTRY suspends the function's ACTIVE contexts; D0_RETURN resumes those; VF_ENABLE enables and disables the VFs;
MSIX_UNMASK clears a mask bit and sends what pended; CONFIG_REQUEST answers a read and performs a write. -/
def Obligations.FunctionCommands : Prop :=
  (∀ (s : State) (fn : Nat), endpointUp s.hub = true → (ctlUp s.hub || dataUp s.hub) = true → funcOn s.hub fn = true → fn < 64 →
    ((func s.hub fn).flr = false → fn ≠ 0 → Does (.initiateFlr fn) s (flrOne s.hub fn)) ∧
    ((func s.hub 0).flr = false → Does (.initiateFlr 0) s (flrOne (if (func s.hub 0).vfEn then vfGone s.hub else s.hub) 0))) ∧
  (∀ (s : State) (fn : Nat), endpointUp s.hub = true → ctlUp s.hub = true → funcOn s.hub fn = true → fn < 64 →
    ((func s.hub fn).flr = false → (func s.hub fn).pm = 0 →
      Does (.d3hotEntry fn) s
        (let cs := (funcCtxs s.hub fn).filter fun c => ctxState s.hub c == 2
         each cs (setFunc s.hub fn { func s.hub fn with pm := 3, suspended := cs }) suspendCtx)) ∧
    ((func s.hub fn).flr = false → (func s.hub fn).pm ≠ 0 → Does (.d0Return fn) s (d0 s.hub fn)) ∧
    ((func s.hub 0).flr = false → (func s.hub 0).vfEn = false → (func s.hub 0).ariHier = true →
      Does (.vfEnable true) s (setFunc s.hub 0 { func s.hub 0 with vfEn := true })) ∧
    ((func s.hub 0).flr = false → (func s.hub 0).vfEn = true →
      Does (.vfEnable false) s (setFunc (vfGone s.hub) 0 { func (vfGone s.hub) 0 with vfEn := false }))) ∧
  (∀ (s : State) (fn : Nat), fn < 64 → (func s.hub fn).flr = true →
    Does (.flrDone fn) s (setFunc s.hub fn { func s.hub fn with flr := false })) ∧
  (∀ (s : State) (fn vec : Nat), fn < 64 → vec < vectors fn → msixOpen s.hub fn = true →
    Does (.msixUnmask fn vec) s (msixMask s.hub fn vec false)) ∧
  ∀ (s : State) (fn off be v : Nat), s.hub.pcie.up = true → ctlUp s.hub = true → (func s.hub fn).flr = false → funcOn s.hub fn = true →
    fn < 64 → off < 4096 → off % 4 = 0 →
    Does (.configRequest fn off none) s (let x := cfgRead s.hub fn off; emit x.2 .cfgCpl fn [off, x.1]) ∧
    Does (.configRequest fn off (some (be, v))) s
      (emit (cfgWrite s.hub fn off ((List.range 4).foldl (fun a i => if bitOf be i then a + 255 * 256 ^ i else a) 0) (v % 2 ^ 32))
        .cfgCpl fn [off])

/-- On a quiet hub whose configuration is served, a write of BAR4's base, and a write of its size to an advertised value while Memory
Space Enable is 0, leave no ATC entry of any context, host-memory entries included, and mark every translation in flight as stale;
a completion of a stale translation is discarded and the same translation is requested again. -/
def Obligations.Bar4DropsTranslations : Prop :=
  (∀ (s : State) (v : Nat), s.hub.quiet = true → endpointUp s.hub = true → ctlUp s.hub = true → (func s.hub 0).flr = false →
    (∃ t : Hub, DoesOnly (.bar4Resize false v) s t ∧ t.atc = [] ∧ t.trReqs = s.hub.trReqs.map fun x => { x with stale := true }) ∧
    ((func s.hub 0).memEn = false → 10 ≤ v → v ≤ 19 →
      ∃ t : Hub, DoesOnly (.bar4Resize true v) s t ∧ t.atc = [] ∧ (func t 0).bar4Log = v + 20 ∧
        t.trReqs = s.hub.trReqs.map fun x => { x with stale := true })) ∧
  ∀ (h : Hub) (t : TransReq) (status size addr : Nat) (r w u : Bool), t ∈ h.trReqs → t.stale = true →
    (trDone h t status size r w u addr).atc = h.atc ∧
      ∃ x ∈ (trDone h t status size r w u addr).trReqs, x.ctx = t.ctx ∧ x.va = t.va ∧ x.write = t.write ∧ x.stale = false

/-- BAR4_READ inside the reachable HBM waits for its lines and is completed by them; one the hub does not serve is completed as
unsupported. BAR4_WRITE stores its bytes at the homes, poisoned with EP. BAR4_RESIZE changes base or size. HOST_COMPLETION
delivers a read's bytes, poisoned where the completion is no clean one; HOST_COMPLETION_TIMEOUT delivers poison. -/
def Obligations.HostAccesses : Prop :=
  (∀ (s : State) (tag a n : Nat), s.hub.pcie.up = true → s.hub.rides = true → memOpen s.hub 0 = true → 1 ≤ n → n ≤ 4096 → a + n ≤ 2 ^ 39 →
    (a + n ≤ dpaLimit s.hub → barBound s.hub a n = false →
      Does (.bar4Read tag a n) s { s.hub with pcie := { s.hub.pcie with reads := s.hub.pcie.reads ++ [⟨tag, a, n⟩] } }) ∧
    (dpaLimit s.hub < a + n → Does (.bar4Read tag a n) s (emit s.hub .cplUr 0 [tag]))) ∧
  (∀ (s : State) (a : Nat) (bs : List Byte), s.hub.pcie.up = true → s.hub.rides = true → memOpen s.hub 0 = true → bs.length ≤ 4096 →
    a + bs.length ≤ 2 ^ 39 → a + bs.length ≤ dpaLimit s.hub →
    Does (.bar4Write a bs false) s (bar4Apply s.hub a bs false)) ∧
  (∀ (s : State) (v : Nat), endpointUp s.hub = true → ctlUp s.hub = true → (func s.hub 0).flr = false →
    Does (.bar4Resize false v) s (bar4Base s.hub v) ∧ Does (.bar4Resize true v) s (bar4Size s.hub v)) ∧
  (∀ (s : State) (fn tag st : Nat) (ep : Bool) (bs : List Byte) (r : HostRead), s.hub.pcie.up = true → fn < 64 → st < 3 →
    (s.hub.hostReads.find? fun r => r.tag == tag && r.func == fn) = some r →
    (st = 0 → ep = false → Does (.hostCompletion fn tag st ep bs) s (deliverHost s.hub r bs false)) ∧
    (st = 1 → Does (.hostCompletion fn tag st ep bs) s (deliverHost (logError s.hub fn 20) r bs true)) ∧
    (st = 2 → Does (.hostCompletion fn tag st ep bs) s (deliverHost (logError s.hub fn 15) r bs true)) ∧
    (st = 0 → ep = true → Does (.hostCompletion fn tag st ep bs) s (deliverHost (logError s.hub fn 12) r bs true))) ∧
  ∀ (s : State) (tag : Nat) (r : HostRead), (s.hub.hostReads.find? fun r => r.tag == tag) = some r → (func s.hub r.func).ctoDisable = false →
    Does (.hostCompletionTimeout tag) s (deliverHost (logError s.hub r.func 14) r [] true)

/-- COAST_ENTRY takes an idle hub to Coast; PARK_ENTRY, due and not refused, runs the steps to Park; PARK_WAKE records the source (the
lowest of those that wait) and rides again, or is fatal source 8 where voltage or PLL fails; PME_TURN_OFF is acknowledged;
KICKSTAND_WAKE boots as from cold; RTC_ALARM wants a wake of source 3; AVS_IN_REGULATION reaches the level, AVS_TIMEOUT counts a
failure and is fatal source 7 at the third, AVS_RETRY asks again; WAKE_REQ is the write of its entry. -/
def Obligations.PowerCommands : Prop :=
  (∀ s : State, s.hub.rides = true → frozen s.hub = false → s.hub.ops = [] → s.hub.cmds = [] → s.hub.ctlDown = false →
    odNum s.hub OD.expertHold ≠ 1 → Does .coastEntry s (pwrMove s.hub 1)) ∧
  (∀ (s : State) (k : Hub), parkDue s.hub = true → refused s.hub = (false, k) → Does (.parkEntry 0) s (parkSteps k)) ∧
  (∀ (s : State) (src : Nat) (vf pf : Bool) (bad : List Nat), 1 ≤ src → src ≤ 5 → s.hub.pwr.state = 2 → s.hub.ctlDown = false →
    s.hub.dead = 0 →
    let x := drawFree s.hub 32
    let h := addFld { x.2 with pwr := { x.2.pwr with want := none } } F.pwrParkMsPark 0 x.1
    let h := sendPme (wakeRecord h (match s.hub.pwr.want with
      | some w => Nat.min w src
      | none => src) 2)
    Does (.parkWake src vf pf bad) s
      (if vf || pf then later (pwrMove { h with pwr := { h.pwr with level := 1 } } 0) (.fatal 8) else rideAgain h bad)) ∧
  (∀ s : State, endpointUp s.hub = true → Does .pmeTurnOff s (pmeTurnOff s.hub) ∧
    ((∀ c ∈ usedCtx s.hub, ctxState s.hub c < 2) → serving s.hub = false → Does .pmeTurnOff s
      { emit s.hub .pmeToAck 0 with
        pcie := { s.hub.pcie with d3cold := true }, pwr := { s.hub.pwr with pmeSet := (func s.hub 0).pmeEn } })) ∧
  (∀ s : State, s.hub.pwr.state = 3 → Does .kickstandWake s
    (let h := sendPme (wakeRecord { s.hub with pwr := { s.hub.pwr with state := 0 } } 4 3)
     powerUp { h with pcie := { h.pcie with d3cold := false } })) ∧
  (∀ s : State, odNum s.hub OD.rtcAlarm ≠ 0 → s.hub.pwr.rtc ≤ odNum s.hub OD.rtcAlarm → s.hub.ctlDown = false →
    Does .rtcAlarm s (wantWake { s.hub with pwr := { s.hub.pwr with rtc := odNum s.hub OD.rtcAlarm } } 3)) ∧
  (∀ s : State, s.hub.ctlDown = false →
    (s.hub.pwr.avs.busy = true → s.hub.pwr.avs.next = none →
      Does .avsInRegulation s (reclk { s.hub with pwr := { s.hub.pwr with level := s.hub.pwr.avs.level, avs := {} } })) ∧
    (s.hub.pwr.avs.busy = true → s.hub.pwr.avs.fails < 2 →
      Does .avsTimeout s (raise { s.hub with pwr := { s.hub.pwr with avs :=
        { s.hub.pwr.avs with busy := false, retry := true, fails := s.hub.pwr.avs.fails + 1 } } } E.pwrAvsFail)) ∧
    (s.hub.pwr.avs.retry = true → Does .avsRetry s (avsSend s.hub s.hub.pwr.avs.level))) ∧
  ∀ (s : State) (path peer v : Nat), exec (.wakeReq path peer v) s = odRow s path peer OD.wakeReq (leBytes 1 v)

/-- LIMITER_TICK stores the readings, limits the clock of a data half that runs, and checks the trip; SUPPLY_FAULT of VDD_SRAM, SERDES
or IO18 is fatal source 7, of VDD_CTL or VDD_AON a hub-fatal error, of a stack's supply fails its live ports; ENDPOINT_CORE_UE is
a hub-fatal error. Two readings in a row of 110 degrees or more at one sensor drive THERMTRIP_N low and count a trip. -/
def Obligations.LimiterAndSupplies : Prop :=
  (∀ (s : State) (p : Nat) (t : List Int), t.length = 64 → p < 65536 → ctlUp s.hub = true → s.hub.dead = 0 →
    Does (.limiterTick p t) s
      (tripCheck (let h := storeReadings s.hub p t
                  if !h.dataReset && decide (h.pwr.state < 2) then limit h p (t.foldl max (t.headD 0)) else h) t)) ∧
  (∀ (h : Hub) (t : List Int) (i : Nat), t.length = 64 → i < 64 → 110 ≤ t.getD i 0 → i ∈ h.pwr.hot →
    (tripCheck h t).pwr.tripLow = true ∧ (tripCheck h t).mg.trips = (h.mg.trips + 1) % 2 ^ 32 ∧
      Todo.hubFatal 3 ∈ (tripCheck h t).todo) ∧
  (∀ (s : State) (n : Nat), s.hub.alive = true →
    (n < 4 → Does (.supplyFault n) s (later s.hub (.fatal 7))) ∧
    (4 ≤ n → n < 6 → Does (.supplyFault n) s (later s.hub (.hubFatal 2))) ∧
    (8 ≤ n → n < 16 → Does (.supplyFault n) s
      (each (livePorts s.hub (n - 8)) s.hub fun h p => if memState h p = 6 then h else failPort h p))) ∧
  ∀ s : State, s.hub.alive = true → Does .endpointCoreUe s (later s.hub (.hubFatal 1))

/-- RIM_FLIT_UE at a router's input: a flit whose parity says one bit is wrong is corrected and counted, an uncorrectable one is
requested again and counted until the retry limit, where the link FAILS and the error is fatal source 1; RIM_RETRY_REQUEST counts
the flits resent; RIM_STORAGE_UE is fatal source 2; RIM_ROUTE_ERR of an impossible route is fatal source 3; RIM_CNT_CLEAR returns
the router's port counters to 0. -/
def Obligations.RimCommands : Prop :=
  ∀ (s : State) (r port net syn n route : Nat) (holds again : Bool), r < 64 → net < 4 →
    (s.hub.runs = true → port < 7 →
      (secdedOutcome (flitBits net) syn holds = .corrected → Does (.rimFlitUe r port net syn holds again) s (flitFixed s.hub r port net)) ∧
      (secdedOutcome (flitBits net) syn holds = .uncorrectable → again = false →
        Does (.rimFlitUe r port net syn holds again) s
          (let h := addFld (raise s.hub E.rimRetry r) F.rimPortErrRetry (rimBank r port net) 1
           let h := setOdNum h OD.rimRetryTotal 8 ((odNum h OD.rimRetryTotal + 1) % 2 ^ 64)
           emit { h with rimTries := tset h.rimTries (rimBank r port net) 1 } .linkRetry r [port, net])) ∧
      (secdedOutcome (flitBits net) syn holds = .uncorrectable → again = true →
        odNum s.hub OD.rimRetryLimit ≤ tgetD s.hub.rimTries (rimBank r port net) 0 → port < 4 →
        Does (.rimFlitUe r port net syn holds again) s
          (later (let h := raise s.hub E.rimLinkFail r
                  setFld h F.rimStatusLinkFailed r (fld h F.rimStatusLinkFailed r ||| 2 ^ port)) (.fatal 1)))) ∧
    (s.hub.runs = true → port < 4 → 1 ≤ n → n ≤ 16 →
      Does (.rimRetryRequest r port net n) s (addFld s.hub F.rimPortFlitsFlits (rimBank r port net) n)) ∧
    (s.hub.runs = true → Does (.rimStorageUe r) s (later (raise s.hub E.rimFlitUe r) (.fatal 2))) ∧
    (s.hub.runs = true → route < 2 ^ 24 → badRoute s.hub route = true →
      Does (.rimRouteErr r route) s (later (raise s.hub E.rimRouteErr r) (.fatal 3))) ∧
    (s.hub.rides = true → Does (.rimCntClear r) s (rimClear s.hub r))

/-- On a quiet hub in Ride with the data half serving, RIM_CNT_CLEAR of router n changes registers only: the flit, stall and error
counters of every port (0 to 7) and network of router n read 0, and every other register keeps its value, those counters of other
routers included. -/
def Obligations.CntClearFrame : Prop :=
  ∀ (s : State) (n : Nat), s.hub.quiet = true → s.hub.rides = true → n < 64 →
    ∃ rs, DoesOnly (.rimCntClear n) s { s.hub with regs := rs } ∧
      (∀ port net, port < 8 → net < 4 →
        getReg { s.hub with regs := rs } .rimPortFlits (rimBank n port net) = 0 ∧
        getReg { s.hub with regs := rs } .rimPortStall (rimBank n port net) = 0 ∧
        getReg { s.hub with regs := rs } .rimPortErr (rimBank n port net) = 0) ∧
      ∀ (r : Reg) (b : Nat), (r ≠ .rimPortFlits ∧ r ≠ .rimPortStall ∧ r ≠ .rimPortErr) ∨ b / 32 ≠ n →
        getReg { s.hub with regs := rs } r b = getReg s.hub r b

/-- WHEEL_SLOT at a live port serves its slot; WHEEL_TURN_START takes over the owners of the next turn; DEADLINE_MISS of a regulated
endpoint with a deadline makes its request urgent and is counted; WHL_APPLY loads a good map and refuses another with result 1;
REG_CFG_WRITE stores values in range and refuses others with CFG_REFUSED. -/
def Obligations.WheelCommands : Prop :=
  ∀ (s : State) (p r c v err : Nat) (waiting urgent : List Nat), p < 64 → r < 64 →
    (s.hub.runs = true → s.hub.live.contains p = true → (waiting.all fun c => decide (c < 5)) = true →
      Does (.wheelSlot p waiting urgent err) s (wheelSlot s.hub p waiting urgent err)) ∧
    (s.hub.runs = true → s.hub.live.contains p = true → Does (.wheelTurnStart p) s (turnStart s.hub p)) ∧
    (s.hub.runs = true → s.hub.live.contains p = true → c < 5 → fld s.hub F.regCfgMode r = 2 →
      Does (.deadlineMiss p r c) s
        (raise (setWheel s.hub p { wheel s.hub p with late := (wheel s.hub p).late ++ [c] }) E.whlDeadlineMiss p)) ∧
    (s.hub.rides = true → s.hub.live.contains p = true →
      let m := mapOwners ((List.range 4).map fun i => getReg s.hub .whlMap0 (p * 4 + i))
      (mapOk m = true → Does (.whlApply p) s
        (setFld (setFld (setWheel s.hub p { wheel s.hub p with loaded := some m }) F.whlCtlResult p 0) F.whlCtlApply p 1)) ∧
      (mapOk m = false → Does (.whlApply p) s (setFld s.hub F.whlCtlResult p 1))) ∧
    (s.hub.rides = true → regHouse s.hub r = true →
      Does (.regCfgWrite r true v) s (setReg s.hub .regLimit r (v % 2 ^ 32)) ∧
      (regCfgOk v = true → Does (.regCfgWrite r false v) s (setReg s.hub .regCfg r (v % 2 ^ 2 + bitsOf v 31 4 * 16))) ∧
      (regCfgOk v = false → Does (.regCfgWrite r false v) s (raise s.hub E.regCfgRefused r)))

/-- The owner map built from slot counts that add up to 64 has 64 slots and gives every class exactly its count, for the counts of
each preset; the map of the first preset is good (R378). -/
def Obligations.OwnerMaps : Prop :=
  ∀ n, n < 4 → (ownerMap (presetSlots n)).length = 64 ∧
    (∀ c, c < 5 → (ownerMap (presetSlots n)).count c = (presetSlots n).getD c 0) ∧ mapOk (ownerMap (presetSlots n)) = true ∧
    mapOwners ((List.range 4).map fun i => mapWord (ownerMap (presetSlots n)) i) = ownerMap (presetSlots n)

/-- CTX_FUNC_WRITE assigns a FREE or IDLE context to the PF; CTX_PASID_WRITE writes in IDLE; CTX_CREATE makes an IDLE context ACTIVE,
and is held while the control half restarts; CTX_SUSPEND, CTX_RESUME, CTX_KILL (cause 6) and CTX_TEARDOWN move a context of the
states that take them; TEARDOWN_STEP_DONE goes on with its steps; VECTOR_REG_WRITE stores a vector of its function's table;
FAULT_HEAD_WRITE moves HEAD within the records written. -/
def Obligations.ContextCommands : Prop :=
  (∀ (s : State) (c v : Nat), s.hub.rides = true → c < 8192 →
    (ctxState s.hub c = 0 → v % 128 = 64 → flag s.hub F.ctxFuncAssigned c = false →
      Does (.ctxFuncWrite c v) s (setFld (setReg s.hub .ctxFunc c 64) F.ctxStatusState c 1)) ∧
    (ctxState s.hub c = 1 → Does (.ctxPasidWrite c v) s (setReg s.hub .ctxPasid c (v % 2 ^ 20))) ∧
    (s.hub.ctlDown = false → createResult (setFld s.hub F.ctxCtlCreate c 0) c = 0 → Does (.ctxCreate c) s
      (let h := setFld s.hub F.ctxCtlCreate c 0
       let h := setFld (setReg (setReg h .ctxFaultVa c 0) .ctxFaultInfo c 0) F.ctxStatusKillCause c 0
       setFld (setFld (emptyWindow (setReg h .syncCtxStat c 0) c) F.ctxStatusState c 2) F.ctxCtlResult c 0)) ∧
    (ctxState s.hub c = 2 → Does (.ctxSuspend c) s (suspendCtx (setFld s.hub F.ctxCtlResult c 0) c)) ∧
    (ctxState s.hub c = 3 ∨ ctxState s.hub c = 4 → Does (.ctxResume c) s (resumeCtx (setFld s.hub F.ctxCtlResult c 0) c)) ∧
    (ctxLive s.hub c = true → Does (.ctxKill c) s (killCtx (setFld s.hub F.ctxCtlResult c 0) c 6)) ∧
    (s.hub.ctlDown = false → ctxState s.hub c = 2 ∨ ctxState s.hub c = 4 ∨ ctxState s.hub c = 5 →
      Does (.ctxTeardown c) s (tearStart (setFld s.hub F.ctxCtlResult c 0) c)) ∧
    (s.hub.ctlDown = true → s.hub.held.contains (.ctxTeardown c) = false →
      Does (.ctxTeardown c) s { s.hub with held := s.hub.held ++ [.ctxTeardown c] }) ∧
    (v % 2 ^ 11 < vectors (ctxFunc s.hub c) → Does (.vectorRegWrite 0 c v) s (setReg s.hub .ctxCfg c (v % 2 ^ 12)))) ∧
  (∀ (s : State) (c : Nat), s.hub.runs = true → c < 8192 → Does (.teardownStepDone c) s (tearRun 8 s.hub c)) ∧
  (∀ (s : State) (v : Nat), ctlUp s.hub = true →
    (∀ u, Does (.vectorRegWrite 2 u v) s (setReg s.hub .faultCfg 0 (v % 2 ^ 12)) ∧
      Does (.vectorRegWrite 3 u v) s (setReg s.hub .mbxCfg 0 (v % 2 ^ 12))) ∧
    ((v % 2 ^ 32 + 2 ^ 32 - fld s.hub F.faultHeadHead) % 2 ^ 32 ≤ (fld s.hub F.faultTailTail + 2 ^ 32 - fld s.hub F.faultHeadHead) % 2 ^ 32 →
      Does (.faultHeadWrite v) s (setFld s.hub F.faultHeadHead 0 (v % 2 ^ 32)))) ∧
  ∀ (s : State) (u v : Nat), s.hub.rides = true →
    v % 2 ^ 11 < vectors (ctxFunc s.hub (fld s.hub F.podChCfgCtx (fld s.hub F.podChSelCh))) →
    Does (.vectorRegWrite 1 u v) s (setReg s.hub .podChVec (fld s.hub F.podChSelCh) (v % 2 ^ 11))

/-- On a quiet hub in Ride with the control half up, CTX_CREATE of a context: not IDLE gives RESULT 1; IDLE with ATS or PASID
disabled, a function-level reset or another state than D0 gives 2; IDLE and ready with its PASID held by another context of its
function that is neither IDLE nor FREE gives 3; each of these sets CFG_REFUSED, leaves the state and changes nothing but CTX.CTL,
CTX.EVT and the event's counter. Otherwise the context is ACTIVE with RESULT 0, its fault registers, kill cause and audit result
are cleared, every route entry of its window is empty, and every other context's registers, the other route entries, memory,
queues and tables are as before. -/
def Obligations.CreateResults : Prop :=
  ∀ (s : State) (c : Nat), s.hub.quiet = true → s.hub.rides = true → s.hub.ctlDown = false → c < 8192 →
    let f := ctxFunc s.hub c
    let ready := (func s.hub f).atsEn && (func s.hub 0).pasidEn && !(func s.hub f).flr && (func s.hub f).pm == 0
    let taken := ∃ d ∈ usedCtx s.hub, d ≠ c ∧ 2 ≤ ctxState s.hub d ∧ ctxFunc s.hub d = f ∧ fld s.hub F.ctxPasidPasid d = fld s.hub F.ctxPasidPasid c
    let base := fld s.hub F.ctxRouteWinBase c
    let refusedWith (r : Nat) := ∃ t, DoesOnly (.ctxCreate c) s t ∧ fld t F.ctxCtlResult c = r ∧ ctxState t c = ctxState s.hub c ∧
      flag t F.ctxEvtCfgRefused c = true ∧
      (∀ (q : Reg) (i : Nat), q ≠ .ctxCtl → q ≠ .ctxEvt → q ≠ .ctxEvtCnt → getReg t q i = getReg s.hub q i) ∧
      t.hbm = s.hub.hbm ∧ t.queues = s.hub.queues ∧ t.sems = s.hub.sems ∧ t.atc = s.hub.atc
    (ctxState s.hub c ≠ 1 → refusedWith 1) ∧
    (ctxState s.hub c = 1 → ready = false → refusedWith 2) ∧
    (ctxState s.hub c = 1 → ready = true → taken → refusedWith 3) ∧
    (ctxState s.hub c = 1 → ready = true → ¬ taken →
      ∃ t, DoesOnly (.ctxCreate c) s t ∧ ctxState t c = 2 ∧ fld t F.ctxCtlResult c = 0 ∧ getReg t .ctxFaultVa c = 0 ∧
        getReg t .ctxFaultInfo c = 0 ∧ fld t F.ctxStatusKillCause c = 0 ∧
        (∀ (q : Reg) (i : Nat), i ≠ c → getReg t q i = getReg s.hub q i) ∧
        (∀ i, tget t.routes i = if base ≤ i ∧ i < base + fld s.hub F.ctxRouteWinCount c then none else tget s.hub.routes i) ∧
        t.hbm = s.hub.hbm ∧ t.queues = s.hub.queues ∧ t.sems = s.hub.sems ∧ t.atc = s.hub.atc)

/-- On a quiet hub in Ride with the control half up: SUSPEND or RESUME in FREE, IDLE, KILLED or TEARING, and KILL and TEARDOWN in FREE
or IDLE, are refused with RESULT 1 and CFG_REFUSED and change no state of the context; SUSPEND while SUSPENDED, RESUME while
ACTIVE, and KILL in KILLED or TEARING have no effect (RESULT 0). Nothing but CTX.CTL, CTX.EVT and the event's counter changes. -/
def Obligations.RefusedContextActions : Prop :=
  ∀ (s : State) (c : Nat), s.hub.quiet = true → s.hub.rides = true → s.hub.ctlDown = false → c < 8192 →
    let no (i : Instr) := DoesOnly i s (raise (setFld s.hub F.ctxCtlResult c 1) E.ctxCfgRefused c)
    let nop (i : Instr) := DoesOnly i s (setFld s.hub F.ctxCtlResult c 0)
    (ctxState s.hub c ∈ [0, 1, 5, 6] → no (.ctxSuspend c) ∧ no (.ctxResume c)) ∧
    (ctxState s.hub c ∈ [0, 1] → no (.ctxKill c)) ∧
    (ctxState s.hub c ∈ [0, 1] → no (.ctxTeardown c)) ∧
    (ctxState s.hub c = 4 → nop (.ctxSuspend c)) ∧ (ctxState s.hub c = 2 → nop (.ctxResume c)) ∧
    (ctxState s.hub c ∈ [5, 6] → nop (.ctxKill c))

/-- TRANSLATION_COMPLETION of an outstanding request is taken: a stale one is requested again; an error, no right or a missing right
is a fault of kind 4, 1 or 2; else, where its context is not killed, the translation is cached and whoever asked goes on.
ATS_COMPLETION_TIMEOUT asks once more, then is a fault of kind 4. ATS_INVALIDATION drops what overlaps and is completed by
ATS_INVAL_COMPLETE once nothing that left with a dropped translation is under way; during a data-half reset at once. -/
def Obligations.TranslationCommands : Prop :=
  (∀ (s : State) (c va who st size addr : Nat) (wr r w u : Bool) (t : TransReq), s.hub.runs = true → c < 8192 → 12 ≤ size → size < 64 →
    trFind s.hub c va who wr = some t → t.stale = false →
    let h := { s.hub with trReqs := s.hub.trReqs.erase t }
    (st ≠ 0 → Does (.translationCompletion c va who wr st size r w u addr) s (trFailed h t 4 false)) ∧
    (st = 0 → r = false → w = false → Does (.translationCompletion c va who wr st size r w u addr) s (trFailed h t 1 false)) ∧
    (st = 0 → t.write = false → w = true → r = false →
      Does (.translationCompletion c va who wr st size r w u addr) s (trFailed h t 2 (!inBar4 h addr))) ∧
    (st = 0 → r = true → w = true → wasKilled h t.ctx = false → ∀ e, resolve h t.ctx t.va size r w u addr = .inl e → (t.write || e.host) = true →
      Does (.translationCompletion c va who wr st size r w u addr) s (trWake (atcFill h e) t)) ∧
    (st = 0 → r = true → w = true → ∀ k, resolve h t.ctx t.va size r w u addr = .inr k →
      Does (.translationCompletion c va who wr st size r w u addr) s (trFailed h t k false))) ∧
  (∀ (s : State) (c va who : Nat) (wr : Bool) (t : TransReq), s.hub.runs = true → c < 8192 → trFind s.hub c va who wr = some t →
    (func s.hub (ctxFunc s.hub t.ctx)).ctoDisable = false → t.retried = true →
    Does (.atsCompletionTimeout c va who wr) s (trFailed { s.hub with trReqs := s.hub.trReqs.erase t } t 4 false)) ∧
  (∀ (s : State) (tag fn pasid b n : Nat) (all : Bool), tag < 32 → fn < 64 → s.hub.dead = 0 →
    (s.hub.dataReset = true → Does (.atsInvalidation tag fn pasid all b n) s (emit s.hub .invalComplete fn [tag])) ∧
    (s.hub.dataReset = false → Does (.atsInvalidation tag fn pasid all b n) s (atsInval s.hub tag fn pasid all b n))) ∧
  ∀ (s : State) (tag fn : Nat) (v : Inval), s.hub.runs = true → tag < 32 → fn < 64 →
    (s.hub.invals.find? fun v => v.itag == tag && v.func == fn) = some v → v.busy = [] →
    Does (.atsInvalComplete tag fn) s (emit { s.hub with invals := s.hub.invals.erase v } .invalComplete fn [tag])

/-- After atsInval of a range for a function and PASID (or all PASIDs), an ATC entry is kept exactly where it was there before and is
not an entry of a live context of that function and PASID whose page overlaps the range; no entry is added; HBM, semaphores and
other contexts' registers are untouched. -/
def Obligations.InvalidationDrops : Prop :=
  ∀ (h : Hub) (tag f pasid b n : Nat) (all : Bool) (e : AtcEntry),
    (e ∈ (atsInval h tag f pasid all b n).atc ↔ e ∈ h.atc ∧
      ¬ (ctxFunc h e.ctx = f ∧ 2 ≤ ctxState h e.ctx ∧ (all = true ∨ fld h F.ctxPasidPasid e.ctx = pasid) ∧
        e.va < b + n ∧ b < e.va + 2 ^ e.size)) ∧
    (atsInval h tag f pasid all b n).hbm = h.hbm ∧ (atsInval h tag f pasid all b n).sems = h.sems

/-- A fault record written to a ring that is not full goes to entry TAIL mod 4,096 with the next sequence number, and TAIL goes up by
one; on a full ring (TAIL 4,096 ahead of HEAD) it is lost, FAULT_LOST is raised and no entry changes. A FAULT_HEAD_WRITE behind
the previous HEAD or ahead of TAIL changes nothing on a quiet hub. -/
def Obligations.FaultRing : Prop :=
  (∀ (h : Hub) (body : List Byte),
    let full := (fld h F.faultTailTail + 2 ^ 32 - fld h F.faultHeadHead) % 2 ^ 32 = 4096
    (¬ full → (tget (ringWrite h body).faultRing (fld h F.faultTailTail % 4096)).isSome = true ∧
      fld (ringWrite h body) F.faultTailTail = (fld h F.faultTailTail + 1) % 2 ^ 32 ∧
      (∀ k, k ≠ fld h F.faultTailTail % 4096 → tget (ringWrite h body).faultRing k = tget h.faultRing k)) ∧
    (full → (ringWrite h body).faultRing = h.faultRing) ∧
    (ringWrite h body).faultSeq = (h.faultSeq + 1) % 2 ^ 32) ∧
  ∀ (s : State) (v : Nat), s.hub.quiet = true → ctlUp s.hub = true →
    (fld s.hub F.faultTailTail + 2 ^ 32 - fld s.hub F.faultHeadHead) % 2 ^ 32 < (v % 2 ^ 32 + 2 ^ 32 - fld s.hub F.faultHeadHead) % 2 ^ 32 →
    DoesOnly (.faultHeadWrite v) s s.hub

/-- CMD_NOP, CMD_ROUTE, RANGE_FLUSH, RANGE_CLEAN and RANGE_INVAL read the next 64 bytes of an ACTIVE queue of an ACTIVE context where
they are such a command: the command joins the queue's commands at step 2 and the next count goes up by one; a NOP in its turn is
checked at once. CMD_DESCRIPTOR_READ decodes the queue's next command; CMD_FENCE_RELEASE runs the queue; CMD_ACQ_INVAL_DONE,
CMD_TRANSLATION_DONE, CMD_FLUSH_DONE, CPL_RECORD_ACK and WAIT_TABLE_RETRY carry on the command that stands at that step. -/
def Obligations.CommandReads : Prop :=
  (∀ (s : State) (c q : Nat) (bs : List Byte) (k : Hub), s.hub.runs = true → c < 8192 → q < 64 → issuing s.hub c = true →
    qState s.hub c q = 1 → (qrec s.hub c q).nextRd ≠ (qrec s.hub c q).sqTail →
    vaRead s.hub c (getReg s.hub .ctxQsqBase (qkey c q) + (qrec s.hub c q).nextRd % 2 ^ fld s.hub F.ctxQcfgSqLog2 (qkey c q) * 64) 64
      (dspWho s.hub c q) = (some (bs, []), k) →
    let x : Cmd := { ctx := c, slot := q, count := (qrec s.hub c q).nextRd, raw := bs, step := 2 }
    let h := setQrec k c q { qrec k c q with nextRd := ((qrec s.hub c q).nextRd + 1) % 2 ^ 32 }
    let t := { h with cmds := h.cmds ++ [x] }
    (numAt bs 0 1 = 0 → myTurn t x = true → Does (.cmdNop c q) s (decodeCmd t x)) ∧
    (numAt bs 0 1 ≠ 0 → isRange 1 bs = false → isRange 2 bs = false → isRange 3 bs = false → Does (.cmdRoute c q) s t) ∧
    (isRange 1 bs = true → Does (.rangeFlush c q) s t) ∧
    (isRange 2 bs = true → Does (.rangeClean c q) s t) ∧
    (isRange 3 bs = true → Does (.rangeInval c q) s t)) ∧
  (∀ (s : State) (c q : Nat) (x : Cmd), s.hub.runs = true → c < 8192 → q < 64 →
    (issuing s.hub c = true → qState s.hub c q = 1 → ((cmdsOf s.hub c q).find? fun x => x.step == 2) = some x → myTurn s.hub x = true →
      Does (.cmdDescriptorRead c q) s (decodeCmd s.hub x)) ∧
    Does (.cmdFenceRelease c q) s (runQueue s.hub c q) ∧
    (((cmdsOf s.hub c q).find? fun x => x.step == 5 && x.rangeOp.isSome) = some x →
      (findOp (houseRange s.hub (x.rangeOp.getD 0) x.inputs) (x.rangeOp.getD 0)).any (fun o => !o.waitFor.isEmpty) = false →
      Does (.cmdAcqInvalDone c q) s
        (let h := houseRange s.hub (x.rangeOp.getD 0) x.inputs
         askPages (putCmd { h with ops := dropIf h.ops fun o => o.opid == x.rangeOp.getD 0 } { x with step := 6, rangeOp := none })
           { x with step := 6, rangeOp := none })) ∧
    (issuing s.hub c = true → Does (.cmdTranslationDone c q) s (translated s.hub c q)) ∧
    (((cmdsOf s.hub c q).find? fun x => x.issued != 0 && (x.step == 8 || x.step == 9)) = some x → x.rangeOp = none →
      Does (.cmdFlushDone c q) s (opsDone s.hub x)) ∧
    (∀ n, findCmd s.hub c q n = some x → (x.recAck = 1 → Does (.cplRecordAck c q n) s (postCmd s.hub x)) ∧
      (x.recAck = 2 → Does (.cplRecordAck c q n) s (dropCmd s.hub x))) ∧
    (issuing s.hub c = true → ((cmdsOf s.hub c q).find? fun x => x.step == 4 && x.tried && !x.waiting) = some x →
      Does (.waitTableRetry c q) s (semWait s.hub (.cmd q x.count) c x.waitSem (toSigned 64 (numAt x.raw 40 8)) none)))

/-- TILE_OP_ISSUE issues the next operation of the command whose turn it is, or starts its range operation; TOP_ROW delivers the next
flit of a live operation of a house station; TOP_OUT of a house station sends its next output flit and of a guest takes it;
TOP_CREDIT returns a guest station's credits; TOP_DONE of a house station ends an operation that has computed and sent everything,
of a guest the operation it names. -/
def Obligations.OperationCommands : Prop :=
  (∀ (s : State) (c q : Nat) (x : Cmd), s.hub.runs = true → c < 8192 → q < 64 →
    ((cmdsOf s.hub c q).find? fun x => x.step == 7 && (decide (x.issued < x.total) || (x.opcode == 2 && x.rangeOp.isNone))) = some x →
    issuing s.hub c = true → qState s.hub c q = 1 → myTurn s.hub x = true → cqRoom s.hub c q = true →
    queueOps s.hub c q < odNum s.hub OD.dspQueueOps →
    (x.opcode ≠ 2 → Does (.tileOpIssue c q) s (issueOp s.hub x)) ∧
    (x.opcode = 2 → ∀ id h, startRange s.hub x x.rangeKind x.inputs x.stations = some (id, h) →
      Does (.tileOpIssue c q) s (houseRange (putCmd h { x with rangeOp := some id, issued := 1, total := 1 }) id x.inputs))) ∧
  (∀ (s : State) (id a b : Nat) (hurt : List Nat), s.hub.runs = true →
    Does (.topRow id a b hurt) s (pushRow (flitErrors s.hub id a b) id hurt)) ∧
  (∀ (s : State) (site id row fl sm form : Nat) (sc : Bool) (bs : List Byte) (bad : List Nat), s.hub.runs = true →
    Does (.topOut true site id row fl sm sc bs bad form) s (drainHeld (houseOut s.hub id) id) ∧
    (isLink site = true → formOk form = true →
      Does (.topOut false site id row fl sm sc bs bad form) s (guestOut s.hub site id row fl sm sc bs bad form))) ∧
  (∀ (s : State) (site stn n form : Nat), s.hub.runs = true → isLink site = true → stn < 64 → formOk form = true →
    Does (.topCredit site stn n form) s (guestCredit s.hub site stn n form)) ∧
  ∀ (s : State) (site stn id st form : Nat), s.hub.runs = true →
    (∀ o, findOp s.hub id = some o → o.range = 0 → o.computed = true → o.doneSt = none → (outFlits o).length ≤ o.outPos →
      Does (.topDone true site stn id st form) s (opDone s.hub o (if o.bad = 0 then 0 else 1) o.badDetail)) ∧
    (isLink site = true → stn < 64 → st < 3 → formOk form = true →
      Does (.topDone false site stn id st form) s (guestDone s.hub site stn id st form))

/-- QUEUE_CFG_WRITE of a FREE slot stores the selected register; QUEUE_CREATE with good settings takes a free queue number and makes
the queue ACTIVE; QUEUE_DESTROY drains a queue that is ACTIVE or HALTED; QUEUE_DRAINED frees one that is done; QUEUE_RESUME issues
again from RESUME_AT; ROUTE_WIN_WRITE sets the window; ROUTE_WRITE stores a route entry or gives the result of its first failing
check; ROUTE_READ shows the entry; DOORBELL_WRITE of a context that is not killed, through a page of its own function, records the
counts it covers. -/
def Obligations.QueueCommands : Prop :=
  (∀ (s : State) (c : Nat), s.hub.rides = true → c < 8192 →
    let q := qsel s.hub c
    (∀ v, qState s.hub c q = 0 →
      Does (.queueCfgWrite c 0 v) s (setReg s.hub .ctxQsqBase (qkey c q) (v &&& Reg.ctxQsqBase.info.rw)) ∧
      Does (.queueCfgWrite c 1 v) s (setReg s.hub .ctxQcqBase (qkey c q) (v &&& Reg.ctxQcqBase.info.rw)) ∧
      Does (.queueCfgWrite c 2 v) s (setReg s.hub .ctxQcfg (qkey c q) (v &&& Reg.ctxQcfg.info.rw))) ∧
    (∀ n h, qState s.hub c q = 0 → 4 ≤ fld s.hub F.ctxQcfgSqLog2 (qkey c q) → fld s.hub F.ctxQcfgSqLog2 (qkey c q) ≤ 16 →
      4 ≤ fld s.hub F.ctxQcfgCqLog2 (qkey c q) → fld s.hub F.ctxQcfgCqLog2 (qkey c q) ≤ 16 →
      fld s.hub F.ctxQcfgVector (qkey c q) < vectors (ctxFunc s.hub c) → getReg s.hub .ctxQsqBase (qkey c q) % 4096 = 0 →
      getReg s.hub .ctxQcqBase (qkey c q) % 4096 = 0 → ctxLive s.hub c = true → pickQueue s.hub = some (n, h) →
      Does (.queueCreate c) s
        (let k := { h with queues := tset h.queues (qkey c q) {}, qnums := n :: h.qnums }
         countQnums (setFld (setFld (setReg (setReg k .ctxQstat (qkey c q) 0) .ctxQpos (qkey c q) 0)
           F.ctxQstatState (qkey c q) 1) F.ctxQstatQnum (qkey c q) n))) ∧
    (qState s.hub c q ≠ 0 → Does (.queueDestroy c) s (destroyQueue s.hub c q)) ∧
    (qState s.hub c q = 2 → ctxLive s.hub c = true →
      (fld s.hub F.ctxQposResumeAt (qkey c q) + 2 ^ 32 - qHead s.hub c q) % 2 ^ 32 ≤
        ((qrec s.hub c q).sqTail + 2 ^ 32 - qHead s.hub c q) % 2 ^ 32 →
      Does (.queueResume c) s (queueResume s.hub c)) ∧
    (∀ b n, b + n ≤ 65536 → n < 131072 → b < 65536 →
      Does (.routeWinWrite c b n) s (setFld (setFld s.hub F.ctxRouteWinBase c b) F.ctxRouteWinCount c n)) ∧
    (fld s.hub F.ctxRouteSelIndex c < fld s.hub F.ctxRouteWinCount c → routeResult s.hub c (slotImages s.hub c) = 0 →
      Does (.routeWrite c) s
        (let h := setFld s.hub F.ctxRouteCtlResult c 0
         { h with routes := tset h.routes (fld h F.ctxRouteWinBase c + fld s.hub F.ctxRouteSelIndex c) (slotImages s.hub c) })) ∧
    (∀ sl, routeEntry s.hub c (fld s.hub F.ctxRouteSelIndex c) = some sl →
      Does (.routeRead c) s
        (setFld (each (List.range 8) s.hub fun h i => setReg h .ctxRouteSlot0 (c * 8 + i) (sl.getD i 0)) F.ctxRouteCtlResult c 0))) ∧
  (∀ (s : State) (c q : Nat), s.hub.runs = true → c < 8192 → q < 64 → qState s.hub c q = 3 → drainedQueue s.hub c q = true →
    Does (.queueDrained c q) s (freeQueue s.hub c q)) ∧
  ∀ (s : State) (fn page q c sq cq : Nat), fn < 64 → page < 8192 → q < 64 → memOpen s.hub fn = true → s.hub.rides = true →
    pageCtx s.hub fn page = some c → qState s.hub c q = 1 ∨ qState s.hub c q = 2 → wasKilled s.hub c = false → (fn = 0 → ctxFunc s.hub c = 0) →
    Does (.doorbellWrite fn page q (some sq) none) s (sqTail s.hub c q (sq % 2 ^ 32)) ∧
    Does (.doorbellWrite fn page q none (some cq)) s (cqHead s.hub c q (cq % 2 ^ 32)) ∧
    Does (.doorbellWrite fn page q (some sq) (some cq)) s (cqHead (sqTail s.hub c q (sq % 2 ^ 32)) c q (cq % 2 ^ 32))

/-- On a quiet hub in Ride, DOORBELL_WRITE of SQ_TAIL to an ACTIVE queue: a value that does not move it, none at all; a step of 2^31
or more is stale and only raises DB_STALE; any other step within the ring sets SQ_TAIL and changes nothing else. A doorbell of a
FREE or DRAINING slot, of a killed context (R359), or of the physical function's page of a context assigned to a VF (R419) is
dropped with DB_DROPPED and changes no queue. -/
def Obligations.DoorbellCounts : Prop :=
  ∀ (s : State) (fn page q c v : Nat), s.hub.quiet = true → fn < 64 → page < 8192 → q < 64 → memOpen s.hub fn = true →
    s.hub.rides = true → pageCtx s.hub fn page = some c →
    let r := qrec s.hub c q
    let d := (v % 2 ^ 32 + 2 ^ 32 - r.sqTail) % 2 ^ 32
    let shut := wasKilled s.hub c = true ∨ (fn = 0 ∧ ctxFunc s.hub c ≠ 0)
    (¬ shut → qState s.hub c q = 1 → d = 0 → DoesOnly (.doorbellWrite fn page q (some v) none) s s.hub) ∧
    (¬ shut → qState s.hub c q = 1 → 2 ^ 31 ≤ d → DoesOnly (.doorbellWrite fn page q (some v) none) s
      (setFld (raise s.hub E.ctxSevtDbStale c) F.ctxSevtCnt2LastSlot c q)) ∧
    (¬ shut → qState s.hub c q = 1 → 0 < d → d < 2 ^ 31 →
      (v % 2 ^ 32 + 2 ^ 32 - qHead s.hub c q) % 2 ^ 32 ≤ 2 ^ fld s.hub F.ctxQcfgSqLog2 (qkey c q) →
      DoesOnly (.doorbellWrite fn page q (some v) none) s (setQrec s.hub c q { r with sqTail := v % 2 ^ 32 })) ∧
    (qState s.hub c q = 0 ∨ qState s.hub c q = 3 ∨ shut → DoesOnly (.doorbellWrite fn page q (some v) none) s
      (setFld (raise s.hub E.ctxSevtDbDropped c) F.ctxSevtCnt2LastSlot c q))

/-- On a quiet hub in Ride: QUEUE_CFG_WRITE of a slot that is not FREE changes nothing but CFG_REFUSED's event and LAST_SLOT;
QUEUE_CREATE with SQ_LOG2 or CQ_LOG2 outside 4 to 16, a base that is not 4 KiB aligned, a vector outside the function's table, a
slot that is not FREE or a context that is not ACTIVE, SUSPENDING or SUSPENDED is refused in the same way and creates no queue;
ROUTE_WIN_WRITE past the end of the table is dropped whole; ROUTE_WRITE outside the window gives RESULT 1 and stores nothing. -/
def Obligations.QueueRefusals : Prop :=
  ∀ (s : State) (c : Nat), s.hub.quiet = true → s.hub.rides = true → c < 8192 →
    let q := qsel s.hub c
    let no (i : Instr) := DoesOnly i s (setFld (raise s.hub E.ctxSevtCfgRefused c) F.ctxSevtCnt2LastSlot c q)
    (∀ w v, w < 3 → qState s.hub c q ≠ 0 → no (.queueCfgWrite c w v)) ∧
    (qState s.hub c q ≠ 0 ∨ fld s.hub F.ctxQcfgSqLog2 (qkey c q) < 4 ∨ 16 < fld s.hub F.ctxQcfgSqLog2 (qkey c q) ∨
      fld s.hub F.ctxQcfgCqLog2 (qkey c q) < 4 ∨ 16 < fld s.hub F.ctxQcfgCqLog2 (qkey c q) ∨
      vectors (ctxFunc s.hub c) ≤ fld s.hub F.ctxQcfgVector (qkey c q) ∨ getReg s.hub .ctxQsqBase (qkey c q) % 4096 ≠ 0 ∨
      getReg s.hub .ctxQcqBase (qkey c q) % 4096 ≠ 0 ∨ ctxLive s.hub c = false → no (.queueCreate c)) ∧
    (∀ b n, b < 65536 → n < 131072 → 65536 < b + n → DoesOnly (.routeWinWrite c b n) s s.hub) ∧
    (fld s.hub F.ctxRouteWinCount c ≤ fld s.hub F.ctxRouteSelIndex c →
      ∃ t, DoesOnly (.routeWrite c) s t ∧ fld t F.ctxRouteCtlResult c = 1 ∧ t.routes = s.hub.routes)

/-- On a quiet hub in Ride, after a ROUTE_WRITE with RESULT 0 the entry the window and the index name holds exactly the eight slot
images, every other entry is as before, and a ROUTE_READ of it shows the same images. -/
def Obligations.RouteReadsBack : Prop :=
  ∀ (s : State) (c : Nat), s.hub.quiet = true → s.hub.rides = true → c < 8192 →
    fld s.hub F.ctxRouteSelIndex c < fld s.hub F.ctxRouteWinCount c → routeResult s.hub c (slotImages s.hub c) = 0 →
    ∃ t, DoesOnly (.routeWrite c) s t ∧
      tget t.routes (fld s.hub F.ctxRouteWinBase c + fld s.hub F.ctxRouteSelIndex c) = some (slotImages s.hub c) ∧
      (∀ i, i ≠ fld s.hub F.ctxRouteWinBase c + fld s.hub F.ctxRouteSelIndex c → tget t.routes i = tget s.hub.routes i) ∧
      routeEntry t c (fld s.hub F.ctxRouteSelIndex c) = some (slotImages s.hub c) ∧ slotImages t c = slotImages s.hub c ∧
      t.hbm = s.hub.hbm ∧ t.queues = s.hub.queues

/-- Where an operation stands ready, with all its inputs in the station's store, CRANK_MATMUL, each VEC row whose code the function
names and each DRL row whose code the function names complete: the output rows are those the operation's arithmetic gives, the
events of overflow, saturation, narrowed shapes, clipping and index range are counted, and the work counters go up. -/
def Obligations.StationsCompute : Prop :=
  ∀ (s : State) (id n : Nat) (o : TileOp) (x : Cmd), s.hub.runs = true → findOp s.hub id = some o → opCmd s.hub o = some x →
    let c := opCompute s.hub x o
    let k := computedOp s.hub o c
    let vec (op : Nat) (i : Instr) := houseEnd o.station = some (2, n) → runsAt s.hub 2 x o = true → vecOp o.func = op →
      Does i s (addFree (addFld (raiseN k E.vecFpOvf n c.ovf) F.vecRowsRows n c.num) F.vecBusyCycBusy n)
    let drl (op : Nat) (i : Instr) := houseEnd o.station = some (3, n) → runsAt s.hub 3 x o = true → drlOp o.func = op →
      Does i s (addFld (raiseN (raiseN (raiseN k E.drlSatClip n c.ovf) E.drlNonfinite n c.sat) E.drlIdxRange n c.note) F.drlBytesBytes n
        (Nat.max (rowsBytes (heldRows x o 0) + rowsBytes (heldRows x o 1)) (rowsBytes c.rows)))
    (houseEnd o.station = some (1, n) → runsAt s.hub 1 x o = true →
      Does (.crankMatmul id) s
        (let h := raiseN (raiseN (raiseN k E.crankFpOvf n c.ovf) E.crankIntSat n c.sat) E.crankShapeDemoted n c.note
         let h := addFld (setFld h F.crankStatusShape n (c.num % 8)) F.crankMacsMacs n (c.num / 8)
         addFree (addFree (addFree h F.crankBusyCycBusy n) F.crankLoadStallLoad n) F.crankInStallIn n)) ∧
    vec 0x01 (.vecAdd id) ∧ vec 0x02 (.vecSub id) ∧ vec 0x03 (.vecMul id) ∧ vec 0x04 (.vecMax id) ∧ vec 0x05 (.vecMin id) ∧
    vec 0x06 (.vecScale id) ∧ vec 0x07 (.vecCopy id) ∧ vec 0x10 (.vecExp id) ∧ vec 0x11 (.vecLog id) ∧ vec 0x12 (.vecRsqrt id) ∧
    vec 0x13 (.vecRecip id) ∧ vec 0x14 (.vecTanh id) ∧ vec 0x15 (.vecSigmoid id) ∧ vec 0x16 (.vecSilu id) ∧ vec 0x17 (.vecSiluMul id) ∧
    vec 0x18 (.vecGeluTanh id) ∧ vec 0x19 (.vecGeluErf id) ∧ vec 0x1A (.vecRelu id) ∧ vec 0x20 (.vecRmsnorm id) ∧
    vec 0x21 (.vecLayernorm id) ∧ vec 0x30 (.vecRowSum id) ∧ vec 0x31 (.vecRowMax id) ∧ vec 0x32 (.vecRowMin id) ∧
    vec 0x33 (.vecRowSumsq id) ∧ vec 0x40 (.vecSoftmax id) ∧ vec 0x41 (.vecSmState id) ∧ vec 0x42 (.vecSmExp id) ∧
    vec 0x43 (.vecSmRescale id) ∧ vec 0x44 (.vecSmFinal id) ∧
    drl 1 (.drlConvert id) ∧ drl 2 (.drlTranspose id) ∧ drl 3 (.drlGather id) ∧ drl 4 (.drlScatter id) ∧ drl 5 (.drlPackKpw id)

/-- Where an operation stands ready at a cassette on a bound pool, the six record operations apply their records in order and
CAS_GATHER_K and CAS_GATHER_V deliver the rows their records name; DEC_PAGE_DECODE delivers the rows of a sound packed page;
RED_ADD, RED_MIN and RED_MAX apply the next contribution of a sector whose line no agent holds. CAS_POOL_BIND of a free pool with
legal geometry starts the walk of its region; CAS_POOL_UNBIND of a bound pool without open slots frees it. -/
def Obligations.CassettesDecodersAdders : Prop :=
  (∀ (s : State) (id cas : Nat) (o : TileOp) (x : Cmd) (p : Pool), s.hub.runs = true → findOp s.hub id = some o → opCmd s.hub o = some x →
    houseEnd o.station = some (4, cas) → runsAt s.hub 4 x o = true → slotHeld s.hub x o = false →
    let k := cas * 32 + bitsOf o.func 8 4
    poolOf s.hub k = some p → fld s.hub F.casPoolStatState k ≠ 2 →
    let rec_ (op : Nat) (i : Instr) := o.func % 16 = op →
      Does i s (computedOp (casRecords cas k op p (heldRows x o 1) (heldRows x o 0) s.hub).2 o
        { rows := (casRecords cas k op p (heldRows x o 1) (heldRows x o 0) s.hub).1 })
    let gather (op : Nat) (v : Bool) (i : Instr) := o.func % 16 = op → (heldRows x o 0).any RowData.poisoned = false →
      let qs := (heldRows x o 0).map fun r => casReq r.bytes
      let n := (stageOut x o.stage).rows
      qs.all (gatherOk s.hub cas p) = true → (qs.map (gatherRows s.hub cas p)).sum = n →
      let got := qs.flatMap (gatherRecord s.hub cas p v)
      Does i s (computedOp (addFld (raiseN s.hub E.casListBad cas (got.countP Option.isNone)) F.casBytesBytes cas (n * p.rowBytes)) o
        { rows := got.map fun r => r.getD { bytes := List.replicate p.rowBytes 0, bad := List.range (p.rowBytes / 32) } })
    rec_ 1 (.casOpen id) ∧ rec_ 2 (.casFork id) ∧ rec_ 3 (.casAppend id) ∧ rec_ 4 (.casAdvance id) ∧ rec_ 5 (.casTrim id) ∧
    rec_ 6 (.casClose id) ∧ gather 7 false (.casGatherK id) ∧ gather 8 true (.casGatherV id)) ∧
  (∀ (s : State) (id input va f e q l : Nat) (o : TileOp) (x : Cmd) (t : Tile) (w : Nat × Nat) (ws : List (Nat × Nat)) (hb bs : List Byte)
      (h1 h2 : Hub) (a : AtcEntry) (k : KpwHdr) (rows : List RowData),
    s.hub.runs = true → input < 2 → findOp s.hub id = some o → opCmd s.hub o = some x → o.dead = false →
    x.source (if input = 0 then slotSrcA (x.route.getD o.stage 0) else slotSrcB (x.route.getD o.stage 0)) = some (t, some (f, e, q, l)) →
    pageRows x o input va = w :: ws → o.buf (4 + input) w.1 false = none →
    vaRead s.hub x.ctx va 64 o.station = (some (hb, []), h1) → kpwHeader hb = some k →
    atcFind { h1 with hostHave := s.hub.hostHave } x.ctx va false = some a →
    vaRead { h1 with hostHave := s.hub.hostHave } x.ctx va k.used o.station = (some (bs, []), h2) →
    kpwDecode (sliceB bs 0 65536) = .inr rows → k.fmt = f → k.elems = e → k.rows = q →
    Does (.decPageDecode id input va false) s
      (pageDone h2 o input e f (portOf { h1 with hostHave := s.hub.hostHave } (a.target va)) k.used (some rows) (w :: ws))) ∧
  (∀ (s : State) (dpa : Nat) (code : Bool) (i : RedItem), s.hub.runs = true → nextRed s.hub (dpa / 32) = some i →
    lineBusy s.hub (dpa / 64) = false → dirFind s.hub (dpa / 64) = none →
    (i.func % 4 = 0 → Does (.redAdd dpa code) s (pumpAll (redApply s.hub i code))) ∧
    (i.func % 4 = 1 → Does (.redMin dpa code) s (pumpAll (redApply s.hub i code))) ∧
    (i.func % 4 = 2 → Does (.redMax dpa code) s (pumpAll (redApply s.hub i code)))) ∧
  ∀ (s : State) (cas : Nat), s.hub.rides = true → cas < 2 →
    let k := cas * 32 + fld s.hub F.casPoolSelPool cas
    let p := poolRegs s.hub k
    (tget s.hub.pools k = none → fld s.hub F.casPoolGeomPageLog k ≤ 4 → 2 ≤ p.fmt → p.fmt ≤ 5 → p.legal = true →
      (∀ e ∈ s.hub.pools, e.1 / 32 = k / 32 → e.2.slot0 + e.2.slots ≤ p.slot0 ∨ p.slot0 + p.slots ≤ e.2.slot0) → ctxState s.hub p.ctx = 2 →
      Does (.casPoolBind cas) s
        (bindWalk (p.size / 4096 + 1) (setFld { s.hub with pools := tset s.hub.pools k p } F.casPoolCtlBind k 1) k p 0)) ∧
    ∀ b, tget s.hub.pools k = some b → b.next = none → openSlots s.hub k b = [] →
      Does (.casPoolUnbind cas) s (setFld (dropPool s.hub k) F.casPoolCtlResult k 0)

/-- A weight-register parity error is counted and a second one poisons its band; a corrected store error is counted, an uncorrectable
one poisons the damaged entry of its operation; an error of control state makes the station LOST, as does a stall timeout of a
station with work; a self-test starts on a LOST station and its end sets BIST and, passed, returns the station to IDLE, failed,
makes it LOST; TC_INVAL_ALL holds the station back and TC_DROP_DONE empties its cache and lets it go on. -/
def Obligations.StationFaults : Prop :=
  (∀ (s : State) (id band n : Nat) (o : TileOp) (x : Cmd), s.hub.runs = true → findOp s.hub id = some o → opCmd s.hub o = some x →
    houseEnd o.station = some (1, n) →
    Does (.crankWregParity id band false) s (raise s.hub E.crankWregParity n) ∧
    (o.computed = false → Does (.crankWregParity id band true) s
      (putOp (raise s.hub E.crankWregParity n) (spoilBand x o band)))) ∧
  (∀ (s : State) (stn id inp row sec : Nat) (sc : Bool), s.hub.runs = true → isStore stn = true → stnState s.hub stn ≠ 0 →
    Does (.crankStoreEcc stn id inp row sec sc false) s (stnEvt s.hub stn E.crankEccCorr E.vecEccCorr E.drlEccCorr E.casEccCorr) ∧
    ∀ o, findOp (stnEvt s.hub stn E.crankEccUncorr E.vecEccUncorr E.drlEccUncorr E.casEccUncorr) id = some o → o.station = stn →
      outBad (spoilBuf o inp row sc sec) = outBad o →
      Does (.crankStoreEcc stn id inp row sec sc true) s
        (putOp (stnEvt s.hub stn E.crankEccUncorr E.vecEccUncorr E.drlEccUncorr E.casEccUncorr) (spoilBuf o inp row sc sec))) ∧
  (∀ (s : State) (n : Nat), s.hub.runs = true →
    (n < 8 → Does (.crankControlUe n) s (later s.hub (.lost n)) ∧ (stalled s.hub n = true → Does (.crankStallTimeout n) s (later s.hub (.lost n)))) ∧
    (isVdr n = true → Does (.vdrControlUe n) s (later s.hub (.lost n)) ∧ (stalled s.hub n = true → Does (.vdrStallTimeout n) s (later s.hub (.lost n)))) ∧
    (n < 2 → Does (.casControlUe n) s (later s.hub (.lost (0x30 + n))) ∧
      (stalled s.hub (0x30 + n) = true → Does (.casStallTimeout n) s (later s.hub (.lost (0x30 + n)))))) ∧
  (∀ (s : State) (n : Nat), s.hub.rides = true →
    (n < 8 → stnState s.hub n = 3 → Does (.crankSelftest n) s (setFld s.hub F.crankCtlSelftest n 1)) ∧
    (n < 8 → stnState s.hub (0x10 + n) = 3 → Does (.vecSelftest n) s (setFld s.hub F.vecCtlSelftest n 1)) ∧
    (n < 4 → stnState s.hub (0x20 + n) = 3 → Does (.drlSelftest n) s (setFld s.hub F.drlCtlSelftest n 1)) ∧
    (n < 2 → stnState s.hub (0x30 + n) = 3 → Does (.casSelftest n) s (setFld s.hub F.casCtlSelftest n 1)) ∧
    (hasTc n = true → s.hub.tcHold.contains n = false →
      Does (.tcInvalAll n) s { setFld s.hub F.tcCtlInvalAll (stnRouter n) 1 with tcHold := n :: s.hub.tcHold })) ∧
  ∀ (s : State) (n : Nat), s.hub.runs = true →
    (n < 8 → flag s.hub F.crankCtlSelftest n = true →
      let t (v : Nat) := setFld (setFld s.hub F.crankCtlSelftest n 0) F.crankStatusBist n v
      Does (.crankSelftestDone n false) s (later (t 2) (.lost n)) ∧
      (stnState (t 1) n = 3 → Does (.crankSelftestDone n true) s (setFld (t 1) F.crankStatusState n 1))) ∧
    (n < 8 → flag s.hub F.vecCtlSelftest n = true →
      let t (v : Nat) := setFld (setFld s.hub F.vecCtlSelftest n 0) F.vecStatusBist n v
      Does (.vdrSelftestDone (0x10 + n) false) s (later (t 2) (.lost (0x10 + n))) ∧
      (stnState (t 1) (0x10 + n) = 3 → Does (.vdrSelftestDone (0x10 + n) true) s (setFld (t 1) F.vecStatusState n 1))) ∧
    (n < 2 → flag s.hub F.casCtlSelftest n = true →
      let t (v : Nat) := setFld (setFld s.hub F.casCtlSelftest n 0) F.casStatusBist n v
      Does (.casSelftestDone n false) s (later (t 2) (.lost (0x30 + n))) ∧
      (stnState (t 1) (0x30 + n) = 3 → Does (.casSelftestDone n true) s (reloadSlots (setFld (t 1) F.casStatusState n 1) n))) ∧
    (hasTc n = true → s.hub.tcHold.contains n = true → (s.hub.ops.any fun o => o.station == n || o.waitFor.contains n) = false →
      Does (.tcDropDone n) s
        (setFld { s.hub with tc := dropIf s.hub.tc fun x => x.stn == n, tcHold := dropIf s.hub.tcHold (· == n) } F.tcCtlInvalAll (stnRouter n) 0))

/-- For INT8 pairs, whatever their number and blocks, INT32 output of a crank is the two's-complement code of the exact integer sum of
the products, replaced by -2^31 or 2^31 - 1 where the sum lies outside; INT_SAT is counted exactly then, and no floating-point
overflow ever. -/
def Obligations.IntegerSums : Prop :=
  ∀ (c : CrankFunc) (al : Option Machine.Num) (bs : List (List (Int × Int))), c.fmt = 13 →
    let a : Line := bs.map fun b => (some 0, b.map fun p => numOfInt p.1 0)
    let b : Line := bs.map fun b => (some 0, b.map fun p => numOfInt p.2 0)
    let v : Int := (bs.map fun b => (b.map fun p => p.1 * p.2).sum).sum
    crankElem c 12 al a b =
      ((BitVec.ofInt 32 (max (-(2 ^ 31)) (min (2 ^ 31 - 1) v))).toNat, 0, if v < -(2 ^ 31) ∨ 2 ^ 31 - 1 < v then 1 else 0)

/-- HBM_TEMP_READ below 115 degrees of a stack that is not holding shows the reading and moves the refresh band, above the hold limit
it begins a hold window, and at 115 degrees it is fatal as HBM_CATTRIP is; HOLD_WINDOW_END opens the reduced period and carries
out a waiting retrain; REDUCED_PERIOD_END holds again or ends the cycle; MEM_SCRUB_NOW starts an extra pass; HBM_TRUING_WINDOW
records a margin and retrains below TRUE_MARGIN; HBM_RETRAIN_DONE and HBM_STEP_DOWN_DONE return the ports to service;
MEM_CTL_RETRAIN starts a retrain; HBM_STEP_DOWN stalls the stack's ports. -/
def Obligations.StackCommands : Prop :=
  (∀ (s : State) (p t : Nat), s.hub.runs = true → p < 64 → s.hub.variant.portOn p = true →
    let n := p / 8
    let h := setFld (setStack s.hub n { stack s.hub n with lastTemp := t }) F.memStatusTemp p t
    (t < 115 → (stack s.hub n).holding = false → t ≤ odNum h OD.thermHoldC →
      Does (.hbmTempRead p t) s (setFld h F.memStatusTherm p (nextBand (fld h F.memStatusTherm p) t))) ∧
    (t < 115 → (stack s.hub n).holding = false → odNum h OD.thermHoldC < t → Does (.hbmTempRead p t) s (holdWindow h n true)) ∧
    (115 ≤ t → t < 256 → Does (.hbmTempRead p t) s (later h (.fatal 5)))) ∧
  (∀ (s : State) (n : Nat), s.hub.runs = true → n < 8 →
    ((stack s.hub n).inWindow = true → Does (.holdWindowEnd n) s
      (nextRetrain (eachLive (setStack s.hub n { stack s.hub n with inWindow := false }) n fun h p =>
        addFld (setFld h F.memStatusTherm p 4) F.memHoldUsHold p (odNum h OD.holdWindowUs)) n)) ∧
    ((stack s.hub n).holding = true → (stack s.hub n).inWindow = false → odNum s.hub OD.thermHoldC < (stack s.hub n).lastTemp →
      Does (.reducedPeriodEnd n) s (holdWindow s.hub n false)) ∧
    ((stack s.hub n).holding = true → (stack s.hub n).inWindow = false → (stack s.hub n).lastTemp ≤ odNum s.hub OD.thermHoldC →
      (stack s.hub n).lastTemp < 102 →
      Does (.reducedPeriodEnd n) s (later (eachLive (setStack s.hub n { stack s.hub n with holding := false }) n fun h p =>
        setFld h F.memStatusTherm p 2) (.podNotice 2 n))) ∧
    ((stack s.hub n).stepPend = true → (stack s.hub n).inWindow = false → stackStalled s.hub n = false →
      Does (.hbmStepDown n) s (eachLive (setStack s.hub n { stack s.hub n with stepPend := false, stepping := true }) n fun h p =>
        if memState h p = 3 then setFld h F.memStatusState p 5 else h)) ∧
    (∀ fs, (stack s.hub n).stepping = true → Does (.hbmStepDownDone n fs) s (stepDownDone s.hub n fs))) ∧
  (∀ (s : State) (n : Nat), s.hub.dead = 0 → n < 8 → s.hub.variant.stackOn n = true → Does (.hbmCattrip n) s (later s.hub (.fatal 5))) ∧
  (∀ (s : State) (p : Nat), s.hub.rides = true → p < 64 → memState s.hub p = 3 →
    ((port s.hub p).scrubLeft = 0 →
      Does (.memScrubNow p) s (setFld (setPort s.hub p { port s.hub p with scrubLeft := s.hub.portCap / 64 }) F.memCtlScrubNow p 1)) ∧
    ((port s.hub p).recent = false → Does (.memCtlRetrain p) s (startRetrain (setFld s.hub F.memCtlRetrain p 1) p))) ∧
  ∀ (s : State) (p : Nat), s.hub.runs = true → p < 64 →
    (∀ pc m rc, pc < 8 → m < 64 → memState s.hub p = 3 → (stack s.hub (p / 8)).inWindow = false →
      let x := port s.hub p
      let ms := (x.margins ++ List.replicate (8 - x.margins.length) 63).set pc m
      let h := setFld (setPort s.hub p { x with margins := ms, recent := rc && x.recent }) F.memStatusMargin p (ms.foldl Nat.min 63)
      (odNum h OD.trueMargin ≤ m → x.wanted = false → Does (.hbmTruingWindow p pc m rc) s h) ∧
      (m < odNum h OD.trueMargin → (rc && x.recent) = false → Does (.hbmTruingWindow p pc m rc) s (startRetrain h p)) ∧
      (m < odNum h OD.trueMargin → (rc && x.recent) = true → Does (.hbmTruingWindow p pc m rc) s (decideStep h p))) ∧
    ∀ ms, (∀ m ∈ ms, m < 64) → memState s.hub p = 4 → Does (.hbmRetrainDone p ms) s (retrainDone s.hub p ms)

/-- On a quiet hub whose halves are up, REGION_SEAL takes a LOADING region to ACTIVE and any other nowhere; REGION_RELOAD takes an
ACTIVE or FENCED region to LOADING and any other nowhere; REGION_OPEN of an UNUSED entry whose range is whole 2 MiB, not empty,
within the usable capacity and clear of every other region opens it unmirrored over exactly that range, and a range that overlaps
a region in use, is unaligned, empty or too long opens nothing; none of the three touches another region, a register or memory.
REGION_RELEASE of a region that is not bound leaves the entry UNUSED. -/
def Obligations.RegionStates : Prop :=
  ∀ (s : State) (i : Nat), s.hub.quiet = true → dataUp s.hub = true → ctlUp s.hub = true → s.hub.dead = 0 → i < 64 →
    let r := region s.hub i
    let b := odNum s.hub (OD.regionBase i)
    let z := odNum s.hub (OD.regionSize i)
    let clear := ∀ e ∈ s.hub.regions, e.2.state ≠ 0 → b + z ≤ e.2.base ∨ e.2.base + e.2.size ≤ b
    (r.state = 1 → ∃ t, DoesOnly (.regionSeal i) s t ∧ region t i = { r with state := 2, cmd := 2 } ∧
      (∀ j, j ≠ i → region t j = region s.hub j) ∧ t.regs = s.hub.regs ∧ t.hbm = s.hub.hbm) ∧
    (r.state ≠ 1 → DoesOnly (.regionSeal i) s s.hub) ∧
    (r.state = 2 ∨ r.state = 3 → ∃ t, DoesOnly (.regionReload i) s t ∧ region t i = { r with state := 1, cmd := 3 } ∧
      (∀ j, j ≠ i → region t j = region s.hub j) ∧ t.regs = s.hub.regs ∧ t.hbm = s.hub.hbm) ∧
    (r.state ≠ 2 → r.state ≠ 3 → DoesOnly (.regionReload i) s s.hub) ∧
    (r.state = 0 → b % 2 ^ 21 = 0 → z % 2 ^ 21 = 0 → z ≠ 0 → b + z ≤ usable s.hub → clear → odOn s.hub (OD.regionMirror i) = false →
      ∃ t, DoesOnly (.regionOpen i) s t ∧ (region t i).state = 1 ∧ (region t i).base = b ∧ (region t i).size = z ∧ (region t i).slices = [] ∧
        (∀ j, j ≠ i → region t j = region s.hub j) ∧ t.regs = s.hub.regs ∧ t.hbm = s.hub.hbm) ∧
    (r.state ≠ 0 ∨ b % 2 ^ 21 ≠ 0 ∨ z % 2 ^ 21 ≠ 0 ∨ z = 0 ∨ usable s.hub < b + z ∨ ¬ clear → DoesOnly (.regionOpen i) s s.hub) ∧
    (r.bound = false → s.hub.bindQ.contains i = false →
      ∃ t, DoesOnly (.regionRelease i) s t ∧ (region t i).state = 0 ∧ (∀ j, j ≠ i → region t j = region s.hub j) ∧
        t.regs = s.hub.regs ∧ t.hbm = s.hub.hbm)

/-- RD_SHARED, RD_UNIQUE, RD_ONCE, UPGRADE and WR_LINE that are taken and whose page is translated to device memory arrive at the
line's home; EVICT_CLEAN and EVICT_DIRTY are applied on arrival; SNP_INV, SNP_SHARE and SNP_ALL are answered from the agent's
copy; SNOOP_ACK and ACK_DATA count as the agent's answer, COMPLETION_ACK closes its transaction; CMP gives the agent the line and
is acknowledged; NACK_POISON grants nothing; SNOOP_TIMEOUT records the agent and makes it SUSPECT; the sweeps end; COH_DIR_READ
shows a directory entry. -/
def Obligations.CoherenceCommands : Prop :=
  (∀ (s : State) (a txn c v d m : Nat) (k k' : Hub) (e : AtcEntry), s.hub.runs = true → cohOk a txn c v 0 = true → e.host = false →
    let r (op sm : Nat) (bs : List Byte) (bad : Bool) : CohReq :=
      { op := op, agent := a, txn := txn, ctx := c, vline := v, line := 0, smask := sm, data := bs, bad := bad }
    let there (h : Hub) (r : CohReq) (w : Bool) := CohTakes h r k ∧ lookup (cohMet k r d m) c (64 * v) w (agentWho a) = (some e, k')
    let at_ (r : CohReq) : CohReq := { r with line := e.target (64 * v) / 64 }
    (there s.hub (r 1 3 [] false) false → Does (.rdShared a txn c v 0 d m) s (cohArrive k' (at_ (r 1 3 [] false)))) ∧
    (there s.hub (r 2 3 [] false) true → Does (.rdUnique a txn c v 0 d m) s (cohArrive k' (at_ (r 2 3 [] false)))) ∧
    (∀ sm, sm < 4 → there s.hub (r 3 sm [] false) false → Does (.rdOnce a txn c v sm 0 d m) s (cohArrive k' (at_ (r 3 sm [] false)))) ∧
    (there s.hub (r 4 3 [] false) true → Does (.upgrade a txn c v 0 d m) s (cohArrive k' (at_ (r 4 3 [] false)))) ∧
    (∀ sm bs bad, sm < 4 → there s.hub (r 5 sm (sliceB bs 0 64) bad) true →
      Does (.wrLine a txn c v sm bs bad 0 d m) s (cohArrive k' (at_ (r 5 sm (sliceB bs 0 64) bad)))) ∧
    (m = 0 → there (dropCopy s.hub a c v) (r 6 3 [] false) false →
      Does (.evictClean a txn c v 0 d) s (pumpAll (evict k' (at_ (r 6 3 [] false))))) ∧
    (∀ bs bad, m = 0 → there (dropCopy s.hub a c v) (r 7 3 (sliceB bs 0 64) bad) true →
      Does (.evictDirty a txn c v bs bad 0 d) s (pumpAll (evict k' (at_ (r 7 3 (sliceB bs 0 64) bad)))))) ∧
  (∀ (s : State) (a home x : Nat) (t : CohTxn) (wr : Bool) (ev : Nat) (bs : List Byte), s.hub.runs = true → a < 152 → home < 64 →
    snoopOf s.hub home x a = some t →
    let key := a * 2 ^ 33 + t.req.line
    let st : Nat := ((tget s.hub.agentLines key).map (·.st)).getD 0
    let dirty := st = 3 ∨ (st = 2 ∧ wr = true)
    let gone := { s.hub with agentLines := tdel s.hub.agentLines key }
    let inv (i : Instr) := st ≠ 0 → (dirty → Does i s (emit gone .snpAckData a [home, x, 0] bs)) ∧
      (¬ dirty → Does i s (emit gone .snpAck a [0, home, x, 0, 0]))
    (t.share = false → inv (.snpInv a home x wr ev bs) ∧ inv (.snpAll a home x wr ev bs)) ∧
    (t.share = true → ∀ l, tget s.hub.agentLines key = some l → l.st ≠ 0 →
      let kept := { s.hub with agentLines := tset s.hub.agentLines key { l with st := 1 } }
      (dirty → Does (.snpShare a home x wr ev bs) s (emit kept .snpAckData a [home, x, 1] bs)) ∧
      (¬ dirty → Does (.snpShare a home x wr ev bs) s (emit kept .snpAck a [0, home, x, 0, 1])))) ∧
  (∀ (s : State) (a home x : Nat) (t : CohTxn) (k : Hub), s.hub.runs = true → a < 152 → home < 64 →
    (∀ ev held, AnswerTakes s.hub a 3 1 k → snoopOf k home x a = some t →
      Does (.snoopAck a home x ev held 0) s (settleTxn (leftBySnoop k t.req.line a (t.share && held)) { t with
        waits := t.waits.filter (· != a), held := t.held || (t.share && held)
        evicts := if ev && ownedNow k t.req.line a then t.evicts ++ [a] else t.evicts })) ∧
    (∀ bs bad key dir, AnswerTakes s.hub a 5 (datLen 2) k → snoopOf k home x a = some t → dirFind k t.req.line = some (key, dir) →
      dir.st = 2 → dir.listed.contains a = true →
      Does (.ackData a home x bs bad 0) s (settleTxn (writeBack k t.req.line (sliceB bs 0 64) bad) { t with
        waits := t.waits.filter (· != a), held := t.held || t.share })) ∧
    (AnswerTakes s.hub a 3 1 k → ackDue k a home x = some t →
      Does (.completionAck a home x 0) s (pumpAll { k with cohTxns := k.cohTxns.filter fun y => y.stxn != t.stxn })) ∧
    (∀ g, cmpDue s.hub a x = some (t, g) →
      Does (.cmp a x) s (emit { s.hub with agentLines := tset s.hub.agentLines (a * 2 ^ 33 + t.req.line) ⟨g, t.req.ctx, t.req.vline⟩ }
        .snpAck a [1, t.stxn / 1024, x])) ∧
    (∀ why, x < 1024 → 1 ≤ why → why < 5 → Does (.nackPoison a x why) s s.hub) ∧
    (timeoutDue s.hub home x a = some t →
      let h := suspectAgent (timeoutShown s.hub home a t.req.line) a
      (∀ g, agentAnchor h a = some g → Does (.snoopTimeout a home x) s (later h (.isolate g 6))) ∧
      (∀ n, agentAnchor h a = none → agentStation a = some n → Does (.snoopTimeout a home x) s (later h (.lost n))) ∧
      (agentAnchor h a = none → 150 ≤ a → Does (.snoopTimeout a home x) s (later h (.fatal 6))))) ∧
  (∀ (s : State) (a : Nat), s.hub.runs = true → a < 152 → s.hub.sweeps.contains (a + 1, 0, []) = true →
    Does (.agentSweepDone a) s (agentSwept s.hub a)) ∧
  (∀ (s : State) (c : Nat) (ags : List Nat), s.hub.runs = true → c < 8192 → s.hub.sweeps.contains (0, c, ags) = true →
    (sweepLeft s.hub c ags).isEmpty = true → Does (.contextSweepDone c ags) s (contextSwept s.hub c ags)) ∧
  ∀ (s : State) (p : Nat), s.hub.rides = true → p < 64 → debugOpen s.hub = true → s.hub.live.contains p = true →
    let v := match tget s.hub.dir (p * 65536 + fld s.hub F.cohDirSelIndex p) with
      | some e => dirBits s.hub e
      | none => 0
    Does (.cohDirRead p) s (setReg (setReg s.hub .cohDirLo p (v % 2 ^ 64)) .cohDirHi p (v / 2 ^ 64))

/-- On a quiet hub: CMP leaves the agent the line in the state granted and no other copy changed; SNP_INV and SNP_ALL leave it none,
SNP_SHARE of a held line leaves it in S, and no other copy changes; the answer carries the line's data exactly where the agent
held it in M, or in E and had written it. None of them changes the directory, a register or memory. -/
def Obligations.AgentCopies : Prop :=
  ∀ (s : State) (a home x : Nat) (t : CohTxn) (wr : Bool) (ev : Nat) (bs : List Byte), s.hub.quiet = true → s.hub.runs = true →
    a < 152 → home < 64 →
    let key := a * 2 ^ 33 + t.req.line
    let same (k : Hub) := (∀ j, j ≠ key → tget k.agentLines j = tget s.hub.agentLines j) ∧ k.dir = s.hub.dir ∧ k.cohTxns = s.hub.cohTxns ∧
      k.regs = s.hub.regs ∧ k.hbm = s.hub.hbm
    let st : Nat := ((tget s.hub.agentLines key).map (·.st)).getD 0
    let data (k : Hub) := ∃ o, k.out = o :: s.hub.out ∧ o.kind = if st = 3 ∨ (st = 2 ∧ wr = true) then OutKind.snpAckData else OutKind.snpAck
    (∀ g, cmpDue s.hub a x = some (t, g) →
      ∃ k, DoesOnly (.cmp a x) s k ∧ tget k.agentLines key = some ⟨g, t.req.ctx, t.req.vline⟩ ∧ same k) ∧
    (snoopOf s.hub home x a = some t → t.share = false →
      (∃ k, DoesOnly (.snpInv a home x wr ev bs) s k ∧ tget k.agentLines key = none ∧ same k ∧ data k) ∧
      ∃ k, DoesOnly (.snpAll a home x wr ev bs) s k ∧ tget k.agentLines key = none ∧ same k ∧ data k) ∧
    (snoopOf s.hub home x a = some t → t.share = true → ∀ l, tget s.hub.agentLines key = some l →
      ∃ k, DoesOnly (.snpShare a home x wr ev bs) s k ∧ tget k.agentLines key = some { l with st := 1 } ∧ same k ∧ data k)

/-- A guest's SEM_WAIT_GE, SEM_ACQ_RANGE, SEM_ADD and SEM_SUB that are taken reach their slice, a wait with an acquire range once its
second flit is here, an ordered post behind a write being held until ORDERED_POST_RELEASE; SEM_INIT, SEM_FREE, SEM_GRANT,
SEM_REVOKE, BAR_CREATE, BAR_DESTROY, BAR_FORCE, PART_BIND, SYNC_AUDIT and SYNC_CTX_CFG_WRITE take effect where their conditions
hold, with RESULT 0; in an operator debug session SEM_SET, SEM_WAKE_ALL and SEM_CLR_ABANDONED act on an allocated semaphore;
WATCHDOG_FIRE releases its wait or kills the context. -/
def Obligations.SyncCommands : Prop :=
  (∀ (s : State) (site n txn c m v : Nat) (k : Hub), isLink site = true → n < 64 → m < 131072 →
    let a := anchorOf s.hub site
    let p := guest s.hub a
    let stn := stnNum site n
    (∀ thr, Takes s.hub site 0 2 { askSem c with full := decide (fld s.hub F.siteLimitsSemMax a ≤ guestWaits s.hub a) } k →
      Does (.semWaitGe site n txn c m thr true 0) s (setGuest k a { guest k a with part := some ⟨site, stn, txn, c, m, toSigned 64 thr⟩ }) ∧
      Does (.semWaitGe site n txn c m thr false 0) s (semWait k (.guest a txn stn) c m (toSigned 64 thr) none)) ∧
    (∀ b l q, p.part = some q → q.site = site → q.txn = txn → 0 < l → l ≤ 2 ^ 27 →
      Takes (setGuest s.hub a { p with part := none }) site 0 2 { askSem q.ctx with
        vas := (List.range ((b * 32 + l * 32 - 1) / 4096 - b * 32 / 4096 + 1)).map fun i => (b * 32 / 4096 + i) * 4096, rd := true } k →
      Does (.semAcqRange site txn b l 0) s (semWait k (.guest a txn q.stn) q.ctx q.sem q.thr (some (b * 32, l)))) ∧
    (Takes s.hub site 0 2 (askSem c) k →
      (∀ fast, (pendingWrites k a c).isEmpty = true →
        Does (.semAdd site n txn c m v fast 0) s (semPost k (.guest a txn stn) c m (v % 2 ^ 64) false) ∧
        Does (.semSub site n txn c m v fast 0) s (semPost k (.guest a txn stn) c m (v % 2 ^ 64) true)) ∧
      ((pendingWrites k a c).isEmpty = false →
        Does (.semAdd site n txn c m v false 0) s { k with posts := k.posts ++ [⟨a, txn, c, m, v % 2 ^ 64, false, stn, pendingWrites k a c⟩] } ∧
        Does (.semSub site n txn c m v false 0) s { k with posts := k.posts ++ [⟨a, txn, c, m, v % 2 ^ 64, true, stn, pendingWrites k a c⟩] }))) ∧
  (∀ (s : State) (a stn txn : Nat) (p : HeldPost), s.hub.runs = true → isLink a = true →
    (s.hub.posts.find? fun p => p.anchor == a && p.stn == stn && p.txn == txn) = some p →
    (∀ d ∈ p.due, d ∉ pendingWrites s.hub a p.ctx) →
    Does (.orderedPostRelease a stn txn) s (semPost { s.hub with posts := s.hub.posts.erase p } (.guest a txn stn) p.ctx p.sem p.value p.sub)) ∧
  (∀ (s : State), s.hub.rides = true →
    let h := s.hub
    let n := fld h F.syncSemSelSem
    let c := fld h F.syncSemSelCtx
    let g := fld h F.syncSemGrantGrantee
    let v := toSigned 64 (fld h F.syncSemValValue)
    let owned := (sem h n).alloc = true ∧ (sem h n).owner = c
    let i := fld h F.syncBarSelBarrier
    ((sem h n).alloc = false → ctxLive h c = true →
      Does .semInit s (semRes (setSem h n { count := v, owner := c, alloc := true, baseline := v }) 0)) ∧
    (owned → ctxLive h c = true → Does .semInit s
      (releaseMet (semRes (setSem h n { sem h n with count := v, baseline := v, abandoned := false, handSet := false }) 0) n)) ∧
    (owned → semWaiters h n = [] → (sem h n).barrier = false →
      Does .semFree s (semRes { h with sems := tdel h.sems n, grants := dropIf h.grants fun g => g.sem == n } 0)) ∧
    (owned → (flag h F.syncSemGrantWait || flag h F.syncSemGrantPost) = true → ctxLive h g = true →
      ((dropIf h.grants fun x => x.sem == n && x.ctx == g).filter fun x => x.sem % 64 == n % 64).length < 128 →
      Does .semGrant s (semRes { h with
        grants := (dropIf h.grants fun x => x.sem == n && x.ctx == g) ++ [⟨n, g, flag h F.syncSemGrantWait, flag h F.syncSemGrantPost⟩] } 0)) ∧
    (owned → (h.grants.any fun x => x.sem == n && x.ctx == g) = true →
      Does .semRevoke s (semRes { h with grants := dropIf h.grants fun x => x.sem == n && x.ctx == g } 0)) ∧
    (∀ x y, x = fld h F.syncBarCfgArriveSem i → y = fld h F.syncBarCfgReleaseSem i → x ≠ y →
      let b := fld h F.syncBarCfgCtx i
      (tgetD h.barriers i {}).state = 0 → ctxLive h b = true → (barMask h i).isEmpty = false →
      (∀ z, z = x ∨ z = y → (sem h z).alloc = true ∧ (sem h z).owner = b ∧ (sem h z).barrier = false) →
      (∀ p ∈ barMask h i, (tget h.parts (b * 256 + p)).isSome = true) →
      Does .barCreate s
        (let h' := setSem (setSem h x { sem h x with barrier := true }) y { sem h y with barrier := true }
         barRes { h' with barriers := tset h'.barriers i { state := 1, ctx := b, arrive := x, release := y, mask := barMask h i } } 0)) ∧
    ((tget h.barriers i).isSome = true → Does .barDestroy s (barDestroy h)) ∧
    (debugOpen h = true → (tgetD h.barriers i {}).state = 1 → Does .barForce s (barRelease (barRes h 0) i (tgetD h.barriers i {}))) ∧
    (∀ kd id, kd < 4 → id < 65536 → partIdOk kd id = true →
      let c := fld h F.syncPartSelCtx
      let p := fld h F.syncPartSelPart
      (h.barriers.any fun b => b.2.state == 1 && b.2.ctx == c && b.2.mask.contains p) = false →
      (kd = 0 → Does (.partBind kd id) s { h with parts := tdel h.parts (c * 256 + p) }) ∧
      (kd ≠ 0 → h.parts.length < 16384 → Does (.partBind kd id) s { h with parts := tset h.parts (c * 256 + p) (kd, id) })) ∧
    Does .syncAudit s (syncAudit h (fld h F.syncCtxSelCtx)) ∧
    (∀ w vec, w ≤ 600000 → w < 2 ^ 20 → vec < 2 ^ 11 → vec < vectors (ctxFunc h (fld h F.syncCtxSelCtx)) →
      Does (.syncCtxCfgWrite w vec) s
        (setFld (setFld h F.syncCtxCfgWdogMs (fld h F.syncCtxSelCtx) w) F.syncCtxCfgVector (fld h F.syncCtxSelCtx) vec)) ∧
    ∀ m, m < 131072 → debugOpen h = true → (sem h m).alloc = true →
      let hs := setSem h m { sem h m with handSet := true }
      (∀ v, Does (.semSet m 0 v) s (raise (releaseMet (setSem hs m { sem hs m with count := toSigned 64 v }) m) E.syncHandSet)) ∧
      Does (.semWakeAll m) s (raise (each (semWaiters hs m) hs fun h w => releaseWait h w 0) E.syncHandSet) ∧
      Does (.semClrAbandoned m) s (raise (setSem hs m { sem hs m with abandoned := false }) E.syncHandSet)) ∧
  ∀ (s : State) (c n : Nat) (w : Wait), s.hub.runs = true → c < 8192 → frozen s.hub = false → ctxState s.hub c = 2 →
    (s.hub.waits.find? fun w => w.index == n && w.ctx == c) = some w →
    (odOn s.hub OD.syncWdogKill = false → Does (.watchdogFire c n false) s (releaseWait (wdogNote s.hub c w.sem) w 2)) ∧
    (odOn s.hub OD.syncWdogKill = true → Does (.watchdogFire c n false) s (later (wdogNote s.hub c w.sem) (.kill c 2)))

/-- On a quiet hub in Ride, SEM_INIT of a free semaphore for a live context claims it with the value given; for a context that is not
live it is refused with RESULT 5, and of one that another context owns, for a live context, with RESULT 1. SEM_FREE by its owner,
with no waiter and no barrier, frees it; by another context it is refused with RESULT 1. In a debug session, SEM_SET of an
allocated semaphore that no one waits on sets its whole count, or only the half it names, and marks it. Nothing else changes any
other semaphore, a grant, memory or a context. -/
def Obligations.SemaphoreCounts : Prop :=
  ∀ (s : State), s.hub.quiet = true → s.hub.rides = true →
    let n := fld s.hub F.syncSemSelSem
    let c := fld s.hub F.syncSemSelCtx
    let v := toSigned 64 (fld s.hub F.syncSemValValue)
    let m := sem s.hub n
    let same (j : Nat) (k : Hub) := (∀ i, i ≠ j → sem k i = sem s.hub i) ∧ k.hbm = s.hub.hbm ∧ ∀ d, ctxState k d = ctxState s.hub d
    (m.alloc = false → ctxLive s.hub c = true →
      ∃ k, DoesOnly .semInit s k ∧ (sem k n).count = v ∧ (sem k n).owner = c ∧ (sem k n).alloc = true ∧ (sem k n).abandoned = false ∧
        fld k F.syncSemCtlResult = 0 ∧ k.grants = s.hub.grants ∧ same n k) ∧
    (ctxLive s.hub c = false → (m.alloc = true → m.owner = c) →
      ∃ k, DoesOnly .semInit s k ∧ fld k F.syncSemCtlResult = 5 ∧ k.sems = s.hub.sems ∧ k.grants = s.hub.grants ∧ same n k) ∧
    (m.alloc = true → m.owner ≠ c →
      (ctxLive s.hub c = true →
        ∃ k, DoesOnly .semInit s k ∧ fld k F.syncSemCtlResult = 1 ∧ k.sems = s.hub.sems ∧ k.grants = s.hub.grants ∧ same n k) ∧
      ∃ k, DoesOnly .semFree s k ∧ fld k F.syncSemCtlResult = 1 ∧ k.sems = s.hub.sems ∧ k.grants = s.hub.grants ∧ same n k) ∧
    (m.alloc = true → m.owner = c → semWaiters s.hub n = [] → m.barrier = false →
      ∃ k, DoesOnly .semFree s k ∧ fld k F.syncSemCtlResult = 0 ∧ (sem k n).alloc = false ∧ same n k ∧
        ∀ g, g ∈ k.grants ↔ g ∈ s.hub.grants ∧ g.sem ≠ n) ∧
    ∀ j w, j < 131072 → debugOpen s.hub = true → (sem s.hub j).alloc = true → semWaiters s.hub j = [] →
      let old := ofSigned 64 (sem s.hub j).count
      (∃ k, DoesOnly (.semSet j 0 w) s k ∧ (sem k j).count = toSigned 64 w ∧ (sem k j).handSet = true ∧ k.grants = s.hub.grants ∧ same j k) ∧
      (∃ k, DoesOnly (.semSet j 1 w) s k ∧ (sem k j).count = toSigned 64 (old / 2 ^ 32 * 2 ^ 32 + w % 2 ^ 32) ∧
        k.grants = s.hub.grants ∧ same j k) ∧
      ∃ k, DoesOnly (.semSet j 2 w) s k ∧ (sem k j).count = toSigned 64 (w % 2 ^ 32 * 2 ^ 32 + old % 2 ^ 32) ∧
        k.grants = s.hub.grants ∧ same j k

/-- STR_RD and STR_WR that are taken join the streaming requests and go on; STR_WDATA gives its write the data; STREAMING_READ and
STREAMING_WRITE carry a held request on; SPOKE_TRUING_WINDOW and SPK_TRUE_NOW send LINK.TRUE, LINK_TRUE_RPT and TRUE_RPT_TIMEOUT
end the window; SPOKE_QUIET_POINT decides for failed lanes, LINK_MAP_ACK puts the map in use, a clean LINK_MAP_RPT ends the stall;
LINK_CREDIT returns credits either way; LINK_BEAT and HBEAT_TOGGLE are a beat; a cell error is counted and outside data isolates,
as a lost heartbeat, a reset request, a guest error, a missed stall bound and a dropped UCIe link do; UCIE_LANE_FAIL,
UCIE_RETRAIN_DONE and UCIE_RETRAIN_TIMEOUT repair, return to service or isolate. -/
def Obligations.GuestLinkCommands : Prop :=
  (∀ (s : State) (site n txn c va sm : Nat) (k : Hub), s.hub.runs = true → strOk site n txn c va sm 0 = true →
    let a := anchorOf s.hub site
    let r (w : Bool) : StrReq := { anchor := a, stn := stnNum site n, txn := txn, ctx := c, write := w, va := va, smask := sm }
    (Takes s.hub site 0 2 (askStr s.hub a n c va sm false) k →
      Does (.strRd site n txn c va sm 0) s (strGo { k with strs := k.strs ++ [r false] } (stnNum site n) txn false)) ∧
    (Takes s.hub site 0 2 (askStr s.hub a n c va sm true) k →
      Does (.strWr site n txn c va sm 0) s (strGo { k with strs := k.strs ++ [r true] } (stnNum site n) txn true))) ∧
  (∀ (s : State) (site n txn bad : Nat) (bs : List Byte) (r : StrReq) (k : Hub), s.hub.runs = true → isLink site = true → n < 64 →
    r.smask < 256 →
    (s.hub.strs.find? fun r => r.stn == stnNum site n && r.txn == txn && r.write && r.data.isNone) = some r →
    (guest s.hub (anchorOf s.hub site)).dropW.contains (stnNum site n, txn) = false →
    Takes s.hub site 5 (datLen (maskLen r.smask)) { cls := some 1, stn := some n } k →
    Does (.strWdata site n txn r.smask bs bad 0) s
      (strGo { k with strs := mapIf k.strs (· == r) fun r => { r with data := some (bs, bad) } } (stnNum site n) txn true)) ∧
  (∀ (s : State) (stn txn : Nat) (r : StrReq), s.hub.runs = true →
    ((s.hub.strs.find? fun r => r.stn == stn && r.txn == txn && r.write == false && !r.sent) = some r → Does (.streamingRead stn txn) s (strRead s.hub r)) ∧
    ((s.hub.strs.find? fun r => r.stn == stn && r.txn == txn && r.write == true && !r.sent) = some r → Does (.streamingWrite stn txn) s (strWrite s.hub r))) ∧
  (∀ (s : State) (x g : Nat), s.hub.runs = true → x < 32 → g < 32 →
    let l := link s.hub x
    (linkUp s.hub x = true → l.truing = none → (activeGroups s.hub x).contains g = true → Does (.spokeTruingWindow x g) s (sendTrue s.hub x g)) ∧
    (∀ lanes, (lanes.all fun (e : Nat × Nat × Nat × Nat) => decide (e.1 < 2) && decide (e.2.1 < 132)) = true → inService s.hub x = true →
      l.truing = some g → Does (.linkTrueRpt x g lanes) s (trueReport (countRx s.hub x 1) x g lanes)) ∧
    (l.truing = some g → Does (.trueRptTimeout x) s (trueMissed s.hub x)) ∧
    (s.hub.rides = true → linkUp s.hub x = true → flag s.hub F.spkCtlTrueNow x = false → Does (.spkTrueNow x) s (trueNow s.hub x)) ∧
    (linkUp s.hub x = true → siteState s.hub x = 3 → Does (.spokeQuietPoint x) s (decideMap s.hub x)) ∧
    (inService s.hub x = true → l.stall = 1 → Does (.linkMapAck x l.mapB1) s (mapInUse (countRx s.hub x 1) x)) ∧
    (inService s.hub x = true → l.stall = 2 → Does (.linkMapRpt x 0 []) s (stallEnds (countRx s.hub x 1) x (l.mapKind == 1) l.newWidth)) ∧
    (∀ n fs, fs.all laneOk = true → inService s.hub x = true → l.stall = 2 → fs ≠ [] →
      Does (.linkMapRpt x n fs) s (decideMap (failLanes (countRx s.hub x 1) x fs) x)) ∧
    Does (.hbeatToggle x) s (beat s.hub x)) ∧
  (∀ (s : State) (x : Nat), s.hub.runs = true → isLink x = true →
    let l := link s.hub x
    let a := anchorOf s.hub x
    (l.stall = 1 ∨ (l.stall = 2 ∧ x < 32) → Does (.stallBoundMiss x) s (isolate s.hub a 3)) ∧
    (∀ cs, (∀ c ∈ cs, c < 65536) → cs.length ≤ 6 → linkAlive s.hub x = true → Does (.linkCredit x (some cs)) s
      (drainLink (countRx (setLink s.hub x { l with guestCr := l.guestCr.zipIdx.map fun e => e.1 + cs.getD e.2 0 }) x 1) x)) ∧
    (linkAlive s.hub x = true → Does (.linkCredit x none) s
      (countTx (emit (setLink s.hub x { l with hubCr := l.hubCr.zipIdx.map (fun e => e.1 + l.owed.getD e.2 0), owed := [0, 0, 0, 0, 0, 0] })
        .linkCredit x l.owed) x 1)) ∧
    (32 ≤ x → inService s.hub x = true → Does (.linkBeat x) s (beat (countRx s.hub x 1) x)) ∧
    (inService s.hub x = true →
      let h := if x < 32 then raise s.hub E.spkCellUe x else raise s.hub E.uciCellUe (x - 32)
      Does (.cellUe x true) s h ∧ Does (.cellUe x false) s (isolate h (anchorOf h x) 4)) ∧
    (guestRuns s.hub x = true → (x < 32 ∨ l.stall = 0) → Does (.heartbeatLost x) s (isolate s.hub a 1)) ∧
    (guestRuns s.hub x = true → Does (.guestResetRequest x) s (isolate s.hub a 2) ∧ Does (.guestError x) s (isolate s.hub a 3))) ∧
  ∀ (s : State) (p : Nat), s.hub.runs = true → p < 2 →
    let l := link s.hub (32 + p)
    (∀ ls, ls.all uciLaneOk = true → inService s.hub (32 + p) = true → Does (.ucieLaneFail p ls) s (uciLaneFail s.hub p ls)) ∧
    (inService s.hub (32 + p) = true → l.stall = 1 → Does (.linkMapAck (32 + p) 0) s
      (setLink (countRx s.hub (32 + p) 1) (32 + p) { link (countRx s.hub (32 + p) 1) (32 + p) with stall := 2 })) ∧
    (∀ h, l.stall = 2 → uciSettle s.hub p = some h → Does (.ucieRetrainDone p) s
      (stallEnds h (32 + p) (flag h F.uciStatusX32 p && !flag s.hub F.uciStatusX32 p) 1)) ∧
    (l.stall = 2 → Does (.ucieRetrainTimeout p) s (isolate s.hub (32 + p) 5)) ∧
    (inService s.hub (32 + p) = true → Does (.ucieLinkDown p) s (isolate (raise s.hub E.uciLinkDown p) (32 + p) (if l.stall ≠ 0 then 5 else 4)))

/-- GUEST_PRESENCE low notes the guest and starts its admission where one may run, high on a site that is not ADMITTED leaves it
EMPTY; SIDEBAND_TRANSFER_DONE carries the admission on, SIDEBAND_RETRY and UCIE_SB_TIMEOUT try again three times and then refuse;
SB_READY_TIMEOUT refuses with code 1; SIGNATURE_CHECK_DONE, SPOKE_TRAINING_DONE, UCIE_TRAINING_DONE and GATE_RUN_END take the
admission to its next step; GATE_DEADLINE refuses with code 6; GUEST_CMD_END and GUEST_CMD_TIMEOUT end the command under way;
FW_ANSWER_TIMEOUT refuses for firmware; GUEST_PREQ keeps the line's level; SITE_IOUT_POLL keeps the reading. -/
def Obligations.AdmissionCommands : Prop :=
  (∀ (s : State) (x : Nat), isLink x = true → linkOn s.hub x = true → s.hub.dead = 0 →
    Does (.guestPresence x true) s (admitPresent { s.hub with present := x :: s.hub.present.erase x } x) ∧
    (siteState s.hub x ≠ 3 → siteState s.hub x ≠ 2 → siteState s.hub x ≠ 0 → s.hub.dataReset = false → x < 32 →
      Does (.guestPresence x false) s (setFld (linkOff { s.hub with present := s.hub.present.erase x } x) F.siteStatusState x 1))) ∧
  (∀ (s : State) (x : Nat) (t : Nat × Nat × Nat), s.hub.runs = true → isLink x = true → (guest s.hub x).sbXfer = some t →
    let again := emit (setGuest s.hub x { guest s.hub x with sbTries := (guest s.hub x).sbTries + 1 }) .sbRead x [t.2.1, t.2.2]
    let last := checkRects (refuse (if x < 32 then s.hub else raise s.hub E.uciSbErr (x - 32)) x 1)
    (∀ ws, (∀ w ∈ ws, w < 2 ^ 32) → Does (.sidebandTransferDone x ws) s (sbWords s.hub x ws)) ∧
    ((guest s.hub x).sbTries < 3 → Does (.sidebandRetry x) s again ∧ ∀ p, p < 2 → x = 32 + p → Does (.ucieSbTimeout p) s again) ∧
    (3 ≤ (guest s.hub x).sbTries → Does (.sidebandRetry x) s last ∧ ∀ p, p < 2 → x = 32 + p → Does (.ucieSbTimeout p) s last)) ∧
  (∀ (s : State) (x : Nat), s.hub.runs = true → isLink x = true →
    let a := anchorOf s.hub x
    let g := guest s.hub a
    ((guest s.hub x).step = 1 → Does (.sbReadyTimeout x) s (checkRects (refuse s.hub x 1))) ∧
    ((guest s.hub x).step = 4 → Does (.signatureCheckDone x) s (signatureDone s.hub x)) ∧
    ((guest s.hub x).step = 6 ∨ (guest s.hub x).step = 7 → Does (.gateDeadline x) s (refuse s.hub x 6)) ∧
    ((guest s.hub x).step = 10 → Does (.fwAnswerTimeout x) s (fwNext (refuseFw s.hub x 5))) ∧
    (∀ v, siteState s.hub a = 3 → Does (.guestPreq x v) s (setLink s.hub x { link s.hub x with preq := v })) ∧
    (∀ bad h, x < 32 → bad.all laneOk = true → g.step = 6 → g.covered.contains x = true → g.trained.contains x = false →
      chooseWidth (failLanes s.hub x bad) x true = some h → Does (.spokeTrainingDone x true bad) s (trainedAll h a x)) ∧
    (∀ bad, x < 32 → bad.all laneOk = true → g.step = 6 → g.covered.contains x = true → g.trained.contains x = false →
      Does (.spokeTrainingDone x false bad) s (refuse s.hub a 6)) ∧
    (∀ bad, bad.all (if x < 32 then laneOk else uciLaneOk) = true → g.step = 7 → g.covered.contains x = true → g.gated.contains x = false →
      g.clearing.contains x = false → Does (.gateRunEnd x bad) s (gateRun s.hub x bad)) ∧
    (g.clearing.contains x = true →
      (∀ ok, Does (.guestCmdEnd x ok) s (setGuest s.hub a { g with clearing := g.clearing.erase x })) ∧ Does (.guestCmdTimeout x) s (isolate s.hub a 3)) ∧
    ∀ cmd c sl, g.clearing.contains x = false → x = a → g.sbCur = some (cmd, c, sl) →
      (cmd = 1 → Does (.guestCmdEnd x true) s (afterAdmit (sbNext s.hub a) a) ∧ Does (.guestCmdEnd x false) s (refuse (sbNext s.hub a) a 8) ∧
        Does (.guestCmdTimeout x) s (refuse s.hub a 8)) ∧
      (cmd = 2 → ∀ ok, Does (.guestCmdEnd x ok) s (leaseStarted (sbNext s.hub a) a c sl ok)) ∧
      (cmd = 3 → ∀ ok, Does (.guestCmdEnd x ok) s (leaseSweep (sbNext s.hub a) a sl)) ∧
      (cmd = 4 → Does (.guestCmdEnd x true) s (leaseFreed (sbNext s.hub a) a sl) ∧ Does (.guestCmdEnd x false) s (isolate (sbNext s.hub a) a 3)) ∧
      (cmd ≠ 1 → Does (.guestCmdTimeout x) s (isolate s.hub a 3))) ∧
  (∀ (s : State) (p offer : Nat) (ok : Bool) (bad : List (Nat × Nat × Nat)), s.hub.runs = true → p < 2 → bad.all uciLaneOk = true →
    (guest s.hub (32 + p)).step = 6 → Does (.ucieTrainingDone p true ok offer bad) s (uciTrained s.hub p true ok offer bad)) ∧
  ∀ (s : State) (x i : Nat), s.hub.runs = true → x < 32 → i < 65536 → siteState s.hub x = 2 ∨ siteState s.hub x = 3 → i ≤ 800 →
    let a := anchorOf s.hub x
    let h := setOdNum s.hub (OD.siteIoutA x) 2 i
    i ≤ numAt (guest s.hub a).desc 32 1 * 10 →
    Does (.siteIoutPoll x i false true) s (setGuest h a { guest s.hub a with overI := tset (guest s.hub a).overI x 0 })

/-- LEASE_GRANT of a free slot of an ADMITTED guest, for an ACTIVE context within the slot rules and windows, sends LEASE_START;
LEASE_END of an ACTIVE slot starts its drain with RESULT 0; LEASE_DRAIN_DONE of a drained slot ends the guest's waits and sends
LEASE_END; LEASE_DRAIN_TIMEOUT isolates with cause 3; LEASE_GRACE_END ends a context's grace; VIOLATION_WINDOW_END starts a new
count; SITE_ISOLATE isolates with cause 8; SITE_READMIT and AUTO_READMIT start a re-admission, held while the control half is
down. -/
def Obligations.LeaseCommands : Prop :=
  (∀ (s : State) (a : Nat), s.hub.rides = true → isLink a = true →
    let h := s.hub
    let sl := fld h F.siteLeaseSelSlot a
    let c := leaseCtx h a sl
    let others := (List.range 16).filter fun t => t != sl && slotUsed h a t
    (siteState h a = 3 → (a < 32 → anchorOf h a = a) → slotUsed h a sl = false → (shared h a = true ∨ others = []) → ctxState h c = 2 →
      (∀ t ∈ others, leaseCtx h a t ≠ c) → winBad h a sl = false →
      Does (.leaseGrant a) s (sbCmd (setLeaseRec h a sl { step := 1 }) a 2 c sl)) ∧
    (leaseState (leaseRes h a 0) a sl = 1 →
      Does (.leaseEnd a) s (setLeaseRec (setFld (leaseRes h a 0) F.siteLeaseState (lkey a sl) 2) a sl { step := 2 })) ∧
    (siteState h a = 2 ∨ siteState h a = 3 → Does (.siteIsolate a) s (isolate (setFld h F.siteCtlResult a 0) a 8)) ∧
    (siteState h a = 4 ∨ siteState h a = 5 →
      (h.ctlDown = false → Does (.siteReadmit a) s (setFld (readmit (setFld h F.siteCtlResult a 0) a) F.siteCtlReadmit a 1)) ∧
      (h.ctlDown = true → Does (.siteReadmit a) s
        (setFld { setFld h F.siteCtlResult a 0 with held := h.held ++ [.readmit a] } F.siteCtlReadmit a 1)))) ∧
  ∀ (s : State) (a : Nat), s.hub.runs = true → isLink a = true →
    let g := guest s.hub a
    (∀ sl, sl < 16 → leaseState s.hub a sl = 2 → (leaseRec s.hub a sl).step = 2 →
      (residentOps s.hub a (leaseCtx s.hub a sl) = false → Does (.leaseDrainDone a sl) s (leaseDrained s.hub a sl)) ∧
      Does (.leaseDrainTimeout a sl) s (isolate s.hub a 3)) ∧
    (∀ c, Does (.leaseGraceEnd a c) s (setGuest s.hub a { g with grace := g.grace.erase c })) ∧
    Does (.violationWindowEnd a) s (setGuest s.hub a { g with winCount := 0 }) ∧
    (siteState s.hub a = 4 → (g.agentIds.all fun i => agentState s.hub i == 0) = true → g.autoTries < odNum s.hub (OD.siteAutoReadmit a) →
      let h := setGuest s.hub a { g with autoTries := g.autoTries + 1 }
      (s.hub.ctlDown = false → Does (.autoReadmit a) s (readmit h a)) ∧
      (s.hub.ctlDown = true → Does (.autoReadmit a) s { h with held := h.held ++ [.readmit a] }))

/-- On a quiet hub, LINK_BEAT from a spoke's guest in service is a protocol violation: VIO_TOTAL goes up by one modulo its width, the
newest log entry has kind 8 and the log keeps at most 16, the window's count goes up by one, and the site's state and memory stay;
where the new count does not exceed the site's limit nothing is isolated, and where it does the isolation with cause FIREWALL
follows. -/
def Obligations.ViolationsCount : Prop :=
  ∀ (s : State) (x : Nat), s.hub.quiet = true → s.hub.runs = true → x < 32 → inService s.hub x = true →
    let a := anchorOf s.hub x
    let g := guest s.hub a
    ∃ k : Hub, fld k F.siteVioTotalTotal a = (fld s.hub F.siteVioTotalTotal a + 1) % 2 ^ F.siteVioTotalTotal.w ∧
      ((guest k a).vlog.head?.map (·.kind)) = some 8 ∧ (guest k a).vlog.length ≤ 16 ∧ (guest k a).vlog.tail <+: g.vlog ∧
      (guest k a).winCount = g.winCount + 1 ∧ (∀ b, b ≠ a → guest k b = guest s.hub b) ∧ (∀ b, siteState k b = siteState s.hub b) ∧
      k.hbm = s.hub.hbm ∧ k.links = s.hub.links ∧ k.todo = [] ∧
      (g.winCount + 1 ≤ odNum s.hub (OD.siteVioLimit a) → DoesOnly (.linkBeat x) s k) ∧
      (odNum s.hub (OD.siteVioLimit a) < g.winCount + 1 → Does (.linkBeat x) s (later k (.isolate a 7)))

/-- ETH_PORT_STATE shows a port and raises PORT_DOWN where it goes down; POD_FRAME on a port that is up is received; POD_PUT_PERFORMED
answers a performed message with DONE; POD_RETX_TIMEOUT sends a stream's frames again with the wait doubled up to 1 ms;
POD_ACK_TIMER sends an acknowledgement; POD_UNREACHABLE ends a peer's stream; POD_BEAT_TIMER sends a worker's BEAT; POD_WATCHDOG
makes a hub LOST or the manager lost; POD_CH_OPEN, POD_CH_CLOSE and POD_CH_RESUME change a channel's state; POD_CMD_FETCH reads
and checks the next command; POD_CMD_NOP, POD_CMD_PUT, POD_CMD_REDUCE_PUT, POD_CMD_SEM_ADD, POD_CMD_SEM_SUB and POD_CMD_ARRIVE
carry a ready command out. -/
def Obligations.PodCommands : Prop :=
  (∀ (s : State) (n : Nat), s.hub.runs = true →
    (∀ up, n < 2 →
      let h := setFld s.hub F.podStatusPortUp 0 (setBits (fld s.hub F.podStatusPortUp) n 1 (b2n up))
      Does (.ethPortState n up) s (if bitOf (fld s.hub F.podStatusPortUp) n && !up then raise h E.podPortDown else h)) ∧
    (∀ d src ty bs full, n < 2 → bitOf (fld s.hub F.podStatusPortUp) n = true →
      Does (.podFrame n d src ty bs full) s (podReceive s.hub d src ty bs full)) ∧
    (∀ m, (s.hub.podIn.find? fun m => m.key == n && m.left == 0) = some m → Does (.podPutPerformed n) s
      (later (podDone { s.hub with podIn := s.hub.podIn.erase m } m.src ⟨0, false, m.job, m.msgId, 0, []⟩ m.status) .podPump)) ∧
    (∀ t, n < 4096 → tget s.hub.podTx n = some t → t.sent ≠ [] →
      Does (.podRetxTimeout n) s
        (each t.sent (raise { s.hub with podTx := tset s.hub.podTx n { t with wait := Nat.min 1000 (2 * t.wait) } } E.podRetx)
          fun h e => sendFrame h n e.1 [e.2]) ∧
      Does (.podUnreachable n) s (podPeerLost (trace (raise s.hub E.podUnreach) 0 44 0x72 none n) n)) ∧
    (n < 4096 → s.hub.podAck.contains n = true → Does (.podAckTimer n) s (sendFrame s.hub n 0 [])) ∧
    (podRole s.hub = 1 → Does .podBeatTimer s (podSend (podNew s.hub).2 (podNew s.hub).2.podMgr ⟨7, false, 0, (podNew s.hub).1, 0, []⟩)) ∧
    (n < 4096 → podRole s.hub = 2 → roster s.hub n = 1 ∨ roster s.hub n = 2 → Does (.podWatchdog n) s
      (let h := podPeerLost (setRoster s.hub n 3) n
       each (liveHubs h) h fun h d => podSend (podNew h).2 d ⟨6, false, 0, (podNew h).1, 6 + n * 2 ^ 8, []⟩)) ∧
    (n < 4096 → podRole s.hub = 1 → n = s.hub.podMgr → fld s.hub F.podStatusMgr ≠ 2 →
      Does (.podWatchdog n) s (raise (setFld s.hub F.podStatusMgr 0 2) E.podMgrLost))) ∧
  (∀ (s : State), s.hub.rides = true →
    let h := s.hub
    let c := chSel h
    (chState h c = 0 → ctxState h (fld h F.podChCfgCtx c) = 2 → fld h F.podChCfgJob c ≠ 0 →
      (∀ d, d < 256 → chState h d ≠ 0 → fld h F.podChCfgJob d ≠ fld h F.podChCfgJob c) → chGeom h c = true →
      Does .podChOpen s (chRes (setFld (setFld (setFld { h with podCh := tset h.podCh c {} } F.podChStatState c 1) F.podChStatHaltStatus c 0)
        F.podChStatDoneAt c 0) c 0)) ∧
    (chState h c = 1 ∨ chState h c = 2 → Does .podChClose s
      (let k := chRes (setFld h F.podChStatState c 3) c 0
       let k := { k with waits := dropIf k.waits fun w => w.by_ == .pod c }
       chSettle (setPodCh k c { podCh k c with runs := (podCh k c).runs.filter fun r => !r.due.isEmpty }) c)) ∧
    (chState h c = 2 → Does .podChResume s (later (chRes (setFld (setFld h F.podChStatState c 1) F.podChStatHaltStatus c 0) c 0) .podPump))) ∧
  ∀ (s : State) (c : Nat), s.hub.runs = true → c < 256 →
    let h := s.hub
    let p := podCh h c
    let x := fld h F.podChCfgCtx c
    let r : PodRun := { k := p.next, raw := [], step := 1 }
    (∀ bs k, p.runs.all (fun r => r.step == 3) = true → chState h c = 1 → ctxState h x = 2 → frozen h = false →
      (p.next : Int) + 1 ≤ (sem h (fld h F.podChCfgFeedSem c)).count →
      vaRead h x (getReg h .podChRing c + p.next % 2 ^ fld h F.podChCfgRingLog2 c * 64) 64 (podWho c) = (some (bs, []), k) →
      podCmdOk bs = true → bitOf (numAt bs 40 4) 17 = false → bitOf (numAt bs 56 4) 17 = false →
      let k := setPodCh k c { p with next := (p.next + 1) % 2 ^ 32, runs := (podCh k c).runs ++ [{ r with raw := bs }] }
      Does (.podCmdFetch c) s (putRun k c { r with raw := bs, step := 2 })) ∧
    (∀ r, readyRun h c 0 = some r → Does (.podCmdNop c) s (runDone h c r)) ∧
    (∀ r op, op = 1 ∨ op = 2 → readyRun h c op = some r →
      let i := if op = 1 then Instr.podCmdPut c else Instr.podCmdReducePut c
      (numAt r.raw 24 4 = 0 → Does i s (runDone h c r)) ∧
      (∀ bs k, numAt r.raw 24 4 ≠ 0 → numAt r.raw 16 8 + 32 * numAt r.raw 24 4 ≤ 2 ^ 40 → 0 < r.pos →
        let n := Nat.min 256 (numAt r.raw 24 4 - r.pos)
        vaSectors x (podWho c) ((List.range n).map fun i => numAt r.raw 8 8 + 32 * (r.pos + i)) h = (some (bs, []), k) →
        Does i s (runSend k c (numAt r.raw 2 2) { r with pos := r.pos + n } (decide (numAt r.raw 24 4 ≤ r.pos + n)) op false
          (numAt r.raw 16 8 + 32 * r.pos + (n - 1) * 2 ^ 40 + (if op = 2 then numAt r.raw 4 1 * 2 ^ 49 + numAt r.raw 5 1 * 2 ^ 52 else 0)) bs))) ∧
    (∀ r, readyRun h c 3 = some r → putsDone h c r = true → Does (.podCmdSemAdd c) s
      (runSend h c (numAt r.raw 2 2) r true 3 false (numAt r.raw 28 4) (sliceB (leBytes 8 (numAt r.raw 32 8)) 0 16))) ∧
    (∀ r, readyRun h c 4 = some r → putsDone h c r = true → Does (.podCmdSemSub c) s
      (runSend h c (numAt r.raw 2 2) r true 3 false (numAt r.raw 28 4 + 2 ^ 17) (sliceB (leBytes 8 (numAt r.raw 32 8)) 0 16))) ∧
    (∀ r, readyRun h c 5 = some r → putsDone h c r = true → Does (.podCmdArrive c) s
      (runSend h c (if podRole h = 2 then podSelf h else h.podMgr) r true 4 false
        (numAt r.raw 16 8 % 64 + tgetD h.podGen (numAt r.raw 16 8 % 64) 0 % 2 ^ 32 * 2 ^ 8) []))

/-- On a quiet hub in Ride, POD_CH_OPEN of a channel that is not CLOSED answers RESULT 1; with its context not ACTIVE, 2; with job 0
or a job another channel holds, 3; with a ring or a window out of range, 4; in that order, and no channel's state, register but
RESULT, or memory changes; POD_CH_RESUME of a channel that is not HALTED, and POD_CH_CLOSE of one that is CLOSED or CLOSING,
answer 1 in the same way. -/
def Obligations.ChannelRefusals : Prop :=
  ∀ (s : State), s.hub.quiet = true → s.hub.rides = true →
    let h := s.hub
    let c := chSel h
    let job := fld h F.podChCfgJob c
    let no (i : Instr) (r : Nat) := ∃ k, DoesOnly i s k ∧ fld k F.podChCtlResult c = r ∧ (∀ d, chState k d = chState h d) ∧ k.podCh = h.podCh ∧
      k.hbm = h.hbm ∧ ∀ q i, q ≠ Reg.podChCtl → getReg k q i = getReg h q i
    let taken := job = 0 ∨ ∃ d, d < 256 ∧ chState h d ≠ 0 ∧ fld h F.podChCfgJob d = job
    let ready := ctxState h (fld h F.podChCfgCtx c) = 2
    (chState h c ≠ 0 → no .podChOpen 1) ∧
    (chState h c = 0 → ¬ ready → no .podChOpen 2) ∧
    (chState h c = 0 → ready → taken → no .podChOpen 3) ∧
    (chState h c = 0 → ready → ¬ taken → chGeom h c = false → no .podChOpen 4) ∧
    (chState h c ≠ 2 → no .podChResume 1) ∧
    (chState h c = 0 ∨ chState h c = 3 → no .podChClose 1)

/-- A mailbox request is served and answered; a KMP request with a sound tag, form, epoch and number from a known peer is applied and
its response kept, and a NOTIFY_ACK ends the resends it names; SB_WRITE with a good PEC writes and SB_READ answers status, length
and value. Each dictionary action that passes its checks takes effect and is answered on the path it came by: scrapping,
attestation, debug and expert sessions, the binding loader, overlays, the store, the memory window and firmware update. -/
def Obligations.DictionaryCommands : Prop :=
  (∀ (s : State) (peer : Nat), ctlUp s.hub = true → s.hub.ctlDown = false → s.hub.dead = 0 →
    let od (k : Nat) (b : List Byte) (i : Nat → Nat → Instr) :=
      (∀ t, dictWrite s.hub 1 peer k b = (0, t) → Does (i 1 peer) s (afterAnswer (emit t .kmpResponse peer [0, k]))) ∧
      Does (i 2 peer) s (mbxRequest s.hub 2 k b.length 0 b) ∧
      (∀ t, dictWrite s.hub 3 0 k b = (0, t) → Does (i 3 peer) s (afterAnswer t))
    (∀ v, od OD.lcScrap (leBytes 4 v) (.lcScrap · · v)) ∧ (∀ b, od OD.attestNonce b (.attestNonce · · b)) ∧
    (∀ b, od OD.dbgResponse b (.dbgResponse · · b)) ∧ (∀ v, od OD.opdbg (leBytes 1 (b2n v)) (.opdbg · · v)) ∧
    (∀ r, r < 64 → od (OD.bindCmd r) [1] (.bindLoad · · r) ∧ od (OD.bindCmd r) [2] (.bindAbort · · r)) ∧
    (∀ b, od OD.expertProof b (.expertProof · · b)) ∧ od OD.expertActive [0] .expertClose ∧
    (∀ b, od OD.ovlActive b (.overlaySwitch · · b)) ∧ od OD.ovlEditCmd [1] .ovlCreate ∧ od OD.ovlEditCmd [2] .ovlDelete ∧
    od OD.ovlEditCmd [3] .ovlPut ∧ od OD.ovlEditCmd [4] .ovlRemove ∧ od OD.ovlEditCmd [5] .ovlClear ∧
    (∀ v, od OD.storeCmd (leBytes 1 v) (.storeCmd · · v)) ∧ (∀ v, od OD.wakeReq (leBytes 1 v) (.wakeReq · · v)) ∧
    od OD.dbgMemCmd [1] .dbgMemRead ∧ od OD.fwuCmd [1] .fwuBegin ∧ (∀ b, od OD.fwuData b (.fwuData · · b)) ∧ od OD.fwuCmd [2] .fwuEnd ∧
    od OD.fwuCmd [3] .fwuAbort ∧ od OD.fwuCmd [4] .fwuActivate ∧ od OD.fwuCmd [5] .fwuConfirm ∧ od OD.fwuCmd [6] .fwuRollback ∧
    od OD.fwuCmd [7] .fwuDeleteGuest) ∧
  (∀ (s : State) (i u n o : Nat) (b : List Byte), ctlUp s.hub = true →
    let k := i % 65536 * 256 + u % 256
    Does (.mbxRead i u n o) s (mbxRequest s.hub 1 k n o []) ∧ Does (.mbxWrite i u b) s (mbxRequest s.hub 2 k b.length 0 b) ∧
    Does (.mbxDescribe i u) s (mbxRequest s.hub 3 k 16 0 [])) ∧
  (∀ (s : State) (src ep q i u o n : Nat) (v tag : List Byte) (idle : Option Nat) (x : KmpPeer), fieldOn s.hub = true → fieldUp s.hub = true →
    isLinkLocal src = true →
    let own := beNat (linkLocal s.hub)
    let key := segKey s.hub
    let h := setOdNum s.hub OD.rxFrames 8 ((odNum s.hub OD.rxFrames + 1) % 2 ^ 64)
    let good (p : List Byte) := 40 ≤ p.length ∧ p.drop (p.length - 16) = kmpTag key (beBytes 16 src) (beBytes 16 own) (p.take (p.length - 16)) ∧
      kmpWellFormed p = true ∧ numAt p 4 4 = s.hub.mg.epoch
    let fresh (p : List Byte) := good p ∧ (s.hub.mg.ctl.peers.find? (·.addr == src)) = some x ∧ x.seq < numAt p 8 4
    (fresh (kmpPayload 1 0 ep q i u o n [] tag) →
      Does (.kmpRead src own ep q i u o n tag idle) s (kmpApply h key own src (kmpPayload 1 0 ep q i u o n [] tag))) ∧
    (fresh (kmpPayload 1 1 ep q i u o 0 [] tag) →
      Does (.kmpDescribe src own ep q i u o tag idle) s (kmpApply h key own src (kmpPayload 1 1 ep q i u o 0 [] tag))) ∧
    (fresh (kmpPayload 2 0 ep q i u o v.length v tag) →
      Does (.kmpWrite src own ep q i u o v tag idle) s (kmpApply h key own src (kmpPayload 2 0 ep q i u o v.length v tag))) ∧
    (good (kmpPayload 5 0 ep q 0 0 0 0 [] tag) → ep < 2 ^ 32 → q < 2 ^ 32 → Does (.kmpNotifyAck src own ep q tag) s
      { h with notifies := dropIf h.notifies fun n => n.seq == q && n.dest == src })) ∧
  ∀ (s : State) (i u o : Nat) (b : List Byte), fieldOn s.hub = true →
    let k := i % 65536 * 256 + u % 256
    (1 ≤ b.length → b.length ≤ 32 → ∀ c t, dictWrite s.hub 3 0 k b = (c, t) → Does (.sbWrite i u b true) s (afterAnswer t)) ∧
    (1 ≤ b.length → b.length ≤ 32 → Does (.sbWrite i u b false) s (setCtl s.hub { s.hub.mg.ctl with sbBad := true })) ∧
    ∀ c v t, s.hub.mg.ctl.sbBad = false → dictRead s.hub 3 0 k o 32 = (c, v, t) → Does (.sbRead i u o true) s (emit t .sbAnswer 0 [c, v.length] v)

/-- MBX_NOTE_POP, KMP_RESPONSE_EXPIRY, NOTIFY_RESEND, FIELD_FRAME_RX, FIELD_TX_COLLISION, PLCA_BEACON_LOSS and its return,
DAD_COMPLETE and DYNAMIC_ADDRESS_ASSIGNMENT act while the control half is up; EXPERT_NONCE and DBG_NONCE answer a fresh nonce;
EXPERT_IDLE_TIMEOUT closes a session and PROOF_LOCKOUT_END a lockout; STORE_COMMIT and its retry commit pending writes or fail;
LC_JTAG_TRANSITION from the right state advances; ATTEST_RECORD_READY signs the record; DBG_VERIFY_DONE opens deep debug on a good
response and counts a bad one; BIND_UNWRAP_DONE and BIND_CHUNK carry the loader on; FWU_ERASE_DONE makes an update ready for data;
FWU_AUTO_CONFIRM confirms a trial image; TRC_CLEAR empties the trace buffer. -/
def Obligations.ManagementCommands : Prop :=
  (∀ (s : State), ctlUp s.hub = true →
    let h := s.hub
    Does .mbxNotePop s (notePop h) ∧
    Does .trcClear s (setFld { h with trcBuf := [], trcN := 0, trcLeft := none } F.trcStatusTriggered 0 0) ∧
    (∀ peer, Does (.expertNonce 1 peer) s (emit (expertNonce h 1 peer).2 .kmpResponse peer [0, OD.expertNonce] ((expertNonce h 1 peer).1.take 32)) ∧
      Does (.expertNonce 2 peer) s (mbxRequest h 1 OD.expertNonce 32 0 []) ∧
      Does (.dbgNonce 1 peer) s (emit (dbgNonce h).2 .kmpResponse peer [0, OD.dbgNonce] ((dbgNonce h).1.take 48)) ∧
      (lcState h ≠ 3 → Does (.dbgNonce 0 peer) s (emit (dbgNonce h).2 .jtagAnswer 0 [] (dbgNonce h).1))) ∧
    (h.mg.ctl.dirty = true →
      (h.mg.ctl.storeOk = true → Does (.storeCommit true) s (commitStore h) ∧ Does (.storeCommit false) s (commitFails h)) ∧
      (h.mg.ctl.storeOk = false → Does (.storeCommitRetry true) s (commitStore h) ∧ Does (.storeCommitRetry false) s (commitFails h))) ∧
    (∀ n, h.mg.ctl.attNonce = some n → h.mg.cells ≠ 0 →
      let k := setCtl h { h.mg.ctl with attNonce := none }
      Does .attestRecordReady s (setOdBytes k OD.attest (attestBody k ++ sliceB (Config.attestSign (n ++ attestBody k)) 0 96))) ∧
    (∀ n b, h.mg.ctl.dbgWait = some (n, b) →
      let k := setCtl h { h.mg.ctl with dbgWait := none }
      let ok := Config.ecdsaOk Config.debugKey (Config.sha384 (n ++ leBytes 8 (Config.deviceId % 2 ^ 64) ++ [2])) b
      (ok = true → Does .dbgVerifyDone s (deliverNotice (setCtl k { k.mg.ctl with dbgOpen := true }) 4 0)) ∧
      (ok = false → Does .dbgVerifyDone s (setCtl k { k.mg.ctl with dbgFails := Nat.min 8 (h.mg.ctl.dbgFails + 1) }))) ∧
    (h.mg.fwu.state = 1 → Does .fwuEraseDone s (setFwu h { h.mg.fwu with state := 2 })) ∧
    (∀ n, odNum h OD.autoConfirmS ≠ 0 → slotInState h 3 = some n → Does .fwuAutoConfirm s (confirmSlot h n))) ∧
  (∀ (s : State), fieldOn s.hub = true →
    let h := s.hub
    let rx := setOdNum h OD.rxFrames 8 ((odNum h OD.rxFrames + 1) % 2 ^ 64)
    (∀ src dst p idle, Does (.fieldFrameRx 0 src dst p idle) s (countField h OD.fcsErr) ∧ Does (.fieldFrameRx 1 src dst p idle) s (countField h OD.rxEr) ∧
      Does (.fieldFrameRx 2 src dst p idle) s (countField rx OD.rxOther) ∧ Does (.fieldFrameRx 3 src dst p idle) s rx ∧
      Does (.fieldFrameRx 4 src dst p idle) s (kmpRx h src dst p idle)) ∧
    (∀ l a, Does (.fieldTxCollision l a) s
      (let k := countField h OD.collisions
       let k := if l then countField k OD.lateColl else k
       if a then countField k OD.txAbort else k)) ∧
    (h.mg.ctl.plca = true → Does .plcaBeaconLoss s (countField (setCtl h { h.mg.ctl with plca := false }) OD.beaconLoss)) ∧
    (odOn h OD.plcaEn = true → Does .plcaBeaconReturn s (setCtl h { h.mg.ctl with plca := true })) ∧
    (h.mg.dad = 0 → ∀ u, Does (.dadComplete u) s (dadComplete h u)) ∧
    (∀ a, a < 128 → Does (.dynamicAddressAssignment a) s (setCtl h { h.mg.ctl with dynAddr := some a })) ∧
    (∀ q n, (h.notifies.find? fun n => n.seq == q && n.sends != 0) = some n → fieldUp h = true →
      (n.sends < 6 → Does (.notifyResend q) s
        (sendNotify (countField { h with notifies := mapIf h.notifies (· == n) fun n => { n with sends := n.sends + 1 } } OD.notifyResent) n)) ∧
      (6 ≤ n.sends → Does (.notifyResend q) s (countField { h with notifies := h.notifies.erase n } OD.notifyDropped)))) ∧
  (∀ (s : State) (peer q : Nat), Does (.kmpResponseExpiry peer q) s (responseExpiry s.hub peer q)) ∧
  (∀ (s : State) (path peer : Nat), path = 1 ∨ path = 2 →
    (isExpert s.hub path peer = true → Does (.expertIdleTimeout path peer) s (endSession s.hub path peer)) ∧
    Does (.proofLockoutEnd path) s (setCtl s.hub { s.hub.mg.ctl with locked := s.hub.mg.ctl.locked.filter (· != path) })) ∧
  (∀ (s : State) (g : Nat), s.hub.pwr.on = true → s.hub.dead = 0 → (g = 1 ∧ lcState s.hub = 0) ∨ (g = 2 ∧ lcState s.hub = 1) →
    Does (.lcJtagTransition g) s
      (afterAnswer (emit (lcAdvance s.hub).2 .jtagAnswer 0 [odNum (lcAdvance s.hub).2 OD.lcResult]))) ∧
  ∀ (s : State) (r : Nat), s.hub.runs = true → r < 64 →
    (∀ b x k w key, loading s.hub r 1 = true → s.hub.ctlDown = false →
      vaRead s.hub (loadCtx s.hub r) (odNum s.hub (OD.bindSrcVa r)) 4096 (loaderWho r) = (some (b, x), k) → packageOk k r b = true →
      ownRecord b = some w → Config.unwrapKey b w = some key →
      Does (.bindUnwrapDone r) s
        (setBind k r { Machine.bind k r with stage := 2, header := sliceB b 0 (headerLen b), plain := numAt b 8 8, key := key, chunk := 0 })) ∧
    (loading s.hub r 2 = true → Does (.bindChunk r) s (loadChunk s.hub r))

/-- Whatever the requester and the value: a write refused by any check up to STATE changes nothing, except that OD 0x8000.04 records
its refusal; an entry that the active overlay holds is refused with code 9 once path, access and level allow the write. An
accepted write of a stored tuning entry returns 0, makes the value the effective one and the base one, leaves every other base
value, the overlays and memory as they were, and waits for its commit. -/
def Obligations.DictionaryWrites : Prop :=
  ∀ (h : Hub) (path peer k : Nat) (b : List Byte) (r : OdRow), entry? h k = some r →
    (writeCode h path peer k r b ≠ 0 → k ≠ OD.lcScrap → dictWrite h path peer k b = (writeCode h path peer k r b, h)) ∧
    (pathForbids h path k r b = false → accessForbids k r b = false → (r.level = .expert → isExpert h path peer = true) →
      heldByOverlay h k = true → k ≠ OD.lcScrap → dictWrite h path peer k b = (9, h)) ∧
    (writeCode h path peer k r b = 0 → k ∈ [OD.trueMargin, OD.spkMargin, OD.guestRdSite, OD.guestSem, OD.thermHoldC, OD.pcieRdTags, OD.podRtoUs] →
      let t := (dictWrite h path peer k b).2
      (dictWrite h path peer k b).1 = 0 ∧ odNum t k = leNat b ∧ tget t.mg.ctl.base k = some b ∧
        (∀ j, j ≠ k → tget t.mg.ctl.base j = tget h.mg.ctl.base j) ∧ t.mg.ctl.overlays = h.mg.ctl.overlays ∧
        t.mg.ctl.active = h.mg.ctl.active ∧ t.mg.ctl.dirty = true ∧ t.hbm = h.hbm)

/-- On a quiet hub whose control half is up, MBX_NOTE_POP shows the oldest notice's number and detail and takes it off the ring, the
others keeping their order and NOTES counting them; on an empty ring it shows zeros and changes no ring. It changes no memory, no
notice waiting for the field network, and no register but NOTE0, NOTE1 and STATUS. -/
def Obligations.NoticeRing : Prop :=
  ∀ (s : State), s.hub.quiet = true → ctlUp s.hub = true →
    ∃ k, DoesOnly .mbxNotePop s k ∧ k.noteRing = s.hub.noteRing.tail ∧ k.hbm = s.hub.hbm ∧ k.notifies = s.hub.notifies ∧ k.mg = s.hub.mg ∧
      (∀ q i, q ≠ Reg.mbxNote0 → q ≠ Reg.mbxNote1 → q ≠ Reg.mbxStatus → getReg k q i = getReg s.hub q i) ∧
      (s.hub.noteRing = [] → getReg k .mbxNote0 0 = 0 ∧ getReg k .mbxNote1 0 = 0 ∧ fld k F.mbxStatusNotes = 0) ∧
      ∀ n r, s.hub.noteRing = n :: r →
        fld k F.mbxStatusNotes = r.length % 2 ^ F.mbxStatusNotes.w ∧
        getReg k .mbxNote0 0 = numAt (noticeBytes n.1 n.2.1 n.2.2) 0 8 ∧ getReg k .mbxNote1 0 = numAt (noticeBytes n.1 n.2.1 n.2.2) 8 8
end

