-- ==== Sys2Proof/Laws/State.lean ====
section
/-!
SUPPORT. Laws/State.lean: which fields of the hub each named update leaves as they are, one lemma per field per update.
-/
namespace Sys2Proof.Machine

/-! ### setReg -/

@[simp] theorem setReg_variant (h : Hub) (r : Reg) (i v : Nat) : (setReg h r i v).variant = h.variant := rfl
@[simp] theorem setReg_od (h : Hub) (r : Reg) (i v : Nat) : (setReg h r i v).od = h.od := rfl
@[simp] theorem setReg_freeN (h : Hub) (r : Reg) (i v : Nat) : (setReg h r i v).freeN = h.freeN := rfl
@[simp] theorem setReg_out (h : Hub) (r : Reg) (i v : Nat) : (setReg h r i v).out = h.out := rfl
@[simp] theorem setReg_hbm (h : Hub) (r : Reg) (i v : Nat) : (setReg h r i v).hbm = h.hbm := rfl
@[simp] theorem setReg_poison (h : Hub) (r : Reg) (i v : Nat) : (setReg h r i v).poison = h.poison := rfl
@[simp] theorem setReg_hostMem (h : Hub) (r : Reg) (i v : Nat) : (setReg h r i v).hostMem = h.hostMem := rfl
@[simp] theorem setReg_hostBuf (h : Hub) (r : Reg) (i v : Nat) : (setReg h r i v).hostBuf = h.hostBuf := rfl
@[simp] theorem setReg_hostHave (h : Hub) (r : Reg) (i v : Nat) : (setReg h r i v).hostHave = h.hostHave := rfl
@[simp] theorem setReg_hostReads (h : Hub) (r : Reg) (i v : Nat) : (setReg h r i v).hostReads = h.hostReads := rfl
@[simp] theorem setReg_live (h : Hub) (r : Reg) (i v : Nat) : (setReg h r i v).live = h.live := rfl
@[simp] theorem setReg_portCap (h : Hub) (r : Reg) (i v : Nat) : (setReg h r i v).portCap = h.portCap := rfl
@[simp] theorem setReg_reserve (h : Hub) (r : Reg) (i v : Nat) : (setReg h r i v).reserve = h.reserve := rfl
@[simp] theorem setReg_hbms (h : Hub) (r : Reg) (i v : Nat) : (setReg h r i v).hbms = h.hbms := rfl
@[simp] theorem setReg_ports (h : Hub) (r : Reg) (i v : Nat) : (setReg h r i v).ports = h.ports := rfl
@[simp] theorem setReg_regions (h : Hub) (r : Reg) (i v : Nat) : (setReg h r i v).regions = h.regions := rfl
@[simp] theorem setReg_dir (h : Hub) (r : Reg) (i v : Nat) : (setReg h r i v).dir = h.dir := rfl
@[simp] theorem setReg_cohTxns (h : Hub) (r : Reg) (i v : Nat) : (setReg h r i v).cohTxns = h.cohTxns := rfl
@[simp] theorem setReg_cohQ (h : Hub) (r : Reg) (i v : Nat) : (setReg h r i v).cohQ = h.cohQ := rfl
@[simp] theorem setReg_cohPend (h : Hub) (r : Reg) (i v : Nat) : (setReg h r i v).cohPend = h.cohPend := rfl
@[simp] theorem setReg_sweeps (h : Hub) (r : Reg) (i v : Nat) : (setReg h r i v).sweeps = h.sweeps := rfl
@[simp] theorem setReg_agents (h : Hub) (r : Reg) (i v : Nat) : (setReg h r i v).agents = h.agents := rfl
@[simp] theorem setReg_agentLines (h : Hub) (r : Reg) (i v : Nat) : (setReg h r i v).agentLines = h.agentLines := rfl
@[simp] theorem setReg_snpOut (h : Hub) (r : Reg) (i v : Nat) : (setReg h r i v).snpOut = h.snpOut := rfl
@[simp] theorem setReg_tc (h : Hub) (r : Reg) (i v : Nat) : (setReg h r i v).tc = h.tc := rfl
@[simp] theorem setReg_tcHold (h : Hub) (r : Reg) (i v : Nat) : (setReg h r i v).tcHold = h.tcHold := rfl
@[simp] theorem setReg_ctlStarts (h : Hub) (r : Reg) (i v : Nat) : (setReg h r i v).ctlStarts = h.ctlStarts := rfl
@[simp] theorem setReg_dataStarts (h : Hub) (r : Reg) (i v : Nat) : (setReg h r i v).dataStarts = h.dataStarts := rfl
@[simp] theorem setReg_resyncFail (h : Hub) (r : Reg) (i v : Nat) : (setReg h r i v).resyncFail = h.resyncFail := rfl
@[simp] theorem setReg_frozenBy (h : Hub) (r : Reg) (i v : Nat) : (setReg h r i v).frozenBy = h.frozenBy := rfl
@[simp] theorem setReg_fatalPend (h : Hub) (r : Reg) (i v : Nat) : (setReg h r i v).fatalPend = h.fatalPend := rfl
@[simp] theorem setReg_dataReset (h : Hub) (r : Reg) (i v : Nat) : (setReg h r i v).dataReset = h.dataReset := rfl
@[simp] theorem setReg_ctlDown (h : Hub) (r : Reg) (i v : Nat) : (setReg h r i v).ctlDown = h.ctlDown := rfl
@[simp] theorem setReg_held (h : Hub) (r : Reg) (i v : Nat) : (setReg h r i v).held = h.held := rfl
@[simp] theorem setReg_notices (h : Hub) (r : Reg) (i v : Nat) : (setReg h r i v).notices = h.notices := rfl
@[simp] theorem setReg_noticeLost (h : Hub) (r : Reg) (i v : Nat) : (setReg h r i v).noticeLost = h.noticeLost := rfl
@[simp] theorem setReg_faultRing (h : Hub) (r : Reg) (i v : Nat) : (setReg h r i v).faultRing = h.faultRing := rfl
@[simp] theorem setReg_faultSeq (h : Hub) (r : Reg) (i v : Nat) : (setReg h r i v).faultSeq = h.faultSeq := rfl
@[simp] theorem setReg_queues (h : Hub) (r : Reg) (i v : Nat) : (setReg h r i v).queues = h.queues := rfl
@[simp] theorem setReg_qnums (h : Hub) (r : Reg) (i v : Nat) : (setReg h r i v).qnums = h.qnums := rfl
@[simp] theorem setReg_cmds (h : Hub) (r : Reg) (i v : Nat) : (setReg h r i v).cmds = h.cmds := rfl
@[simp] theorem setReg_ops (h : Hub) (r : Reg) (i v : Nat) : (setReg h r i v).ops = h.ops := rfl
@[simp] theorem setReg_routes (h : Hub) (r : Reg) (i v : Nat) : (setReg h r i v).routes = h.routes := rfl
@[simp] theorem setReg_redQ (h : Hub) (r : Reg) (i v : Nat) : (setReg h r i v).redQ = h.redQ := rfl
@[simp] theorem setReg_atc (h : Hub) (r : Reg) (i v : Nat) : (setReg h r i v).atc = h.atc := rfl
@[simp] theorem setReg_trReqs (h : Hub) (r : Reg) (i v : Nat) : (setReg h r i v).trReqs = h.trReqs := rfl
@[simp] theorem setReg_invals (h : Hub) (r : Reg) (i v : Nat) : (setReg h r i v).invals = h.invals := rfl
@[simp] theorem setReg_funcs (h : Hub) (r : Reg) (i v : Nat) : (setReg h r i v).funcs = h.funcs := rfl
@[simp] theorem setReg_msix (h : Hub) (r : Reg) (i v : Nat) : (setReg h r i v).msix = h.msix := rfl
@[simp] theorem setReg_teardown (h : Hub) (r : Reg) (i v : Nat) : (setReg h r i v).teardown = h.teardown := rfl
@[simp] theorem setReg_freeAfter (h : Hub) (r : Reg) (i v : Nat) : (setReg h r i v).freeAfter = h.freeAfter := rfl
@[simp] theorem setReg_sems (h : Hub) (r : Reg) (i v : Nat) : (setReg h r i v).sems = h.sems := rfl
@[simp] theorem setReg_waits (h : Hub) (r : Reg) (i v : Nat) : (setReg h r i v).waits = h.waits := rfl
@[simp] theorem setReg_grants (h : Hub) (r : Reg) (i v : Nat) : (setReg h r i v).grants = h.grants := rfl
@[simp] theorem setReg_barriers (h : Hub) (r : Reg) (i v : Nat) : (setReg h r i v).barriers = h.barriers := rfl
@[simp] theorem setReg_parts (h : Hub) (r : Reg) (i v : Nat) : (setReg h r i v).parts = h.parts := rfl
@[simp] theorem setReg_posts (h : Hub) (r : Reg) (i v : Nat) : (setReg h r i v).posts = h.posts := rfl
@[simp] theorem setReg_acqWait (h : Hub) (r : Reg) (i v : Nat) : (setReg h r i v).acqWait = h.acqWait := rfl
@[simp] theorem setReg_guests (h : Hub) (r : Reg) (i v : Nat) : (setReg h r i v).guests = h.guests := rfl
@[simp] theorem setReg_links (h : Hub) (r : Reg) (i v : Nat) : (setReg h r i v).links = h.links := rfl
@[simp] theorem setReg_leases (h : Hub) (r : Reg) (i v : Nat) : (setReg h r i v).leases = h.leases := rfl
@[simp] theorem setReg_strs (h : Hub) (r : Reg) (i v : Nat) : (setReg h r i v).strs = h.strs := rfl
@[simp] theorem setReg_noteRing (h : Hub) (r : Reg) (i v : Nat) : (setReg h r i v).noteRing = h.noteRing := rfl
@[simp] theorem setReg_nseq (h : Hub) (r : Reg) (i v : Nat) : (setReg h r i v).nseq = h.nseq := rfl
@[simp] theorem setReg_notifies (h : Hub) (r : Reg) (i v : Nat) : (setReg h r i v).notifies = h.notifies := rfl
@[simp] theorem setReg_notifySeq (h : Hub) (r : Reg) (i v : Nat) : (setReg h r i v).notifySeq = h.notifySeq := rfl
@[simp] theorem setReg_todo (h : Hub) (r : Reg) (i v : Nat) : (setReg h r i v).todo = h.todo := rfl
@[simp] theorem setReg_podId (h : Hub) (r : Reg) (i v : Nat) : (setReg h r i v).podId = h.podId := rfl
@[simp] theorem setReg_podMgr (h : Hub) (r : Reg) (i v : Nat) : (setReg h r i v).podMgr = h.podMgr := rfl
@[simp] theorem setReg_podEther (h : Hub) (r : Reg) (i v : Nat) : (setReg h r i v).podEther = h.podEther := rfl
@[simp] theorem setReg_podVlan (h : Hub) (r : Reg) (i v : Nat) : (setReg h r i v).podVlan = h.podVlan := rfl
@[simp] theorem setReg_podTx (h : Hub) (r : Reg) (i v : Nat) : (setReg h r i v).podTx = h.podTx := rfl
@[simp] theorem setReg_podRx (h : Hub) (r : Reg) (i v : Nat) : (setReg h r i v).podRx = h.podRx := rfl
@[simp] theorem setReg_podAck (h : Hub) (r : Reg) (i v : Nat) : (setReg h r i v).podAck = h.podAck := rfl
@[simp] theorem setReg_podMsgId (h : Hub) (r : Reg) (i v : Nat) : (setReg h r i v).podMsgId = h.podMsgId := rfl
@[simp] theorem setReg_podCh (h : Hub) (r : Reg) (i v : Nat) : (setReg h r i v).podCh = h.podCh := rfl
@[simp] theorem setReg_podRxQ (h : Hub) (r : Reg) (i v : Nat) : (setReg h r i v).podRxQ = h.podRxQ := rfl
@[simp] theorem setReg_podIn (h : Hub) (r : Reg) (i v : Nat) : (setReg h r i v).podIn = h.podIn := rfl
@[simp] theorem setReg_podBar (h : Hub) (r : Reg) (i v : Nat) : (setReg h r i v).podBar = h.podBar := rfl
@[simp] theorem setReg_podHas (h : Hub) (r : Reg) (i v : Nat) : (setReg h r i v).podHas = h.podHas := rfl
@[simp] theorem setReg_pools (h : Hub) (r : Reg) (i v : Nat) : (setReg h r i v).pools = h.pools := rfl
@[simp] theorem setReg_casSlots (h : Hub) (r : Reg) (i v : Nat) : (setReg h r i v).casSlots = h.casSlots := rfl
@[simp] theorem setReg_podGen (h : Hub) (r : Reg) (i v : Nat) : (setReg h r i v).podGen = h.podGen := rfl
@[simp] theorem setReg_podKey (h : Hub) (r : Reg) (i v : Nat) : (setReg h r i v).podKey = h.podKey := rfl
@[simp] theorem setReg_dead (h : Hub) (r : Reg) (i v : Nat) : (setReg h r i v).dead = h.dead := rfl
@[simp] theorem setReg_retried (h : Hub) (r : Reg) (i v : Nat) : (setReg h r i v).retried = h.retried := rfl
@[simp] theorem setReg_warmRun (h : Hub) (r : Reg) (i v : Nat) : (setReg h r i v).warmRun = h.warmRun := rfl
@[simp] theorem setReg_bootMs (h : Hub) (r : Reg) (i v : Nat) : (setReg h r i v).bootMs = h.bootMs := rfl
@[simp] theorem setReg_present (h : Hub) (r : Reg) (i v : Nat) : (setReg h r i v).present = h.present := rfl
@[simp] theorem setReg_trcBuf (h : Hub) (r : Reg) (i v : Nat) : (setReg h r i v).trcBuf = h.trcBuf := rfl
@[simp] theorem setReg_trcN (h : Hub) (r : Reg) (i v : Nat) : (setReg h r i v).trcN = h.trcN := rfl
@[simp] theorem setReg_trcLeft (h : Hub) (r : Reg) (i v : Nat) : (setReg h r i v).trcLeft = h.trcLeft := rfl
@[simp] theorem setReg_redN (h : Hub) (r : Reg) (i v : Nat) : (setReg h r i v).redN = h.redN := rfl
@[simp] theorem setReg_guestImgs (h : Hub) (r : Reg) (i v : Nat) : (setReg h r i v).guestImgs = h.guestImgs := rfl
@[simp] theorem setReg_rimTries (h : Hub) (r : Reg) (i v : Nat) : (setReg h r i v).rimTries = h.rimTries := rfl
@[simp] theorem setReg_wheels (h : Hub) (r : Reg) (i v : Nat) : (setReg h r i v).wheels = h.wheels := rfl
@[simp] theorem setReg_binds (h : Hub) (r : Reg) (i v : Nat) : (setReg h r i v).binds = h.binds := rfl
@[simp] theorem setReg_bindQ (h : Hub) (r : Reg) (i v : Nat) : (setReg h r i v).bindQ = h.bindQ := rfl
@[simp] theorem setReg_mg (h : Hub) (r : Reg) (i v : Nat) : (setReg h r i v).mg = h.mg := rfl
@[simp] theorem setReg_pwr (h : Hub) (r : Reg) (i v : Nat) : (setReg h r i v).pwr = h.pwr := rfl
@[simp] theorem setReg_pcie (h : Hub) (r : Reg) (i v : Nat) : (setReg h r i v).pcie = h.pcie := rfl

/-! ### setFld -/

@[simp] theorem setFld_variant (h : Hub) (f : Fld) (i v : Nat) : (setFld h f i v).variant = h.variant := rfl
@[simp] theorem setFld_od (h : Hub) (f : Fld) (i v : Nat) : (setFld h f i v).od = h.od := rfl
@[simp] theorem setFld_freeN (h : Hub) (f : Fld) (i v : Nat) : (setFld h f i v).freeN = h.freeN := rfl
@[simp] theorem setFld_out (h : Hub) (f : Fld) (i v : Nat) : (setFld h f i v).out = h.out := rfl
@[simp] theorem setFld_hbm (h : Hub) (f : Fld) (i v : Nat) : (setFld h f i v).hbm = h.hbm := rfl
@[simp] theorem setFld_poison (h : Hub) (f : Fld) (i v : Nat) : (setFld h f i v).poison = h.poison := rfl
@[simp] theorem setFld_hostMem (h : Hub) (f : Fld) (i v : Nat) : (setFld h f i v).hostMem = h.hostMem := rfl
@[simp] theorem setFld_hostBuf (h : Hub) (f : Fld) (i v : Nat) : (setFld h f i v).hostBuf = h.hostBuf := rfl
@[simp] theorem setFld_hostHave (h : Hub) (f : Fld) (i v : Nat) : (setFld h f i v).hostHave = h.hostHave := rfl
@[simp] theorem setFld_hostReads (h : Hub) (f : Fld) (i v : Nat) : (setFld h f i v).hostReads = h.hostReads := rfl
@[simp] theorem setFld_live (h : Hub) (f : Fld) (i v : Nat) : (setFld h f i v).live = h.live := rfl
@[simp] theorem setFld_portCap (h : Hub) (f : Fld) (i v : Nat) : (setFld h f i v).portCap = h.portCap := rfl
@[simp] theorem setFld_reserve (h : Hub) (f : Fld) (i v : Nat) : (setFld h f i v).reserve = h.reserve := rfl
@[simp] theorem setFld_hbms (h : Hub) (f : Fld) (i v : Nat) : (setFld h f i v).hbms = h.hbms := rfl
@[simp] theorem setFld_ports (h : Hub) (f : Fld) (i v : Nat) : (setFld h f i v).ports = h.ports := rfl
@[simp] theorem setFld_regions (h : Hub) (f : Fld) (i v : Nat) : (setFld h f i v).regions = h.regions := rfl
@[simp] theorem setFld_dir (h : Hub) (f : Fld) (i v : Nat) : (setFld h f i v).dir = h.dir := rfl
@[simp] theorem setFld_cohTxns (h : Hub) (f : Fld) (i v : Nat) : (setFld h f i v).cohTxns = h.cohTxns := rfl
@[simp] theorem setFld_cohQ (h : Hub) (f : Fld) (i v : Nat) : (setFld h f i v).cohQ = h.cohQ := rfl
@[simp] theorem setFld_cohPend (h : Hub) (f : Fld) (i v : Nat) : (setFld h f i v).cohPend = h.cohPend := rfl
@[simp] theorem setFld_sweeps (h : Hub) (f : Fld) (i v : Nat) : (setFld h f i v).sweeps = h.sweeps := rfl
@[simp] theorem setFld_agents (h : Hub) (f : Fld) (i v : Nat) : (setFld h f i v).agents = h.agents := rfl
@[simp] theorem setFld_agentLines (h : Hub) (f : Fld) (i v : Nat) : (setFld h f i v).agentLines = h.agentLines := rfl
@[simp] theorem setFld_snpOut (h : Hub) (f : Fld) (i v : Nat) : (setFld h f i v).snpOut = h.snpOut := rfl
@[simp] theorem setFld_tc (h : Hub) (f : Fld) (i v : Nat) : (setFld h f i v).tc = h.tc := rfl
@[simp] theorem setFld_tcHold (h : Hub) (f : Fld) (i v : Nat) : (setFld h f i v).tcHold = h.tcHold := rfl
@[simp] theorem setFld_ctlStarts (h : Hub) (f : Fld) (i v : Nat) : (setFld h f i v).ctlStarts = h.ctlStarts := rfl
@[simp] theorem setFld_dataStarts (h : Hub) (f : Fld) (i v : Nat) : (setFld h f i v).dataStarts = h.dataStarts := rfl
@[simp] theorem setFld_resyncFail (h : Hub) (f : Fld) (i v : Nat) : (setFld h f i v).resyncFail = h.resyncFail := rfl
@[simp] theorem setFld_frozenBy (h : Hub) (f : Fld) (i v : Nat) : (setFld h f i v).frozenBy = h.frozenBy := rfl
@[simp] theorem setFld_fatalPend (h : Hub) (f : Fld) (i v : Nat) : (setFld h f i v).fatalPend = h.fatalPend := rfl
@[simp] theorem setFld_dataReset (h : Hub) (f : Fld) (i v : Nat) : (setFld h f i v).dataReset = h.dataReset := rfl
@[simp] theorem setFld_ctlDown (h : Hub) (f : Fld) (i v : Nat) : (setFld h f i v).ctlDown = h.ctlDown := rfl
@[simp] theorem setFld_held (h : Hub) (f : Fld) (i v : Nat) : (setFld h f i v).held = h.held := rfl
@[simp] theorem setFld_notices (h : Hub) (f : Fld) (i v : Nat) : (setFld h f i v).notices = h.notices := rfl
@[simp] theorem setFld_noticeLost (h : Hub) (f : Fld) (i v : Nat) : (setFld h f i v).noticeLost = h.noticeLost := rfl
@[simp] theorem setFld_faultRing (h : Hub) (f : Fld) (i v : Nat) : (setFld h f i v).faultRing = h.faultRing := rfl
@[simp] theorem setFld_faultSeq (h : Hub) (f : Fld) (i v : Nat) : (setFld h f i v).faultSeq = h.faultSeq := rfl
@[simp] theorem setFld_queues (h : Hub) (f : Fld) (i v : Nat) : (setFld h f i v).queues = h.queues := rfl
@[simp] theorem setFld_qnums (h : Hub) (f : Fld) (i v : Nat) : (setFld h f i v).qnums = h.qnums := rfl
@[simp] theorem setFld_cmds (h : Hub) (f : Fld) (i v : Nat) : (setFld h f i v).cmds = h.cmds := rfl
@[simp] theorem setFld_ops (h : Hub) (f : Fld) (i v : Nat) : (setFld h f i v).ops = h.ops := rfl
@[simp] theorem setFld_routes (h : Hub) (f : Fld) (i v : Nat) : (setFld h f i v).routes = h.routes := rfl
@[simp] theorem setFld_redQ (h : Hub) (f : Fld) (i v : Nat) : (setFld h f i v).redQ = h.redQ := rfl
@[simp] theorem setFld_atc (h : Hub) (f : Fld) (i v : Nat) : (setFld h f i v).atc = h.atc := rfl
@[simp] theorem setFld_trReqs (h : Hub) (f : Fld) (i v : Nat) : (setFld h f i v).trReqs = h.trReqs := rfl
@[simp] theorem setFld_invals (h : Hub) (f : Fld) (i v : Nat) : (setFld h f i v).invals = h.invals := rfl
@[simp] theorem setFld_funcs (h : Hub) (f : Fld) (i v : Nat) : (setFld h f i v).funcs = h.funcs := rfl
@[simp] theorem setFld_msix (h : Hub) (f : Fld) (i v : Nat) : (setFld h f i v).msix = h.msix := rfl
@[simp] theorem setFld_teardown (h : Hub) (f : Fld) (i v : Nat) : (setFld h f i v).teardown = h.teardown := rfl
@[simp] theorem setFld_freeAfter (h : Hub) (f : Fld) (i v : Nat) : (setFld h f i v).freeAfter = h.freeAfter := rfl
@[simp] theorem setFld_sems (h : Hub) (f : Fld) (i v : Nat) : (setFld h f i v).sems = h.sems := rfl
@[simp] theorem setFld_waits (h : Hub) (f : Fld) (i v : Nat) : (setFld h f i v).waits = h.waits := rfl
@[simp] theorem setFld_grants (h : Hub) (f : Fld) (i v : Nat) : (setFld h f i v).grants = h.grants := rfl
@[simp] theorem setFld_barriers (h : Hub) (f : Fld) (i v : Nat) : (setFld h f i v).barriers = h.barriers := rfl
@[simp] theorem setFld_parts (h : Hub) (f : Fld) (i v : Nat) : (setFld h f i v).parts = h.parts := rfl
@[simp] theorem setFld_posts (h : Hub) (f : Fld) (i v : Nat) : (setFld h f i v).posts = h.posts := rfl
@[simp] theorem setFld_acqWait (h : Hub) (f : Fld) (i v : Nat) : (setFld h f i v).acqWait = h.acqWait := rfl
@[simp] theorem setFld_guests (h : Hub) (f : Fld) (i v : Nat) : (setFld h f i v).guests = h.guests := rfl
@[simp] theorem setFld_links (h : Hub) (f : Fld) (i v : Nat) : (setFld h f i v).links = h.links := rfl
@[simp] theorem setFld_leases (h : Hub) (f : Fld) (i v : Nat) : (setFld h f i v).leases = h.leases := rfl
@[simp] theorem setFld_strs (h : Hub) (f : Fld) (i v : Nat) : (setFld h f i v).strs = h.strs := rfl
@[simp] theorem setFld_noteRing (h : Hub) (f : Fld) (i v : Nat) : (setFld h f i v).noteRing = h.noteRing := rfl
@[simp] theorem setFld_nseq (h : Hub) (f : Fld) (i v : Nat) : (setFld h f i v).nseq = h.nseq := rfl
@[simp] theorem setFld_notifies (h : Hub) (f : Fld) (i v : Nat) : (setFld h f i v).notifies = h.notifies := rfl
@[simp] theorem setFld_notifySeq (h : Hub) (f : Fld) (i v : Nat) : (setFld h f i v).notifySeq = h.notifySeq := rfl
@[simp] theorem setFld_todo (h : Hub) (f : Fld) (i v : Nat) : (setFld h f i v).todo = h.todo := rfl
@[simp] theorem setFld_podId (h : Hub) (f : Fld) (i v : Nat) : (setFld h f i v).podId = h.podId := rfl
@[simp] theorem setFld_podMgr (h : Hub) (f : Fld) (i v : Nat) : (setFld h f i v).podMgr = h.podMgr := rfl
@[simp] theorem setFld_podEther (h : Hub) (f : Fld) (i v : Nat) : (setFld h f i v).podEther = h.podEther := rfl
@[simp] theorem setFld_podVlan (h : Hub) (f : Fld) (i v : Nat) : (setFld h f i v).podVlan = h.podVlan := rfl
@[simp] theorem setFld_podTx (h : Hub) (f : Fld) (i v : Nat) : (setFld h f i v).podTx = h.podTx := rfl
@[simp] theorem setFld_podRx (h : Hub) (f : Fld) (i v : Nat) : (setFld h f i v).podRx = h.podRx := rfl
@[simp] theorem setFld_podAck (h : Hub) (f : Fld) (i v : Nat) : (setFld h f i v).podAck = h.podAck := rfl
@[simp] theorem setFld_podMsgId (h : Hub) (f : Fld) (i v : Nat) : (setFld h f i v).podMsgId = h.podMsgId := rfl
@[simp] theorem setFld_podCh (h : Hub) (f : Fld) (i v : Nat) : (setFld h f i v).podCh = h.podCh := rfl
@[simp] theorem setFld_podRxQ (h : Hub) (f : Fld) (i v : Nat) : (setFld h f i v).podRxQ = h.podRxQ := rfl
@[simp] theorem setFld_podIn (h : Hub) (f : Fld) (i v : Nat) : (setFld h f i v).podIn = h.podIn := rfl
@[simp] theorem setFld_podBar (h : Hub) (f : Fld) (i v : Nat) : (setFld h f i v).podBar = h.podBar := rfl
@[simp] theorem setFld_podHas (h : Hub) (f : Fld) (i v : Nat) : (setFld h f i v).podHas = h.podHas := rfl
@[simp] theorem setFld_pools (h : Hub) (f : Fld) (i v : Nat) : (setFld h f i v).pools = h.pools := rfl
@[simp] theorem setFld_casSlots (h : Hub) (f : Fld) (i v : Nat) : (setFld h f i v).casSlots = h.casSlots := rfl
@[simp] theorem setFld_podGen (h : Hub) (f : Fld) (i v : Nat) : (setFld h f i v).podGen = h.podGen := rfl
@[simp] theorem setFld_podKey (h : Hub) (f : Fld) (i v : Nat) : (setFld h f i v).podKey = h.podKey := rfl
@[simp] theorem setFld_dead (h : Hub) (f : Fld) (i v : Nat) : (setFld h f i v).dead = h.dead := rfl
@[simp] theorem setFld_retried (h : Hub) (f : Fld) (i v : Nat) : (setFld h f i v).retried = h.retried := rfl
@[simp] theorem setFld_warmRun (h : Hub) (f : Fld) (i v : Nat) : (setFld h f i v).warmRun = h.warmRun := rfl
@[simp] theorem setFld_bootMs (h : Hub) (f : Fld) (i v : Nat) : (setFld h f i v).bootMs = h.bootMs := rfl
@[simp] theorem setFld_present (h : Hub) (f : Fld) (i v : Nat) : (setFld h f i v).present = h.present := rfl
@[simp] theorem setFld_trcBuf (h : Hub) (f : Fld) (i v : Nat) : (setFld h f i v).trcBuf = h.trcBuf := rfl
@[simp] theorem setFld_trcN (h : Hub) (f : Fld) (i v : Nat) : (setFld h f i v).trcN = h.trcN := rfl
@[simp] theorem setFld_trcLeft (h : Hub) (f : Fld) (i v : Nat) : (setFld h f i v).trcLeft = h.trcLeft := rfl
@[simp] theorem setFld_redN (h : Hub) (f : Fld) (i v : Nat) : (setFld h f i v).redN = h.redN := rfl
@[simp] theorem setFld_guestImgs (h : Hub) (f : Fld) (i v : Nat) : (setFld h f i v).guestImgs = h.guestImgs := rfl
@[simp] theorem setFld_rimTries (h : Hub) (f : Fld) (i v : Nat) : (setFld h f i v).rimTries = h.rimTries := rfl
@[simp] theorem setFld_wheels (h : Hub) (f : Fld) (i v : Nat) : (setFld h f i v).wheels = h.wheels := rfl
@[simp] theorem setFld_binds (h : Hub) (f : Fld) (i v : Nat) : (setFld h f i v).binds = h.binds := rfl
@[simp] theorem setFld_bindQ (h : Hub) (f : Fld) (i v : Nat) : (setFld h f i v).bindQ = h.bindQ := rfl
@[simp] theorem setFld_mg (h : Hub) (f : Fld) (i v : Nat) : (setFld h f i v).mg = h.mg := rfl
@[simp] theorem setFld_pwr (h : Hub) (f : Fld) (i v : Nat) : (setFld h f i v).pwr = h.pwr := rfl
@[simp] theorem setFld_pcie (h : Hub) (f : Fld) (i v : Nat) : (setFld h f i v).pcie = h.pcie := rfl

/-! ### addFld -/

@[simp] theorem addFld_variant (h : Hub) (f : Fld) (i v : Nat) : (addFld h f i v).variant = h.variant := rfl
@[simp] theorem addFld_od (h : Hub) (f : Fld) (i v : Nat) : (addFld h f i v).od = h.od := rfl
@[simp] theorem addFld_freeN (h : Hub) (f : Fld) (i v : Nat) : (addFld h f i v).freeN = h.freeN := rfl
@[simp] theorem addFld_out (h : Hub) (f : Fld) (i v : Nat) : (addFld h f i v).out = h.out := rfl
@[simp] theorem addFld_hbm (h : Hub) (f : Fld) (i v : Nat) : (addFld h f i v).hbm = h.hbm := rfl
@[simp] theorem addFld_poison (h : Hub) (f : Fld) (i v : Nat) : (addFld h f i v).poison = h.poison := rfl
@[simp] theorem addFld_hostMem (h : Hub) (f : Fld) (i v : Nat) : (addFld h f i v).hostMem = h.hostMem := rfl
@[simp] theorem addFld_hostBuf (h : Hub) (f : Fld) (i v : Nat) : (addFld h f i v).hostBuf = h.hostBuf := rfl
@[simp] theorem addFld_hostHave (h : Hub) (f : Fld) (i v : Nat) : (addFld h f i v).hostHave = h.hostHave := rfl
@[simp] theorem addFld_hostReads (h : Hub) (f : Fld) (i v : Nat) : (addFld h f i v).hostReads = h.hostReads := rfl
@[simp] theorem addFld_live (h : Hub) (f : Fld) (i v : Nat) : (addFld h f i v).live = h.live := rfl
@[simp] theorem addFld_portCap (h : Hub) (f : Fld) (i v : Nat) : (addFld h f i v).portCap = h.portCap := rfl
@[simp] theorem addFld_reserve (h : Hub) (f : Fld) (i v : Nat) : (addFld h f i v).reserve = h.reserve := rfl
@[simp] theorem addFld_hbms (h : Hub) (f : Fld) (i v : Nat) : (addFld h f i v).hbms = h.hbms := rfl
@[simp] theorem addFld_ports (h : Hub) (f : Fld) (i v : Nat) : (addFld h f i v).ports = h.ports := rfl
@[simp] theorem addFld_regions (h : Hub) (f : Fld) (i v : Nat) : (addFld h f i v).regions = h.regions := rfl
@[simp] theorem addFld_dir (h : Hub) (f : Fld) (i v : Nat) : (addFld h f i v).dir = h.dir := rfl
@[simp] theorem addFld_cohTxns (h : Hub) (f : Fld) (i v : Nat) : (addFld h f i v).cohTxns = h.cohTxns := rfl
@[simp] theorem addFld_cohQ (h : Hub) (f : Fld) (i v : Nat) : (addFld h f i v).cohQ = h.cohQ := rfl
@[simp] theorem addFld_cohPend (h : Hub) (f : Fld) (i v : Nat) : (addFld h f i v).cohPend = h.cohPend := rfl
@[simp] theorem addFld_sweeps (h : Hub) (f : Fld) (i v : Nat) : (addFld h f i v).sweeps = h.sweeps := rfl
@[simp] theorem addFld_agents (h : Hub) (f : Fld) (i v : Nat) : (addFld h f i v).agents = h.agents := rfl
@[simp] theorem addFld_agentLines (h : Hub) (f : Fld) (i v : Nat) : (addFld h f i v).agentLines = h.agentLines := rfl
@[simp] theorem addFld_snpOut (h : Hub) (f : Fld) (i v : Nat) : (addFld h f i v).snpOut = h.snpOut := rfl
@[simp] theorem addFld_tc (h : Hub) (f : Fld) (i v : Nat) : (addFld h f i v).tc = h.tc := rfl
@[simp] theorem addFld_tcHold (h : Hub) (f : Fld) (i v : Nat) : (addFld h f i v).tcHold = h.tcHold := rfl
@[simp] theorem addFld_ctlStarts (h : Hub) (f : Fld) (i v : Nat) : (addFld h f i v).ctlStarts = h.ctlStarts := rfl
@[simp] theorem addFld_dataStarts (h : Hub) (f : Fld) (i v : Nat) : (addFld h f i v).dataStarts = h.dataStarts := rfl
@[simp] theorem addFld_resyncFail (h : Hub) (f : Fld) (i v : Nat) : (addFld h f i v).resyncFail = h.resyncFail := rfl
@[simp] theorem addFld_frozenBy (h : Hub) (f : Fld) (i v : Nat) : (addFld h f i v).frozenBy = h.frozenBy := rfl
@[simp] theorem addFld_fatalPend (h : Hub) (f : Fld) (i v : Nat) : (addFld h f i v).fatalPend = h.fatalPend := rfl
@[simp] theorem addFld_dataReset (h : Hub) (f : Fld) (i v : Nat) : (addFld h f i v).dataReset = h.dataReset := rfl
@[simp] theorem addFld_ctlDown (h : Hub) (f : Fld) (i v : Nat) : (addFld h f i v).ctlDown = h.ctlDown := rfl
@[simp] theorem addFld_held (h : Hub) (f : Fld) (i v : Nat) : (addFld h f i v).held = h.held := rfl
@[simp] theorem addFld_notices (h : Hub) (f : Fld) (i v : Nat) : (addFld h f i v).notices = h.notices := rfl
@[simp] theorem addFld_noticeLost (h : Hub) (f : Fld) (i v : Nat) : (addFld h f i v).noticeLost = h.noticeLost := rfl
@[simp] theorem addFld_faultRing (h : Hub) (f : Fld) (i v : Nat) : (addFld h f i v).faultRing = h.faultRing := rfl
@[simp] theorem addFld_faultSeq (h : Hub) (f : Fld) (i v : Nat) : (addFld h f i v).faultSeq = h.faultSeq := rfl
@[simp] theorem addFld_queues (h : Hub) (f : Fld) (i v : Nat) : (addFld h f i v).queues = h.queues := rfl
@[simp] theorem addFld_qnums (h : Hub) (f : Fld) (i v : Nat) : (addFld h f i v).qnums = h.qnums := rfl
@[simp] theorem addFld_cmds (h : Hub) (f : Fld) (i v : Nat) : (addFld h f i v).cmds = h.cmds := rfl
@[simp] theorem addFld_ops (h : Hub) (f : Fld) (i v : Nat) : (addFld h f i v).ops = h.ops := rfl
@[simp] theorem addFld_routes (h : Hub) (f : Fld) (i v : Nat) : (addFld h f i v).routes = h.routes := rfl
@[simp] theorem addFld_redQ (h : Hub) (f : Fld) (i v : Nat) : (addFld h f i v).redQ = h.redQ := rfl
@[simp] theorem addFld_atc (h : Hub) (f : Fld) (i v : Nat) : (addFld h f i v).atc = h.atc := rfl
@[simp] theorem addFld_trReqs (h : Hub) (f : Fld) (i v : Nat) : (addFld h f i v).trReqs = h.trReqs := rfl
@[simp] theorem addFld_invals (h : Hub) (f : Fld) (i v : Nat) : (addFld h f i v).invals = h.invals := rfl
@[simp] theorem addFld_funcs (h : Hub) (f : Fld) (i v : Nat) : (addFld h f i v).funcs = h.funcs := rfl
@[simp] theorem addFld_msix (h : Hub) (f : Fld) (i v : Nat) : (addFld h f i v).msix = h.msix := rfl
@[simp] theorem addFld_teardown (h : Hub) (f : Fld) (i v : Nat) : (addFld h f i v).teardown = h.teardown := rfl
@[simp] theorem addFld_freeAfter (h : Hub) (f : Fld) (i v : Nat) : (addFld h f i v).freeAfter = h.freeAfter := rfl
@[simp] theorem addFld_sems (h : Hub) (f : Fld) (i v : Nat) : (addFld h f i v).sems = h.sems := rfl
@[simp] theorem addFld_waits (h : Hub) (f : Fld) (i v : Nat) : (addFld h f i v).waits = h.waits := rfl
@[simp] theorem addFld_grants (h : Hub) (f : Fld) (i v : Nat) : (addFld h f i v).grants = h.grants := rfl
@[simp] theorem addFld_barriers (h : Hub) (f : Fld) (i v : Nat) : (addFld h f i v).barriers = h.barriers := rfl
@[simp] theorem addFld_parts (h : Hub) (f : Fld) (i v : Nat) : (addFld h f i v).parts = h.parts := rfl
@[simp] theorem addFld_posts (h : Hub) (f : Fld) (i v : Nat) : (addFld h f i v).posts = h.posts := rfl
@[simp] theorem addFld_acqWait (h : Hub) (f : Fld) (i v : Nat) : (addFld h f i v).acqWait = h.acqWait := rfl
@[simp] theorem addFld_guests (h : Hub) (f : Fld) (i v : Nat) : (addFld h f i v).guests = h.guests := rfl
@[simp] theorem addFld_links (h : Hub) (f : Fld) (i v : Nat) : (addFld h f i v).links = h.links := rfl
@[simp] theorem addFld_leases (h : Hub) (f : Fld) (i v : Nat) : (addFld h f i v).leases = h.leases := rfl
@[simp] theorem addFld_strs (h : Hub) (f : Fld) (i v : Nat) : (addFld h f i v).strs = h.strs := rfl
@[simp] theorem addFld_noteRing (h : Hub) (f : Fld) (i v : Nat) : (addFld h f i v).noteRing = h.noteRing := rfl
@[simp] theorem addFld_nseq (h : Hub) (f : Fld) (i v : Nat) : (addFld h f i v).nseq = h.nseq := rfl
@[simp] theorem addFld_notifies (h : Hub) (f : Fld) (i v : Nat) : (addFld h f i v).notifies = h.notifies := rfl
@[simp] theorem addFld_notifySeq (h : Hub) (f : Fld) (i v : Nat) : (addFld h f i v).notifySeq = h.notifySeq := rfl
@[simp] theorem addFld_todo (h : Hub) (f : Fld) (i v : Nat) : (addFld h f i v).todo = h.todo := rfl
@[simp] theorem addFld_podId (h : Hub) (f : Fld) (i v : Nat) : (addFld h f i v).podId = h.podId := rfl
@[simp] theorem addFld_podMgr (h : Hub) (f : Fld) (i v : Nat) : (addFld h f i v).podMgr = h.podMgr := rfl
@[simp] theorem addFld_podEther (h : Hub) (f : Fld) (i v : Nat) : (addFld h f i v).podEther = h.podEther := rfl
@[simp] theorem addFld_podVlan (h : Hub) (f : Fld) (i v : Nat) : (addFld h f i v).podVlan = h.podVlan := rfl
@[simp] theorem addFld_podTx (h : Hub) (f : Fld) (i v : Nat) : (addFld h f i v).podTx = h.podTx := rfl
@[simp] theorem addFld_podRx (h : Hub) (f : Fld) (i v : Nat) : (addFld h f i v).podRx = h.podRx := rfl
@[simp] theorem addFld_podAck (h : Hub) (f : Fld) (i v : Nat) : (addFld h f i v).podAck = h.podAck := rfl
@[simp] theorem addFld_podMsgId (h : Hub) (f : Fld) (i v : Nat) : (addFld h f i v).podMsgId = h.podMsgId := rfl
@[simp] theorem addFld_podCh (h : Hub) (f : Fld) (i v : Nat) : (addFld h f i v).podCh = h.podCh := rfl
@[simp] theorem addFld_podRxQ (h : Hub) (f : Fld) (i v : Nat) : (addFld h f i v).podRxQ = h.podRxQ := rfl
@[simp] theorem addFld_podIn (h : Hub) (f : Fld) (i v : Nat) : (addFld h f i v).podIn = h.podIn := rfl
@[simp] theorem addFld_podBar (h : Hub) (f : Fld) (i v : Nat) : (addFld h f i v).podBar = h.podBar := rfl
@[simp] theorem addFld_podHas (h : Hub) (f : Fld) (i v : Nat) : (addFld h f i v).podHas = h.podHas := rfl
@[simp] theorem addFld_pools (h : Hub) (f : Fld) (i v : Nat) : (addFld h f i v).pools = h.pools := rfl
@[simp] theorem addFld_casSlots (h : Hub) (f : Fld) (i v : Nat) : (addFld h f i v).casSlots = h.casSlots := rfl
@[simp] theorem addFld_podGen (h : Hub) (f : Fld) (i v : Nat) : (addFld h f i v).podGen = h.podGen := rfl
@[simp] theorem addFld_podKey (h : Hub) (f : Fld) (i v : Nat) : (addFld h f i v).podKey = h.podKey := rfl
@[simp] theorem addFld_dead (h : Hub) (f : Fld) (i v : Nat) : (addFld h f i v).dead = h.dead := rfl
@[simp] theorem addFld_retried (h : Hub) (f : Fld) (i v : Nat) : (addFld h f i v).retried = h.retried := rfl
@[simp] theorem addFld_warmRun (h : Hub) (f : Fld) (i v : Nat) : (addFld h f i v).warmRun = h.warmRun := rfl
@[simp] theorem addFld_bootMs (h : Hub) (f : Fld) (i v : Nat) : (addFld h f i v).bootMs = h.bootMs := rfl
@[simp] theorem addFld_present (h : Hub) (f : Fld) (i v : Nat) : (addFld h f i v).present = h.present := rfl
@[simp] theorem addFld_trcBuf (h : Hub) (f : Fld) (i v : Nat) : (addFld h f i v).trcBuf = h.trcBuf := rfl
@[simp] theorem addFld_trcN (h : Hub) (f : Fld) (i v : Nat) : (addFld h f i v).trcN = h.trcN := rfl
@[simp] theorem addFld_trcLeft (h : Hub) (f : Fld) (i v : Nat) : (addFld h f i v).trcLeft = h.trcLeft := rfl
@[simp] theorem addFld_redN (h : Hub) (f : Fld) (i v : Nat) : (addFld h f i v).redN = h.redN := rfl
@[simp] theorem addFld_guestImgs (h : Hub) (f : Fld) (i v : Nat) : (addFld h f i v).guestImgs = h.guestImgs := rfl
@[simp] theorem addFld_rimTries (h : Hub) (f : Fld) (i v : Nat) : (addFld h f i v).rimTries = h.rimTries := rfl
@[simp] theorem addFld_wheels (h : Hub) (f : Fld) (i v : Nat) : (addFld h f i v).wheels = h.wheels := rfl
@[simp] theorem addFld_binds (h : Hub) (f : Fld) (i v : Nat) : (addFld h f i v).binds = h.binds := rfl
@[simp] theorem addFld_bindQ (h : Hub) (f : Fld) (i v : Nat) : (addFld h f i v).bindQ = h.bindQ := rfl
@[simp] theorem addFld_mg (h : Hub) (f : Fld) (i v : Nat) : (addFld h f i v).mg = h.mg := rfl
@[simp] theorem addFld_pwr (h : Hub) (f : Fld) (i v : Nat) : (addFld h f i v).pwr = h.pwr := rfl
@[simp] theorem addFld_pcie (h : Hub) (f : Fld) (i v : Nat) : (addFld h f i v).pcie = h.pcie := rfl

/-! ### emit -/

@[simp] theorem emit_variant (h : Hub) (k : OutKind) (d : Nat) (a : List Nat) (b : List Byte) : (emit h k d a b).variant = h.variant := rfl
@[simp] theorem emit_regs (h : Hub) (k : OutKind) (d : Nat) (a : List Nat) (b : List Byte) : (emit h k d a b).regs = h.regs := rfl
@[simp] theorem emit_od (h : Hub) (k : OutKind) (d : Nat) (a : List Nat) (b : List Byte) : (emit h k d a b).od = h.od := rfl
@[simp] theorem emit_freeN (h : Hub) (k : OutKind) (d : Nat) (a : List Nat) (b : List Byte) : (emit h k d a b).freeN = h.freeN := rfl
@[simp] theorem emit_hbm (h : Hub) (k : OutKind) (d : Nat) (a : List Nat) (b : List Byte) : (emit h k d a b).hbm = h.hbm := rfl
@[simp] theorem emit_poison (h : Hub) (k : OutKind) (d : Nat) (a : List Nat) (b : List Byte) : (emit h k d a b).poison = h.poison := rfl
@[simp] theorem emit_hostMem (h : Hub) (k : OutKind) (d : Nat) (a : List Nat) (b : List Byte) : (emit h k d a b).hostMem = h.hostMem := rfl
@[simp] theorem emit_hostBuf (h : Hub) (k : OutKind) (d : Nat) (a : List Nat) (b : List Byte) : (emit h k d a b).hostBuf = h.hostBuf := rfl
@[simp] theorem emit_hostHave (h : Hub) (k : OutKind) (d : Nat) (a : List Nat) (b : List Byte) : (emit h k d a b).hostHave = h.hostHave := rfl
@[simp] theorem emit_hostReads (h : Hub) (k : OutKind) (d : Nat) (a : List Nat) (b : List Byte) : (emit h k d a b).hostReads = h.hostReads := rfl
@[simp] theorem emit_live (h : Hub) (k : OutKind) (d : Nat) (a : List Nat) (b : List Byte) : (emit h k d a b).live = h.live := rfl
@[simp] theorem emit_portCap (h : Hub) (k : OutKind) (d : Nat) (a : List Nat) (b : List Byte) : (emit h k d a b).portCap = h.portCap := rfl
@[simp] theorem emit_reserve (h : Hub) (k : OutKind) (d : Nat) (a : List Nat) (b : List Byte) : (emit h k d a b).reserve = h.reserve := rfl
@[simp] theorem emit_hbms (h : Hub) (k : OutKind) (d : Nat) (a : List Nat) (b : List Byte) : (emit h k d a b).hbms = h.hbms := rfl
@[simp] theorem emit_ports (h : Hub) (k : OutKind) (d : Nat) (a : List Nat) (b : List Byte) : (emit h k d a b).ports = h.ports := rfl
@[simp] theorem emit_regions (h : Hub) (k : OutKind) (d : Nat) (a : List Nat) (b : List Byte) : (emit h k d a b).regions = h.regions := rfl
@[simp] theorem emit_dir (h : Hub) (k : OutKind) (d : Nat) (a : List Nat) (b : List Byte) : (emit h k d a b).dir = h.dir := rfl
@[simp] theorem emit_cohTxns (h : Hub) (k : OutKind) (d : Nat) (a : List Nat) (b : List Byte) : (emit h k d a b).cohTxns = h.cohTxns := rfl
@[simp] theorem emit_cohQ (h : Hub) (k : OutKind) (d : Nat) (a : List Nat) (b : List Byte) : (emit h k d a b).cohQ = h.cohQ := rfl
@[simp] theorem emit_cohPend (h : Hub) (k : OutKind) (d : Nat) (a : List Nat) (b : List Byte) : (emit h k d a b).cohPend = h.cohPend := rfl
@[simp] theorem emit_sweeps (h : Hub) (k : OutKind) (d : Nat) (a : List Nat) (b : List Byte) : (emit h k d a b).sweeps = h.sweeps := rfl
@[simp] theorem emit_agents (h : Hub) (k : OutKind) (d : Nat) (a : List Nat) (b : List Byte) : (emit h k d a b).agents = h.agents := rfl
@[simp] theorem emit_agentLines (h : Hub) (k : OutKind) (d : Nat) (a : List Nat) (b : List Byte) : (emit h k d a b).agentLines = h.agentLines := rfl
@[simp] theorem emit_snpOut (h : Hub) (k : OutKind) (d : Nat) (a : List Nat) (b : List Byte) : (emit h k d a b).snpOut = h.snpOut := rfl
@[simp] theorem emit_tc (h : Hub) (k : OutKind) (d : Nat) (a : List Nat) (b : List Byte) : (emit h k d a b).tc = h.tc := rfl
@[simp] theorem emit_tcHold (h : Hub) (k : OutKind) (d : Nat) (a : List Nat) (b : List Byte) : (emit h k d a b).tcHold = h.tcHold := rfl
@[simp] theorem emit_ctlStarts (h : Hub) (k : OutKind) (d : Nat) (a : List Nat) (b : List Byte) : (emit h k d a b).ctlStarts = h.ctlStarts := rfl
@[simp] theorem emit_dataStarts (h : Hub) (k : OutKind) (d : Nat) (a : List Nat) (b : List Byte) : (emit h k d a b).dataStarts = h.dataStarts := rfl
@[simp] theorem emit_resyncFail (h : Hub) (k : OutKind) (d : Nat) (a : List Nat) (b : List Byte) : (emit h k d a b).resyncFail = h.resyncFail := rfl
@[simp] theorem emit_frozenBy (h : Hub) (k : OutKind) (d : Nat) (a : List Nat) (b : List Byte) : (emit h k d a b).frozenBy = h.frozenBy := rfl
@[simp] theorem emit_fatalPend (h : Hub) (k : OutKind) (d : Nat) (a : List Nat) (b : List Byte) : (emit h k d a b).fatalPend = h.fatalPend := rfl
@[simp] theorem emit_dataReset (h : Hub) (k : OutKind) (d : Nat) (a : List Nat) (b : List Byte) : (emit h k d a b).dataReset = h.dataReset := rfl
@[simp] theorem emit_ctlDown (h : Hub) (k : OutKind) (d : Nat) (a : List Nat) (b : List Byte) : (emit h k d a b).ctlDown = h.ctlDown := rfl
@[simp] theorem emit_held (h : Hub) (k : OutKind) (d : Nat) (a : List Nat) (b : List Byte) : (emit h k d a b).held = h.held := rfl
@[simp] theorem emit_notices (h : Hub) (k : OutKind) (d : Nat) (a : List Nat) (b : List Byte) : (emit h k d a b).notices = h.notices := rfl
@[simp] theorem emit_noticeLost (h : Hub) (k : OutKind) (d : Nat) (a : List Nat) (b : List Byte) : (emit h k d a b).noticeLost = h.noticeLost := rfl
@[simp] theorem emit_faultRing (h : Hub) (k : OutKind) (d : Nat) (a : List Nat) (b : List Byte) : (emit h k d a b).faultRing = h.faultRing := rfl
@[simp] theorem emit_faultSeq (h : Hub) (k : OutKind) (d : Nat) (a : List Nat) (b : List Byte) : (emit h k d a b).faultSeq = h.faultSeq := rfl
@[simp] theorem emit_queues (h : Hub) (k : OutKind) (d : Nat) (a : List Nat) (b : List Byte) : (emit h k d a b).queues = h.queues := rfl
@[simp] theorem emit_qnums (h : Hub) (k : OutKind) (d : Nat) (a : List Nat) (b : List Byte) : (emit h k d a b).qnums = h.qnums := rfl
@[simp] theorem emit_cmds (h : Hub) (k : OutKind) (d : Nat) (a : List Nat) (b : List Byte) : (emit h k d a b).cmds = h.cmds := rfl
@[simp] theorem emit_ops (h : Hub) (k : OutKind) (d : Nat) (a : List Nat) (b : List Byte) : (emit h k d a b).ops = h.ops := rfl
@[simp] theorem emit_routes (h : Hub) (k : OutKind) (d : Nat) (a : List Nat) (b : List Byte) : (emit h k d a b).routes = h.routes := rfl
@[simp] theorem emit_redQ (h : Hub) (k : OutKind) (d : Nat) (a : List Nat) (b : List Byte) : (emit h k d a b).redQ = h.redQ := rfl
@[simp] theorem emit_atc (h : Hub) (k : OutKind) (d : Nat) (a : List Nat) (b : List Byte) : (emit h k d a b).atc = h.atc := rfl
@[simp] theorem emit_trReqs (h : Hub) (k : OutKind) (d : Nat) (a : List Nat) (b : List Byte) : (emit h k d a b).trReqs = h.trReqs := rfl
@[simp] theorem emit_invals (h : Hub) (k : OutKind) (d : Nat) (a : List Nat) (b : List Byte) : (emit h k d a b).invals = h.invals := rfl
@[simp] theorem emit_funcs (h : Hub) (k : OutKind) (d : Nat) (a : List Nat) (b : List Byte) : (emit h k d a b).funcs = h.funcs := rfl
@[simp] theorem emit_msix (h : Hub) (k : OutKind) (d : Nat) (a : List Nat) (b : List Byte) : (emit h k d a b).msix = h.msix := rfl
@[simp] theorem emit_teardown (h : Hub) (k : OutKind) (d : Nat) (a : List Nat) (b : List Byte) : (emit h k d a b).teardown = h.teardown := rfl
@[simp] theorem emit_freeAfter (h : Hub) (k : OutKind) (d : Nat) (a : List Nat) (b : List Byte) : (emit h k d a b).freeAfter = h.freeAfter := rfl
@[simp] theorem emit_sems (h : Hub) (k : OutKind) (d : Nat) (a : List Nat) (b : List Byte) : (emit h k d a b).sems = h.sems := rfl
@[simp] theorem emit_waits (h : Hub) (k : OutKind) (d : Nat) (a : List Nat) (b : List Byte) : (emit h k d a b).waits = h.waits := rfl
@[simp] theorem emit_grants (h : Hub) (k : OutKind) (d : Nat) (a : List Nat) (b : List Byte) : (emit h k d a b).grants = h.grants := rfl
@[simp] theorem emit_barriers (h : Hub) (k : OutKind) (d : Nat) (a : List Nat) (b : List Byte) : (emit h k d a b).barriers = h.barriers := rfl
@[simp] theorem emit_parts (h : Hub) (k : OutKind) (d : Nat) (a : List Nat) (b : List Byte) : (emit h k d a b).parts = h.parts := rfl
@[simp] theorem emit_posts (h : Hub) (k : OutKind) (d : Nat) (a : List Nat) (b : List Byte) : (emit h k d a b).posts = h.posts := rfl
@[simp] theorem emit_acqWait (h : Hub) (k : OutKind) (d : Nat) (a : List Nat) (b : List Byte) : (emit h k d a b).acqWait = h.acqWait := rfl
@[simp] theorem emit_guests (h : Hub) (k : OutKind) (d : Nat) (a : List Nat) (b : List Byte) : (emit h k d a b).guests = h.guests := rfl
@[simp] theorem emit_links (h : Hub) (k : OutKind) (d : Nat) (a : List Nat) (b : List Byte) : (emit h k d a b).links = h.links := rfl
@[simp] theorem emit_leases (h : Hub) (k : OutKind) (d : Nat) (a : List Nat) (b : List Byte) : (emit h k d a b).leases = h.leases := rfl
@[simp] theorem emit_strs (h : Hub) (k : OutKind) (d : Nat) (a : List Nat) (b : List Byte) : (emit h k d a b).strs = h.strs := rfl
@[simp] theorem emit_noteRing (h : Hub) (k : OutKind) (d : Nat) (a : List Nat) (b : List Byte) : (emit h k d a b).noteRing = h.noteRing := rfl
@[simp] theorem emit_nseq (h : Hub) (k : OutKind) (d : Nat) (a : List Nat) (b : List Byte) : (emit h k d a b).nseq = h.nseq := rfl
@[simp] theorem emit_notifies (h : Hub) (k : OutKind) (d : Nat) (a : List Nat) (b : List Byte) : (emit h k d a b).notifies = h.notifies := rfl
@[simp] theorem emit_notifySeq (h : Hub) (k : OutKind) (d : Nat) (a : List Nat) (b : List Byte) : (emit h k d a b).notifySeq = h.notifySeq := rfl
@[simp] theorem emit_todo (h : Hub) (k : OutKind) (d : Nat) (a : List Nat) (b : List Byte) : (emit h k d a b).todo = h.todo := rfl
@[simp] theorem emit_podId (h : Hub) (k : OutKind) (d : Nat) (a : List Nat) (b : List Byte) : (emit h k d a b).podId = h.podId := rfl
@[simp] theorem emit_podMgr (h : Hub) (k : OutKind) (d : Nat) (a : List Nat) (b : List Byte) : (emit h k d a b).podMgr = h.podMgr := rfl
@[simp] theorem emit_podEther (h : Hub) (k : OutKind) (d : Nat) (a : List Nat) (b : List Byte) : (emit h k d a b).podEther = h.podEther := rfl
@[simp] theorem emit_podVlan (h : Hub) (k : OutKind) (d : Nat) (a : List Nat) (b : List Byte) : (emit h k d a b).podVlan = h.podVlan := rfl
@[simp] theorem emit_podTx (h : Hub) (k : OutKind) (d : Nat) (a : List Nat) (b : List Byte) : (emit h k d a b).podTx = h.podTx := rfl
@[simp] theorem emit_podRx (h : Hub) (k : OutKind) (d : Nat) (a : List Nat) (b : List Byte) : (emit h k d a b).podRx = h.podRx := rfl
@[simp] theorem emit_podAck (h : Hub) (k : OutKind) (d : Nat) (a : List Nat) (b : List Byte) : (emit h k d a b).podAck = h.podAck := rfl
@[simp] theorem emit_podMsgId (h : Hub) (k : OutKind) (d : Nat) (a : List Nat) (b : List Byte) : (emit h k d a b).podMsgId = h.podMsgId := rfl
@[simp] theorem emit_podCh (h : Hub) (k : OutKind) (d : Nat) (a : List Nat) (b : List Byte) : (emit h k d a b).podCh = h.podCh := rfl
@[simp] theorem emit_podRxQ (h : Hub) (k : OutKind) (d : Nat) (a : List Nat) (b : List Byte) : (emit h k d a b).podRxQ = h.podRxQ := rfl
@[simp] theorem emit_podIn (h : Hub) (k : OutKind) (d : Nat) (a : List Nat) (b : List Byte) : (emit h k d a b).podIn = h.podIn := rfl
@[simp] theorem emit_podBar (h : Hub) (k : OutKind) (d : Nat) (a : List Nat) (b : List Byte) : (emit h k d a b).podBar = h.podBar := rfl
@[simp] theorem emit_podHas (h : Hub) (k : OutKind) (d : Nat) (a : List Nat) (b : List Byte) : (emit h k d a b).podHas = h.podHas := rfl
@[simp] theorem emit_pools (h : Hub) (k : OutKind) (d : Nat) (a : List Nat) (b : List Byte) : (emit h k d a b).pools = h.pools := rfl
@[simp] theorem emit_casSlots (h : Hub) (k : OutKind) (d : Nat) (a : List Nat) (b : List Byte) : (emit h k d a b).casSlots = h.casSlots := rfl
@[simp] theorem emit_podGen (h : Hub) (k : OutKind) (d : Nat) (a : List Nat) (b : List Byte) : (emit h k d a b).podGen = h.podGen := rfl
@[simp] theorem emit_podKey (h : Hub) (k : OutKind) (d : Nat) (a : List Nat) (b : List Byte) : (emit h k d a b).podKey = h.podKey := rfl
@[simp] theorem emit_dead (h : Hub) (k : OutKind) (d : Nat) (a : List Nat) (b : List Byte) : (emit h k d a b).dead = h.dead := rfl
@[simp] theorem emit_retried (h : Hub) (k : OutKind) (d : Nat) (a : List Nat) (b : List Byte) : (emit h k d a b).retried = h.retried := rfl
@[simp] theorem emit_warmRun (h : Hub) (k : OutKind) (d : Nat) (a : List Nat) (b : List Byte) : (emit h k d a b).warmRun = h.warmRun := rfl
@[simp] theorem emit_bootMs (h : Hub) (k : OutKind) (d : Nat) (a : List Nat) (b : List Byte) : (emit h k d a b).bootMs = h.bootMs := rfl
@[simp] theorem emit_present (h : Hub) (k : OutKind) (d : Nat) (a : List Nat) (b : List Byte) : (emit h k d a b).present = h.present := rfl
@[simp] theorem emit_trcBuf (h : Hub) (k : OutKind) (d : Nat) (a : List Nat) (b : List Byte) : (emit h k d a b).trcBuf = h.trcBuf := rfl
@[simp] theorem emit_trcN (h : Hub) (k : OutKind) (d : Nat) (a : List Nat) (b : List Byte) : (emit h k d a b).trcN = h.trcN := rfl
@[simp] theorem emit_trcLeft (h : Hub) (k : OutKind) (d : Nat) (a : List Nat) (b : List Byte) : (emit h k d a b).trcLeft = h.trcLeft := rfl
@[simp] theorem emit_redN (h : Hub) (k : OutKind) (d : Nat) (a : List Nat) (b : List Byte) : (emit h k d a b).redN = h.redN := rfl
@[simp] theorem emit_guestImgs (h : Hub) (k : OutKind) (d : Nat) (a : List Nat) (b : List Byte) : (emit h k d a b).guestImgs = h.guestImgs := rfl
@[simp] theorem emit_rimTries (h : Hub) (k : OutKind) (d : Nat) (a : List Nat) (b : List Byte) : (emit h k d a b).rimTries = h.rimTries := rfl
@[simp] theorem emit_wheels (h : Hub) (k : OutKind) (d : Nat) (a : List Nat) (b : List Byte) : (emit h k d a b).wheels = h.wheels := rfl
@[simp] theorem emit_binds (h : Hub) (k : OutKind) (d : Nat) (a : List Nat) (b : List Byte) : (emit h k d a b).binds = h.binds := rfl
@[simp] theorem emit_bindQ (h : Hub) (k : OutKind) (d : Nat) (a : List Nat) (b : List Byte) : (emit h k d a b).bindQ = h.bindQ := rfl
@[simp] theorem emit_mg (h : Hub) (k : OutKind) (d : Nat) (a : List Nat) (b : List Byte) : (emit h k d a b).mg = h.mg := rfl
@[simp] theorem emit_pwr (h : Hub) (k : OutKind) (d : Nat) (a : List Nat) (b : List Byte) : (emit h k d a b).pwr = h.pwr := rfl
@[simp] theorem emit_pcie (h : Hub) (k : OutKind) (d : Nat) (a : List Nat) (b : List Byte) : (emit h k d a b).pcie = h.pcie := rfl

/-! ### setOdNum -/

@[simp] theorem setOdNum_variant (h : Hub) (k n v : Nat) : (setOdNum h k n v).variant = h.variant := rfl
@[simp] theorem setOdNum_regs (h : Hub) (k n v : Nat) : (setOdNum h k n v).regs = h.regs := rfl
@[simp] theorem setOdNum_freeN (h : Hub) (k n v : Nat) : (setOdNum h k n v).freeN = h.freeN := rfl
@[simp] theorem setOdNum_out (h : Hub) (k n v : Nat) : (setOdNum h k n v).out = h.out := rfl
@[simp] theorem setOdNum_hbm (h : Hub) (k n v : Nat) : (setOdNum h k n v).hbm = h.hbm := rfl
@[simp] theorem setOdNum_poison (h : Hub) (k n v : Nat) : (setOdNum h k n v).poison = h.poison := rfl
@[simp] theorem setOdNum_hostMem (h : Hub) (k n v : Nat) : (setOdNum h k n v).hostMem = h.hostMem := rfl
@[simp] theorem setOdNum_hostBuf (h : Hub) (k n v : Nat) : (setOdNum h k n v).hostBuf = h.hostBuf := rfl
@[simp] theorem setOdNum_hostHave (h : Hub) (k n v : Nat) : (setOdNum h k n v).hostHave = h.hostHave := rfl
@[simp] theorem setOdNum_hostReads (h : Hub) (k n v : Nat) : (setOdNum h k n v).hostReads = h.hostReads := rfl
@[simp] theorem setOdNum_live (h : Hub) (k n v : Nat) : (setOdNum h k n v).live = h.live := rfl
@[simp] theorem setOdNum_portCap (h : Hub) (k n v : Nat) : (setOdNum h k n v).portCap = h.portCap := rfl
@[simp] theorem setOdNum_reserve (h : Hub) (k n v : Nat) : (setOdNum h k n v).reserve = h.reserve := rfl
@[simp] theorem setOdNum_hbms (h : Hub) (k n v : Nat) : (setOdNum h k n v).hbms = h.hbms := rfl
@[simp] theorem setOdNum_ports (h : Hub) (k n v : Nat) : (setOdNum h k n v).ports = h.ports := rfl
@[simp] theorem setOdNum_regions (h : Hub) (k n v : Nat) : (setOdNum h k n v).regions = h.regions := rfl
@[simp] theorem setOdNum_dir (h : Hub) (k n v : Nat) : (setOdNum h k n v).dir = h.dir := rfl
@[simp] theorem setOdNum_cohTxns (h : Hub) (k n v : Nat) : (setOdNum h k n v).cohTxns = h.cohTxns := rfl
@[simp] theorem setOdNum_cohQ (h : Hub) (k n v : Nat) : (setOdNum h k n v).cohQ = h.cohQ := rfl
@[simp] theorem setOdNum_cohPend (h : Hub) (k n v : Nat) : (setOdNum h k n v).cohPend = h.cohPend := rfl
@[simp] theorem setOdNum_sweeps (h : Hub) (k n v : Nat) : (setOdNum h k n v).sweeps = h.sweeps := rfl
@[simp] theorem setOdNum_agents (h : Hub) (k n v : Nat) : (setOdNum h k n v).agents = h.agents := rfl
@[simp] theorem setOdNum_agentLines (h : Hub) (k n v : Nat) : (setOdNum h k n v).agentLines = h.agentLines := rfl
@[simp] theorem setOdNum_snpOut (h : Hub) (k n v : Nat) : (setOdNum h k n v).snpOut = h.snpOut := rfl
@[simp] theorem setOdNum_tc (h : Hub) (k n v : Nat) : (setOdNum h k n v).tc = h.tc := rfl
@[simp] theorem setOdNum_tcHold (h : Hub) (k n v : Nat) : (setOdNum h k n v).tcHold = h.tcHold := rfl
@[simp] theorem setOdNum_ctlStarts (h : Hub) (k n v : Nat) : (setOdNum h k n v).ctlStarts = h.ctlStarts := rfl
@[simp] theorem setOdNum_dataStarts (h : Hub) (k n v : Nat) : (setOdNum h k n v).dataStarts = h.dataStarts := rfl
@[simp] theorem setOdNum_resyncFail (h : Hub) (k n v : Nat) : (setOdNum h k n v).resyncFail = h.resyncFail := rfl
@[simp] theorem setOdNum_frozenBy (h : Hub) (k n v : Nat) : (setOdNum h k n v).frozenBy = h.frozenBy := rfl
@[simp] theorem setOdNum_fatalPend (h : Hub) (k n v : Nat) : (setOdNum h k n v).fatalPend = h.fatalPend := rfl
@[simp] theorem setOdNum_dataReset (h : Hub) (k n v : Nat) : (setOdNum h k n v).dataReset = h.dataReset := rfl
@[simp] theorem setOdNum_ctlDown (h : Hub) (k n v : Nat) : (setOdNum h k n v).ctlDown = h.ctlDown := rfl
@[simp] theorem setOdNum_held (h : Hub) (k n v : Nat) : (setOdNum h k n v).held = h.held := rfl
@[simp] theorem setOdNum_notices (h : Hub) (k n v : Nat) : (setOdNum h k n v).notices = h.notices := rfl
@[simp] theorem setOdNum_noticeLost (h : Hub) (k n v : Nat) : (setOdNum h k n v).noticeLost = h.noticeLost := rfl
@[simp] theorem setOdNum_faultRing (h : Hub) (k n v : Nat) : (setOdNum h k n v).faultRing = h.faultRing := rfl
@[simp] theorem setOdNum_faultSeq (h : Hub) (k n v : Nat) : (setOdNum h k n v).faultSeq = h.faultSeq := rfl
@[simp] theorem setOdNum_queues (h : Hub) (k n v : Nat) : (setOdNum h k n v).queues = h.queues := rfl
@[simp] theorem setOdNum_qnums (h : Hub) (k n v : Nat) : (setOdNum h k n v).qnums = h.qnums := rfl
@[simp] theorem setOdNum_cmds (h : Hub) (k n v : Nat) : (setOdNum h k n v).cmds = h.cmds := rfl
@[simp] theorem setOdNum_ops (h : Hub) (k n v : Nat) : (setOdNum h k n v).ops = h.ops := rfl
@[simp] theorem setOdNum_routes (h : Hub) (k n v : Nat) : (setOdNum h k n v).routes = h.routes := rfl
@[simp] theorem setOdNum_redQ (h : Hub) (k n v : Nat) : (setOdNum h k n v).redQ = h.redQ := rfl
@[simp] theorem setOdNum_atc (h : Hub) (k n v : Nat) : (setOdNum h k n v).atc = h.atc := rfl
@[simp] theorem setOdNum_trReqs (h : Hub) (k n v : Nat) : (setOdNum h k n v).trReqs = h.trReqs := rfl
@[simp] theorem setOdNum_invals (h : Hub) (k n v : Nat) : (setOdNum h k n v).invals = h.invals := rfl
@[simp] theorem setOdNum_funcs (h : Hub) (k n v : Nat) : (setOdNum h k n v).funcs = h.funcs := rfl
@[simp] theorem setOdNum_msix (h : Hub) (k n v : Nat) : (setOdNum h k n v).msix = h.msix := rfl
@[simp] theorem setOdNum_teardown (h : Hub) (k n v : Nat) : (setOdNum h k n v).teardown = h.teardown := rfl
@[simp] theorem setOdNum_freeAfter (h : Hub) (k n v : Nat) : (setOdNum h k n v).freeAfter = h.freeAfter := rfl
@[simp] theorem setOdNum_sems (h : Hub) (k n v : Nat) : (setOdNum h k n v).sems = h.sems := rfl
@[simp] theorem setOdNum_waits (h : Hub) (k n v : Nat) : (setOdNum h k n v).waits = h.waits := rfl
@[simp] theorem setOdNum_grants (h : Hub) (k n v : Nat) : (setOdNum h k n v).grants = h.grants := rfl
@[simp] theorem setOdNum_barriers (h : Hub) (k n v : Nat) : (setOdNum h k n v).barriers = h.barriers := rfl
@[simp] theorem setOdNum_parts (h : Hub) (k n v : Nat) : (setOdNum h k n v).parts = h.parts := rfl
@[simp] theorem setOdNum_posts (h : Hub) (k n v : Nat) : (setOdNum h k n v).posts = h.posts := rfl
@[simp] theorem setOdNum_acqWait (h : Hub) (k n v : Nat) : (setOdNum h k n v).acqWait = h.acqWait := rfl
@[simp] theorem setOdNum_guests (h : Hub) (k n v : Nat) : (setOdNum h k n v).guests = h.guests := rfl
@[simp] theorem setOdNum_links (h : Hub) (k n v : Nat) : (setOdNum h k n v).links = h.links := rfl
@[simp] theorem setOdNum_leases (h : Hub) (k n v : Nat) : (setOdNum h k n v).leases = h.leases := rfl
@[simp] theorem setOdNum_strs (h : Hub) (k n v : Nat) : (setOdNum h k n v).strs = h.strs := rfl
@[simp] theorem setOdNum_noteRing (h : Hub) (k n v : Nat) : (setOdNum h k n v).noteRing = h.noteRing := rfl
@[simp] theorem setOdNum_nseq (h : Hub) (k n v : Nat) : (setOdNum h k n v).nseq = h.nseq := rfl
@[simp] theorem setOdNum_notifies (h : Hub) (k n v : Nat) : (setOdNum h k n v).notifies = h.notifies := rfl
@[simp] theorem setOdNum_notifySeq (h : Hub) (k n v : Nat) : (setOdNum h k n v).notifySeq = h.notifySeq := rfl
@[simp] theorem setOdNum_todo (h : Hub) (k n v : Nat) : (setOdNum h k n v).todo = h.todo := rfl
@[simp] theorem setOdNum_podId (h : Hub) (k n v : Nat) : (setOdNum h k n v).podId = h.podId := rfl
@[simp] theorem setOdNum_podMgr (h : Hub) (k n v : Nat) : (setOdNum h k n v).podMgr = h.podMgr := rfl
@[simp] theorem setOdNum_podEther (h : Hub) (k n v : Nat) : (setOdNum h k n v).podEther = h.podEther := rfl
@[simp] theorem setOdNum_podVlan (h : Hub) (k n v : Nat) : (setOdNum h k n v).podVlan = h.podVlan := rfl
@[simp] theorem setOdNum_podTx (h : Hub) (k n v : Nat) : (setOdNum h k n v).podTx = h.podTx := rfl
@[simp] theorem setOdNum_podRx (h : Hub) (k n v : Nat) : (setOdNum h k n v).podRx = h.podRx := rfl
@[simp] theorem setOdNum_podAck (h : Hub) (k n v : Nat) : (setOdNum h k n v).podAck = h.podAck := rfl
@[simp] theorem setOdNum_podMsgId (h : Hub) (k n v : Nat) : (setOdNum h k n v).podMsgId = h.podMsgId := rfl
@[simp] theorem setOdNum_podCh (h : Hub) (k n v : Nat) : (setOdNum h k n v).podCh = h.podCh := rfl
@[simp] theorem setOdNum_podRxQ (h : Hub) (k n v : Nat) : (setOdNum h k n v).podRxQ = h.podRxQ := rfl
@[simp] theorem setOdNum_podIn (h : Hub) (k n v : Nat) : (setOdNum h k n v).podIn = h.podIn := rfl
@[simp] theorem setOdNum_podBar (h : Hub) (k n v : Nat) : (setOdNum h k n v).podBar = h.podBar := rfl
@[simp] theorem setOdNum_podHas (h : Hub) (k n v : Nat) : (setOdNum h k n v).podHas = h.podHas := rfl
@[simp] theorem setOdNum_pools (h : Hub) (k n v : Nat) : (setOdNum h k n v).pools = h.pools := rfl
@[simp] theorem setOdNum_casSlots (h : Hub) (k n v : Nat) : (setOdNum h k n v).casSlots = h.casSlots := rfl
@[simp] theorem setOdNum_podGen (h : Hub) (k n v : Nat) : (setOdNum h k n v).podGen = h.podGen := rfl
@[simp] theorem setOdNum_podKey (h : Hub) (k n v : Nat) : (setOdNum h k n v).podKey = h.podKey := rfl
@[simp] theorem setOdNum_dead (h : Hub) (k n v : Nat) : (setOdNum h k n v).dead = h.dead := rfl
@[simp] theorem setOdNum_retried (h : Hub) (k n v : Nat) : (setOdNum h k n v).retried = h.retried := rfl
@[simp] theorem setOdNum_warmRun (h : Hub) (k n v : Nat) : (setOdNum h k n v).warmRun = h.warmRun := rfl
@[simp] theorem setOdNum_bootMs (h : Hub) (k n v : Nat) : (setOdNum h k n v).bootMs = h.bootMs := rfl
@[simp] theorem setOdNum_present (h : Hub) (k n v : Nat) : (setOdNum h k n v).present = h.present := rfl
@[simp] theorem setOdNum_trcBuf (h : Hub) (k n v : Nat) : (setOdNum h k n v).trcBuf = h.trcBuf := rfl
@[simp] theorem setOdNum_trcN (h : Hub) (k n v : Nat) : (setOdNum h k n v).trcN = h.trcN := rfl
@[simp] theorem setOdNum_trcLeft (h : Hub) (k n v : Nat) : (setOdNum h k n v).trcLeft = h.trcLeft := rfl
@[simp] theorem setOdNum_redN (h : Hub) (k n v : Nat) : (setOdNum h k n v).redN = h.redN := rfl
@[simp] theorem setOdNum_guestImgs (h : Hub) (k n v : Nat) : (setOdNum h k n v).guestImgs = h.guestImgs := rfl
@[simp] theorem setOdNum_rimTries (h : Hub) (k n v : Nat) : (setOdNum h k n v).rimTries = h.rimTries := rfl
@[simp] theorem setOdNum_wheels (h : Hub) (k n v : Nat) : (setOdNum h k n v).wheels = h.wheels := rfl
@[simp] theorem setOdNum_binds (h : Hub) (k n v : Nat) : (setOdNum h k n v).binds = h.binds := rfl
@[simp] theorem setOdNum_bindQ (h : Hub) (k n v : Nat) : (setOdNum h k n v).bindQ = h.bindQ := rfl
@[simp] theorem setOdNum_mg (h : Hub) (k n v : Nat) : (setOdNum h k n v).mg = h.mg := rfl
@[simp] theorem setOdNum_pwr (h : Hub) (k n v : Nat) : (setOdNum h k n v).pwr = h.pwr := rfl
@[simp] theorem setOdNum_pcie (h : Hub) (k n v : Nat) : (setOdNum h k n v).pcie = h.pcie := rfl

/-! ### setOdBytes -/

@[simp] theorem setOdBytes_variant (h : Hub) (k : Nat) (b : List Byte) : (setOdBytes h k b).variant = h.variant := rfl
@[simp] theorem setOdBytes_regs (h : Hub) (k : Nat) (b : List Byte) : (setOdBytes h k b).regs = h.regs := rfl
@[simp] theorem setOdBytes_freeN (h : Hub) (k : Nat) (b : List Byte) : (setOdBytes h k b).freeN = h.freeN := rfl
@[simp] theorem setOdBytes_out (h : Hub) (k : Nat) (b : List Byte) : (setOdBytes h k b).out = h.out := rfl
@[simp] theorem setOdBytes_hbm (h : Hub) (k : Nat) (b : List Byte) : (setOdBytes h k b).hbm = h.hbm := rfl
@[simp] theorem setOdBytes_poison (h : Hub) (k : Nat) (b : List Byte) : (setOdBytes h k b).poison = h.poison := rfl
@[simp] theorem setOdBytes_hostMem (h : Hub) (k : Nat) (b : List Byte) : (setOdBytes h k b).hostMem = h.hostMem := rfl
@[simp] theorem setOdBytes_hostBuf (h : Hub) (k : Nat) (b : List Byte) : (setOdBytes h k b).hostBuf = h.hostBuf := rfl
@[simp] theorem setOdBytes_hostHave (h : Hub) (k : Nat) (b : List Byte) : (setOdBytes h k b).hostHave = h.hostHave := rfl
@[simp] theorem setOdBytes_hostReads (h : Hub) (k : Nat) (b : List Byte) : (setOdBytes h k b).hostReads = h.hostReads := rfl
@[simp] theorem setOdBytes_live (h : Hub) (k : Nat) (b : List Byte) : (setOdBytes h k b).live = h.live := rfl
@[simp] theorem setOdBytes_portCap (h : Hub) (k : Nat) (b : List Byte) : (setOdBytes h k b).portCap = h.portCap := rfl
@[simp] theorem setOdBytes_reserve (h : Hub) (k : Nat) (b : List Byte) : (setOdBytes h k b).reserve = h.reserve := rfl
@[simp] theorem setOdBytes_hbms (h : Hub) (k : Nat) (b : List Byte) : (setOdBytes h k b).hbms = h.hbms := rfl
@[simp] theorem setOdBytes_ports (h : Hub) (k : Nat) (b : List Byte) : (setOdBytes h k b).ports = h.ports := rfl
@[simp] theorem setOdBytes_regions (h : Hub) (k : Nat) (b : List Byte) : (setOdBytes h k b).regions = h.regions := rfl
@[simp] theorem setOdBytes_dir (h : Hub) (k : Nat) (b : List Byte) : (setOdBytes h k b).dir = h.dir := rfl
@[simp] theorem setOdBytes_cohTxns (h : Hub) (k : Nat) (b : List Byte) : (setOdBytes h k b).cohTxns = h.cohTxns := rfl
@[simp] theorem setOdBytes_cohQ (h : Hub) (k : Nat) (b : List Byte) : (setOdBytes h k b).cohQ = h.cohQ := rfl
@[simp] theorem setOdBytes_cohPend (h : Hub) (k : Nat) (b : List Byte) : (setOdBytes h k b).cohPend = h.cohPend := rfl
@[simp] theorem setOdBytes_sweeps (h : Hub) (k : Nat) (b : List Byte) : (setOdBytes h k b).sweeps = h.sweeps := rfl
@[simp] theorem setOdBytes_agents (h : Hub) (k : Nat) (b : List Byte) : (setOdBytes h k b).agents = h.agents := rfl
@[simp] theorem setOdBytes_agentLines (h : Hub) (k : Nat) (b : List Byte) : (setOdBytes h k b).agentLines = h.agentLines := rfl
@[simp] theorem setOdBytes_snpOut (h : Hub) (k : Nat) (b : List Byte) : (setOdBytes h k b).snpOut = h.snpOut := rfl
@[simp] theorem setOdBytes_tc (h : Hub) (k : Nat) (b : List Byte) : (setOdBytes h k b).tc = h.tc := rfl
@[simp] theorem setOdBytes_tcHold (h : Hub) (k : Nat) (b : List Byte) : (setOdBytes h k b).tcHold = h.tcHold := rfl
@[simp] theorem setOdBytes_ctlStarts (h : Hub) (k : Nat) (b : List Byte) : (setOdBytes h k b).ctlStarts = h.ctlStarts := rfl
@[simp] theorem setOdBytes_dataStarts (h : Hub) (k : Nat) (b : List Byte) : (setOdBytes h k b).dataStarts = h.dataStarts := rfl
@[simp] theorem setOdBytes_resyncFail (h : Hub) (k : Nat) (b : List Byte) : (setOdBytes h k b).resyncFail = h.resyncFail := rfl
@[simp] theorem setOdBytes_frozenBy (h : Hub) (k : Nat) (b : List Byte) : (setOdBytes h k b).frozenBy = h.frozenBy := rfl
@[simp] theorem setOdBytes_fatalPend (h : Hub) (k : Nat) (b : List Byte) : (setOdBytes h k b).fatalPend = h.fatalPend := rfl
@[simp] theorem setOdBytes_dataReset (h : Hub) (k : Nat) (b : List Byte) : (setOdBytes h k b).dataReset = h.dataReset := rfl
@[simp] theorem setOdBytes_ctlDown (h : Hub) (k : Nat) (b : List Byte) : (setOdBytes h k b).ctlDown = h.ctlDown := rfl
@[simp] theorem setOdBytes_held (h : Hub) (k : Nat) (b : List Byte) : (setOdBytes h k b).held = h.held := rfl
@[simp] theorem setOdBytes_notices (h : Hub) (k : Nat) (b : List Byte) : (setOdBytes h k b).notices = h.notices := rfl
@[simp] theorem setOdBytes_noticeLost (h : Hub) (k : Nat) (b : List Byte) : (setOdBytes h k b).noticeLost = h.noticeLost := rfl
@[simp] theorem setOdBytes_faultRing (h : Hub) (k : Nat) (b : List Byte) : (setOdBytes h k b).faultRing = h.faultRing := rfl
@[simp] theorem setOdBytes_faultSeq (h : Hub) (k : Nat) (b : List Byte) : (setOdBytes h k b).faultSeq = h.faultSeq := rfl
@[simp] theorem setOdBytes_queues (h : Hub) (k : Nat) (b : List Byte) : (setOdBytes h k b).queues = h.queues := rfl
@[simp] theorem setOdBytes_qnums (h : Hub) (k : Nat) (b : List Byte) : (setOdBytes h k b).qnums = h.qnums := rfl
@[simp] theorem setOdBytes_cmds (h : Hub) (k : Nat) (b : List Byte) : (setOdBytes h k b).cmds = h.cmds := rfl
@[simp] theorem setOdBytes_ops (h : Hub) (k : Nat) (b : List Byte) : (setOdBytes h k b).ops = h.ops := rfl
@[simp] theorem setOdBytes_routes (h : Hub) (k : Nat) (b : List Byte) : (setOdBytes h k b).routes = h.routes := rfl
@[simp] theorem setOdBytes_redQ (h : Hub) (k : Nat) (b : List Byte) : (setOdBytes h k b).redQ = h.redQ := rfl
@[simp] theorem setOdBytes_atc (h : Hub) (k : Nat) (b : List Byte) : (setOdBytes h k b).atc = h.atc := rfl
@[simp] theorem setOdBytes_trReqs (h : Hub) (k : Nat) (b : List Byte) : (setOdBytes h k b).trReqs = h.trReqs := rfl
@[simp] theorem setOdBytes_invals (h : Hub) (k : Nat) (b : List Byte) : (setOdBytes h k b).invals = h.invals := rfl
@[simp] theorem setOdBytes_funcs (h : Hub) (k : Nat) (b : List Byte) : (setOdBytes h k b).funcs = h.funcs := rfl
@[simp] theorem setOdBytes_msix (h : Hub) (k : Nat) (b : List Byte) : (setOdBytes h k b).msix = h.msix := rfl
@[simp] theorem setOdBytes_teardown (h : Hub) (k : Nat) (b : List Byte) : (setOdBytes h k b).teardown = h.teardown := rfl
@[simp] theorem setOdBytes_freeAfter (h : Hub) (k : Nat) (b : List Byte) : (setOdBytes h k b).freeAfter = h.freeAfter := rfl
@[simp] theorem setOdBytes_sems (h : Hub) (k : Nat) (b : List Byte) : (setOdBytes h k b).sems = h.sems := rfl
@[simp] theorem setOdBytes_waits (h : Hub) (k : Nat) (b : List Byte) : (setOdBytes h k b).waits = h.waits := rfl
@[simp] theorem setOdBytes_grants (h : Hub) (k : Nat) (b : List Byte) : (setOdBytes h k b).grants = h.grants := rfl
@[simp] theorem setOdBytes_barriers (h : Hub) (k : Nat) (b : List Byte) : (setOdBytes h k b).barriers = h.barriers := rfl
@[simp] theorem setOdBytes_parts (h : Hub) (k : Nat) (b : List Byte) : (setOdBytes h k b).parts = h.parts := rfl
@[simp] theorem setOdBytes_posts (h : Hub) (k : Nat) (b : List Byte) : (setOdBytes h k b).posts = h.posts := rfl
@[simp] theorem setOdBytes_acqWait (h : Hub) (k : Nat) (b : List Byte) : (setOdBytes h k b).acqWait = h.acqWait := rfl
@[simp] theorem setOdBytes_guests (h : Hub) (k : Nat) (b : List Byte) : (setOdBytes h k b).guests = h.guests := rfl
@[simp] theorem setOdBytes_links (h : Hub) (k : Nat) (b : List Byte) : (setOdBytes h k b).links = h.links := rfl
@[simp] theorem setOdBytes_leases (h : Hub) (k : Nat) (b : List Byte) : (setOdBytes h k b).leases = h.leases := rfl
@[simp] theorem setOdBytes_strs (h : Hub) (k : Nat) (b : List Byte) : (setOdBytes h k b).strs = h.strs := rfl
@[simp] theorem setOdBytes_noteRing (h : Hub) (k : Nat) (b : List Byte) : (setOdBytes h k b).noteRing = h.noteRing := rfl
@[simp] theorem setOdBytes_nseq (h : Hub) (k : Nat) (b : List Byte) : (setOdBytes h k b).nseq = h.nseq := rfl
@[simp] theorem setOdBytes_notifies (h : Hub) (k : Nat) (b : List Byte) : (setOdBytes h k b).notifies = h.notifies := rfl
@[simp] theorem setOdBytes_notifySeq (h : Hub) (k : Nat) (b : List Byte) : (setOdBytes h k b).notifySeq = h.notifySeq := rfl
@[simp] theorem setOdBytes_todo (h : Hub) (k : Nat) (b : List Byte) : (setOdBytes h k b).todo = h.todo := rfl
@[simp] theorem setOdBytes_podId (h : Hub) (k : Nat) (b : List Byte) : (setOdBytes h k b).podId = h.podId := rfl
@[simp] theorem setOdBytes_podMgr (h : Hub) (k : Nat) (b : List Byte) : (setOdBytes h k b).podMgr = h.podMgr := rfl
@[simp] theorem setOdBytes_podEther (h : Hub) (k : Nat) (b : List Byte) : (setOdBytes h k b).podEther = h.podEther := rfl
@[simp] theorem setOdBytes_podVlan (h : Hub) (k : Nat) (b : List Byte) : (setOdBytes h k b).podVlan = h.podVlan := rfl
@[simp] theorem setOdBytes_podTx (h : Hub) (k : Nat) (b : List Byte) : (setOdBytes h k b).podTx = h.podTx := rfl
@[simp] theorem setOdBytes_podRx (h : Hub) (k : Nat) (b : List Byte) : (setOdBytes h k b).podRx = h.podRx := rfl
@[simp] theorem setOdBytes_podAck (h : Hub) (k : Nat) (b : List Byte) : (setOdBytes h k b).podAck = h.podAck := rfl
@[simp] theorem setOdBytes_podMsgId (h : Hub) (k : Nat) (b : List Byte) : (setOdBytes h k b).podMsgId = h.podMsgId := rfl
@[simp] theorem setOdBytes_podCh (h : Hub) (k : Nat) (b : List Byte) : (setOdBytes h k b).podCh = h.podCh := rfl
@[simp] theorem setOdBytes_podRxQ (h : Hub) (k : Nat) (b : List Byte) : (setOdBytes h k b).podRxQ = h.podRxQ := rfl
@[simp] theorem setOdBytes_podIn (h : Hub) (k : Nat) (b : List Byte) : (setOdBytes h k b).podIn = h.podIn := rfl
@[simp] theorem setOdBytes_podBar (h : Hub) (k : Nat) (b : List Byte) : (setOdBytes h k b).podBar = h.podBar := rfl
@[simp] theorem setOdBytes_podHas (h : Hub) (k : Nat) (b : List Byte) : (setOdBytes h k b).podHas = h.podHas := rfl
@[simp] theorem setOdBytes_pools (h : Hub) (k : Nat) (b : List Byte) : (setOdBytes h k b).pools = h.pools := rfl
@[simp] theorem setOdBytes_casSlots (h : Hub) (k : Nat) (b : List Byte) : (setOdBytes h k b).casSlots = h.casSlots := rfl
@[simp] theorem setOdBytes_podGen (h : Hub) (k : Nat) (b : List Byte) : (setOdBytes h k b).podGen = h.podGen := rfl
@[simp] theorem setOdBytes_podKey (h : Hub) (k : Nat) (b : List Byte) : (setOdBytes h k b).podKey = h.podKey := rfl
@[simp] theorem setOdBytes_dead (h : Hub) (k : Nat) (b : List Byte) : (setOdBytes h k b).dead = h.dead := rfl
@[simp] theorem setOdBytes_retried (h : Hub) (k : Nat) (b : List Byte) : (setOdBytes h k b).retried = h.retried := rfl
@[simp] theorem setOdBytes_warmRun (h : Hub) (k : Nat) (b : List Byte) : (setOdBytes h k b).warmRun = h.warmRun := rfl
@[simp] theorem setOdBytes_bootMs (h : Hub) (k : Nat) (b : List Byte) : (setOdBytes h k b).bootMs = h.bootMs := rfl
@[simp] theorem setOdBytes_present (h : Hub) (k : Nat) (b : List Byte) : (setOdBytes h k b).present = h.present := rfl
@[simp] theorem setOdBytes_trcBuf (h : Hub) (k : Nat) (b : List Byte) : (setOdBytes h k b).trcBuf = h.trcBuf := rfl
@[simp] theorem setOdBytes_trcN (h : Hub) (k : Nat) (b : List Byte) : (setOdBytes h k b).trcN = h.trcN := rfl
@[simp] theorem setOdBytes_trcLeft (h : Hub) (k : Nat) (b : List Byte) : (setOdBytes h k b).trcLeft = h.trcLeft := rfl
@[simp] theorem setOdBytes_redN (h : Hub) (k : Nat) (b : List Byte) : (setOdBytes h k b).redN = h.redN := rfl
@[simp] theorem setOdBytes_guestImgs (h : Hub) (k : Nat) (b : List Byte) : (setOdBytes h k b).guestImgs = h.guestImgs := rfl
@[simp] theorem setOdBytes_rimTries (h : Hub) (k : Nat) (b : List Byte) : (setOdBytes h k b).rimTries = h.rimTries := rfl
@[simp] theorem setOdBytes_wheels (h : Hub) (k : Nat) (b : List Byte) : (setOdBytes h k b).wheels = h.wheels := rfl
@[simp] theorem setOdBytes_binds (h : Hub) (k : Nat) (b : List Byte) : (setOdBytes h k b).binds = h.binds := rfl
@[simp] theorem setOdBytes_bindQ (h : Hub) (k : Nat) (b : List Byte) : (setOdBytes h k b).bindQ = h.bindQ := rfl
@[simp] theorem setOdBytes_mg (h : Hub) (k : Nat) (b : List Byte) : (setOdBytes h k b).mg = h.mg := rfl
@[simp] theorem setOdBytes_pwr (h : Hub) (k : Nat) (b : List Byte) : (setOdBytes h k b).pwr = h.pwr := rfl
@[simp] theorem setOdBytes_pcie (h : Hub) (k : Nat) (b : List Byte) : (setOdBytes h k b).pcie = h.pcie := rfl

/-! ### setFunc -/

@[simp] theorem setFunc_variant (h : Hub) (f : Nat) (v : Func) : (setFunc h f v).variant = h.variant := rfl
@[simp] theorem setFunc_regs (h : Hub) (f : Nat) (v : Func) : (setFunc h f v).regs = h.regs := rfl
@[simp] theorem setFunc_od (h : Hub) (f : Nat) (v : Func) : (setFunc h f v).od = h.od := rfl
@[simp] theorem setFunc_freeN (h : Hub) (f : Nat) (v : Func) : (setFunc h f v).freeN = h.freeN := rfl
@[simp] theorem setFunc_out (h : Hub) (f : Nat) (v : Func) : (setFunc h f v).out = h.out := rfl
@[simp] theorem setFunc_hbm (h : Hub) (f : Nat) (v : Func) : (setFunc h f v).hbm = h.hbm := rfl
@[simp] theorem setFunc_poison (h : Hub) (f : Nat) (v : Func) : (setFunc h f v).poison = h.poison := rfl
@[simp] theorem setFunc_hostMem (h : Hub) (f : Nat) (v : Func) : (setFunc h f v).hostMem = h.hostMem := rfl
@[simp] theorem setFunc_hostBuf (h : Hub) (f : Nat) (v : Func) : (setFunc h f v).hostBuf = h.hostBuf := rfl
@[simp] theorem setFunc_hostHave (h : Hub) (f : Nat) (v : Func) : (setFunc h f v).hostHave = h.hostHave := rfl
@[simp] theorem setFunc_hostReads (h : Hub) (f : Nat) (v : Func) : (setFunc h f v).hostReads = h.hostReads := rfl
@[simp] theorem setFunc_live (h : Hub) (f : Nat) (v : Func) : (setFunc h f v).live = h.live := rfl
@[simp] theorem setFunc_portCap (h : Hub) (f : Nat) (v : Func) : (setFunc h f v).portCap = h.portCap := rfl
@[simp] theorem setFunc_reserve (h : Hub) (f : Nat) (v : Func) : (setFunc h f v).reserve = h.reserve := rfl
@[simp] theorem setFunc_hbms (h : Hub) (f : Nat) (v : Func) : (setFunc h f v).hbms = h.hbms := rfl
@[simp] theorem setFunc_ports (h : Hub) (f : Nat) (v : Func) : (setFunc h f v).ports = h.ports := rfl
@[simp] theorem setFunc_regions (h : Hub) (f : Nat) (v : Func) : (setFunc h f v).regions = h.regions := rfl
@[simp] theorem setFunc_dir (h : Hub) (f : Nat) (v : Func) : (setFunc h f v).dir = h.dir := rfl
@[simp] theorem setFunc_cohTxns (h : Hub) (f : Nat) (v : Func) : (setFunc h f v).cohTxns = h.cohTxns := rfl
@[simp] theorem setFunc_cohQ (h : Hub) (f : Nat) (v : Func) : (setFunc h f v).cohQ = h.cohQ := rfl
@[simp] theorem setFunc_cohPend (h : Hub) (f : Nat) (v : Func) : (setFunc h f v).cohPend = h.cohPend := rfl
@[simp] theorem setFunc_sweeps (h : Hub) (f : Nat) (v : Func) : (setFunc h f v).sweeps = h.sweeps := rfl
@[simp] theorem setFunc_agents (h : Hub) (f : Nat) (v : Func) : (setFunc h f v).agents = h.agents := rfl
@[simp] theorem setFunc_agentLines (h : Hub) (f : Nat) (v : Func) : (setFunc h f v).agentLines = h.agentLines := rfl
@[simp] theorem setFunc_snpOut (h : Hub) (f : Nat) (v : Func) : (setFunc h f v).snpOut = h.snpOut := rfl
@[simp] theorem setFunc_tc (h : Hub) (f : Nat) (v : Func) : (setFunc h f v).tc = h.tc := rfl
@[simp] theorem setFunc_tcHold (h : Hub) (f : Nat) (v : Func) : (setFunc h f v).tcHold = h.tcHold := rfl
@[simp] theorem setFunc_ctlStarts (h : Hub) (f : Nat) (v : Func) : (setFunc h f v).ctlStarts = h.ctlStarts := rfl
@[simp] theorem setFunc_dataStarts (h : Hub) (f : Nat) (v : Func) : (setFunc h f v).dataStarts = h.dataStarts := rfl
@[simp] theorem setFunc_resyncFail (h : Hub) (f : Nat) (v : Func) : (setFunc h f v).resyncFail = h.resyncFail := rfl
@[simp] theorem setFunc_frozenBy (h : Hub) (f : Nat) (v : Func) : (setFunc h f v).frozenBy = h.frozenBy := rfl
@[simp] theorem setFunc_fatalPend (h : Hub) (f : Nat) (v : Func) : (setFunc h f v).fatalPend = h.fatalPend := rfl
@[simp] theorem setFunc_dataReset (h : Hub) (f : Nat) (v : Func) : (setFunc h f v).dataReset = h.dataReset := rfl
@[simp] theorem setFunc_ctlDown (h : Hub) (f : Nat) (v : Func) : (setFunc h f v).ctlDown = h.ctlDown := rfl
@[simp] theorem setFunc_held (h : Hub) (f : Nat) (v : Func) : (setFunc h f v).held = h.held := rfl
@[simp] theorem setFunc_notices (h : Hub) (f : Nat) (v : Func) : (setFunc h f v).notices = h.notices := rfl
@[simp] theorem setFunc_noticeLost (h : Hub) (f : Nat) (v : Func) : (setFunc h f v).noticeLost = h.noticeLost := rfl
@[simp] theorem setFunc_faultRing (h : Hub) (f : Nat) (v : Func) : (setFunc h f v).faultRing = h.faultRing := rfl
@[simp] theorem setFunc_faultSeq (h : Hub) (f : Nat) (v : Func) : (setFunc h f v).faultSeq = h.faultSeq := rfl
@[simp] theorem setFunc_queues (h : Hub) (f : Nat) (v : Func) : (setFunc h f v).queues = h.queues := rfl
@[simp] theorem setFunc_qnums (h : Hub) (f : Nat) (v : Func) : (setFunc h f v).qnums = h.qnums := rfl
@[simp] theorem setFunc_cmds (h : Hub) (f : Nat) (v : Func) : (setFunc h f v).cmds = h.cmds := rfl
@[simp] theorem setFunc_ops (h : Hub) (f : Nat) (v : Func) : (setFunc h f v).ops = h.ops := rfl
@[simp] theorem setFunc_routes (h : Hub) (f : Nat) (v : Func) : (setFunc h f v).routes = h.routes := rfl
@[simp] theorem setFunc_redQ (h : Hub) (f : Nat) (v : Func) : (setFunc h f v).redQ = h.redQ := rfl
@[simp] theorem setFunc_atc (h : Hub) (f : Nat) (v : Func) : (setFunc h f v).atc = h.atc := rfl
@[simp] theorem setFunc_trReqs (h : Hub) (f : Nat) (v : Func) : (setFunc h f v).trReqs = h.trReqs := rfl
@[simp] theorem setFunc_invals (h : Hub) (f : Nat) (v : Func) : (setFunc h f v).invals = h.invals := rfl
@[simp] theorem setFunc_msix (h : Hub) (f : Nat) (v : Func) : (setFunc h f v).msix = h.msix := rfl
@[simp] theorem setFunc_teardown (h : Hub) (f : Nat) (v : Func) : (setFunc h f v).teardown = h.teardown := rfl
@[simp] theorem setFunc_freeAfter (h : Hub) (f : Nat) (v : Func) : (setFunc h f v).freeAfter = h.freeAfter := rfl
@[simp] theorem setFunc_sems (h : Hub) (f : Nat) (v : Func) : (setFunc h f v).sems = h.sems := rfl
@[simp] theorem setFunc_waits (h : Hub) (f : Nat) (v : Func) : (setFunc h f v).waits = h.waits := rfl
@[simp] theorem setFunc_grants (h : Hub) (f : Nat) (v : Func) : (setFunc h f v).grants = h.grants := rfl
@[simp] theorem setFunc_barriers (h : Hub) (f : Nat) (v : Func) : (setFunc h f v).barriers = h.barriers := rfl
@[simp] theorem setFunc_parts (h : Hub) (f : Nat) (v : Func) : (setFunc h f v).parts = h.parts := rfl
@[simp] theorem setFunc_posts (h : Hub) (f : Nat) (v : Func) : (setFunc h f v).posts = h.posts := rfl
@[simp] theorem setFunc_acqWait (h : Hub) (f : Nat) (v : Func) : (setFunc h f v).acqWait = h.acqWait := rfl
@[simp] theorem setFunc_guests (h : Hub) (f : Nat) (v : Func) : (setFunc h f v).guests = h.guests := rfl
@[simp] theorem setFunc_links (h : Hub) (f : Nat) (v : Func) : (setFunc h f v).links = h.links := rfl
@[simp] theorem setFunc_leases (h : Hub) (f : Nat) (v : Func) : (setFunc h f v).leases = h.leases := rfl
@[simp] theorem setFunc_strs (h : Hub) (f : Nat) (v : Func) : (setFunc h f v).strs = h.strs := rfl
@[simp] theorem setFunc_noteRing (h : Hub) (f : Nat) (v : Func) : (setFunc h f v).noteRing = h.noteRing := rfl
@[simp] theorem setFunc_nseq (h : Hub) (f : Nat) (v : Func) : (setFunc h f v).nseq = h.nseq := rfl
@[simp] theorem setFunc_notifies (h : Hub) (f : Nat) (v : Func) : (setFunc h f v).notifies = h.notifies := rfl
@[simp] theorem setFunc_notifySeq (h : Hub) (f : Nat) (v : Func) : (setFunc h f v).notifySeq = h.notifySeq := rfl
@[simp] theorem setFunc_todo (h : Hub) (f : Nat) (v : Func) : (setFunc h f v).todo = h.todo := rfl
@[simp] theorem setFunc_podId (h : Hub) (f : Nat) (v : Func) : (setFunc h f v).podId = h.podId := rfl
@[simp] theorem setFunc_podMgr (h : Hub) (f : Nat) (v : Func) : (setFunc h f v).podMgr = h.podMgr := rfl
@[simp] theorem setFunc_podEther (h : Hub) (f : Nat) (v : Func) : (setFunc h f v).podEther = h.podEther := rfl
@[simp] theorem setFunc_podVlan (h : Hub) (f : Nat) (v : Func) : (setFunc h f v).podVlan = h.podVlan := rfl
@[simp] theorem setFunc_podTx (h : Hub) (f : Nat) (v : Func) : (setFunc h f v).podTx = h.podTx := rfl
@[simp] theorem setFunc_podRx (h : Hub) (f : Nat) (v : Func) : (setFunc h f v).podRx = h.podRx := rfl
@[simp] theorem setFunc_podAck (h : Hub) (f : Nat) (v : Func) : (setFunc h f v).podAck = h.podAck := rfl
@[simp] theorem setFunc_podMsgId (h : Hub) (f : Nat) (v : Func) : (setFunc h f v).podMsgId = h.podMsgId := rfl
@[simp] theorem setFunc_podCh (h : Hub) (f : Nat) (v : Func) : (setFunc h f v).podCh = h.podCh := rfl
@[simp] theorem setFunc_podRxQ (h : Hub) (f : Nat) (v : Func) : (setFunc h f v).podRxQ = h.podRxQ := rfl
@[simp] theorem setFunc_podIn (h : Hub) (f : Nat) (v : Func) : (setFunc h f v).podIn = h.podIn := rfl
@[simp] theorem setFunc_podBar (h : Hub) (f : Nat) (v : Func) : (setFunc h f v).podBar = h.podBar := rfl
@[simp] theorem setFunc_podHas (h : Hub) (f : Nat) (v : Func) : (setFunc h f v).podHas = h.podHas := rfl
@[simp] theorem setFunc_pools (h : Hub) (f : Nat) (v : Func) : (setFunc h f v).pools = h.pools := rfl
@[simp] theorem setFunc_casSlots (h : Hub) (f : Nat) (v : Func) : (setFunc h f v).casSlots = h.casSlots := rfl
@[simp] theorem setFunc_podGen (h : Hub) (f : Nat) (v : Func) : (setFunc h f v).podGen = h.podGen := rfl
@[simp] theorem setFunc_podKey (h : Hub) (f : Nat) (v : Func) : (setFunc h f v).podKey = h.podKey := rfl
@[simp] theorem setFunc_dead (h : Hub) (f : Nat) (v : Func) : (setFunc h f v).dead = h.dead := rfl
@[simp] theorem setFunc_retried (h : Hub) (f : Nat) (v : Func) : (setFunc h f v).retried = h.retried := rfl
@[simp] theorem setFunc_warmRun (h : Hub) (f : Nat) (v : Func) : (setFunc h f v).warmRun = h.warmRun := rfl
@[simp] theorem setFunc_bootMs (h : Hub) (f : Nat) (v : Func) : (setFunc h f v).bootMs = h.bootMs := rfl
@[simp] theorem setFunc_present (h : Hub) (f : Nat) (v : Func) : (setFunc h f v).present = h.present := rfl
@[simp] theorem setFunc_trcBuf (h : Hub) (f : Nat) (v : Func) : (setFunc h f v).trcBuf = h.trcBuf := rfl
@[simp] theorem setFunc_trcN (h : Hub) (f : Nat) (v : Func) : (setFunc h f v).trcN = h.trcN := rfl
@[simp] theorem setFunc_trcLeft (h : Hub) (f : Nat) (v : Func) : (setFunc h f v).trcLeft = h.trcLeft := rfl
@[simp] theorem setFunc_redN (h : Hub) (f : Nat) (v : Func) : (setFunc h f v).redN = h.redN := rfl
@[simp] theorem setFunc_guestImgs (h : Hub) (f : Nat) (v : Func) : (setFunc h f v).guestImgs = h.guestImgs := rfl
@[simp] theorem setFunc_rimTries (h : Hub) (f : Nat) (v : Func) : (setFunc h f v).rimTries = h.rimTries := rfl
@[simp] theorem setFunc_wheels (h : Hub) (f : Nat) (v : Func) : (setFunc h f v).wheels = h.wheels := rfl
@[simp] theorem setFunc_binds (h : Hub) (f : Nat) (v : Func) : (setFunc h f v).binds = h.binds := rfl
@[simp] theorem setFunc_bindQ (h : Hub) (f : Nat) (v : Func) : (setFunc h f v).bindQ = h.bindQ := rfl
@[simp] theorem setFunc_mg (h : Hub) (f : Nat) (v : Func) : (setFunc h f v).mg = h.mg := rfl
@[simp] theorem setFunc_pwr (h : Hub) (f : Nat) (v : Func) : (setFunc h f v).pwr = h.pwr := rfl
@[simp] theorem setFunc_pcie (h : Hub) (f : Nat) (v : Func) : (setFunc h f v).pcie = h.pcie := rfl

/-! ### sendMsix -/

@[simp] theorem sendMsix_variant (h : Hub) (f v : Nat) : (sendMsix h f v).variant = h.variant := by simp only [sendMsix]; split; rfl; split <;> rfl
@[simp] theorem sendMsix_regs (h : Hub) (f v : Nat) : (sendMsix h f v).regs = h.regs := by simp only [sendMsix]; split; rfl; split <;> rfl
@[simp] theorem sendMsix_od (h : Hub) (f v : Nat) : (sendMsix h f v).od = h.od := by simp only [sendMsix]; split; rfl; split <;> rfl
@[simp] theorem sendMsix_freeN (h : Hub) (f v : Nat) : (sendMsix h f v).freeN = h.freeN := by simp only [sendMsix]; split; rfl; split <;> rfl
@[simp] theorem sendMsix_hbm (h : Hub) (f v : Nat) : (sendMsix h f v).hbm = h.hbm := by simp only [sendMsix]; split; rfl; split <;> rfl
@[simp] theorem sendMsix_poison (h : Hub) (f v : Nat) : (sendMsix h f v).poison = h.poison := by simp only [sendMsix]; split; rfl; split <;> rfl
@[simp] theorem sendMsix_hostMem (h : Hub) (f v : Nat) : (sendMsix h f v).hostMem = h.hostMem := by simp only [sendMsix]; split; rfl; split <;> rfl
@[simp] theorem sendMsix_hostBuf (h : Hub) (f v : Nat) : (sendMsix h f v).hostBuf = h.hostBuf := by simp only [sendMsix]; split; rfl; split <;> rfl
@[simp] theorem sendMsix_hostHave (h : Hub) (f v : Nat) : (sendMsix h f v).hostHave = h.hostHave := by simp only [sendMsix]; split; rfl; split <;> rfl
@[simp] theorem sendMsix_hostReads (h : Hub) (f v : Nat) : (sendMsix h f v).hostReads = h.hostReads := by simp only [sendMsix]; split; rfl; split <;> rfl
@[simp] theorem sendMsix_live (h : Hub) (f v : Nat) : (sendMsix h f v).live = h.live := by simp only [sendMsix]; split; rfl; split <;> rfl
@[simp] theorem sendMsix_portCap (h : Hub) (f v : Nat) : (sendMsix h f v).portCap = h.portCap := by simp only [sendMsix]; split; rfl; split <;> rfl
@[simp] theorem sendMsix_reserve (h : Hub) (f v : Nat) : (sendMsix h f v).reserve = h.reserve := by simp only [sendMsix]; split; rfl; split <;> rfl
@[simp] theorem sendMsix_hbms (h : Hub) (f v : Nat) : (sendMsix h f v).hbms = h.hbms := by simp only [sendMsix]; split; rfl; split <;> rfl
@[simp] theorem sendMsix_ports (h : Hub) (f v : Nat) : (sendMsix h f v).ports = h.ports := by simp only [sendMsix]; split; rfl; split <;> rfl
@[simp] theorem sendMsix_regions (h : Hub) (f v : Nat) : (sendMsix h f v).regions = h.regions := by simp only [sendMsix]; split; rfl; split <;> rfl
@[simp] theorem sendMsix_dir (h : Hub) (f v : Nat) : (sendMsix h f v).dir = h.dir := by simp only [sendMsix]; split; rfl; split <;> rfl
@[simp] theorem sendMsix_cohTxns (h : Hub) (f v : Nat) : (sendMsix h f v).cohTxns = h.cohTxns := by simp only [sendMsix]; split; rfl; split <;> rfl
@[simp] theorem sendMsix_cohQ (h : Hub) (f v : Nat) : (sendMsix h f v).cohQ = h.cohQ := by simp only [sendMsix]; split; rfl; split <;> rfl
@[simp] theorem sendMsix_cohPend (h : Hub) (f v : Nat) : (sendMsix h f v).cohPend = h.cohPend := by simp only [sendMsix]; split; rfl; split <;> rfl
@[simp] theorem sendMsix_sweeps (h : Hub) (f v : Nat) : (sendMsix h f v).sweeps = h.sweeps := by simp only [sendMsix]; split; rfl; split <;> rfl
@[simp] theorem sendMsix_agents (h : Hub) (f v : Nat) : (sendMsix h f v).agents = h.agents := by simp only [sendMsix]; split; rfl; split <;> rfl
@[simp] theorem sendMsix_agentLines (h : Hub) (f v : Nat) : (sendMsix h f v).agentLines = h.agentLines := by simp only [sendMsix]; split; rfl; split <;> rfl
@[simp] theorem sendMsix_snpOut (h : Hub) (f v : Nat) : (sendMsix h f v).snpOut = h.snpOut := by simp only [sendMsix]; split; rfl; split <;> rfl
@[simp] theorem sendMsix_tc (h : Hub) (f v : Nat) : (sendMsix h f v).tc = h.tc := by simp only [sendMsix]; split; rfl; split <;> rfl
@[simp] theorem sendMsix_tcHold (h : Hub) (f v : Nat) : (sendMsix h f v).tcHold = h.tcHold := by simp only [sendMsix]; split; rfl; split <;> rfl
@[simp] theorem sendMsix_ctlStarts (h : Hub) (f v : Nat) : (sendMsix h f v).ctlStarts = h.ctlStarts := by simp only [sendMsix]; split; rfl; split <;> rfl
@[simp] theorem sendMsix_dataStarts (h : Hub) (f v : Nat) : (sendMsix h f v).dataStarts = h.dataStarts := by simp only [sendMsix]; split; rfl; split <;> rfl
@[simp] theorem sendMsix_resyncFail (h : Hub) (f v : Nat) : (sendMsix h f v).resyncFail = h.resyncFail := by simp only [sendMsix]; split; rfl; split <;> rfl
@[simp] theorem sendMsix_frozenBy (h : Hub) (f v : Nat) : (sendMsix h f v).frozenBy = h.frozenBy := by simp only [sendMsix]; split; rfl; split <;> rfl
@[simp] theorem sendMsix_fatalPend (h : Hub) (f v : Nat) : (sendMsix h f v).fatalPend = h.fatalPend := by simp only [sendMsix]; split; rfl; split <;> rfl
@[simp] theorem sendMsix_dataReset (h : Hub) (f v : Nat) : (sendMsix h f v).dataReset = h.dataReset := by simp only [sendMsix]; split; rfl; split <;> rfl
@[simp] theorem sendMsix_ctlDown (h : Hub) (f v : Nat) : (sendMsix h f v).ctlDown = h.ctlDown := by simp only [sendMsix]; split; rfl; split <;> rfl
@[simp] theorem sendMsix_held (h : Hub) (f v : Nat) : (sendMsix h f v).held = h.held := by simp only [sendMsix]; split; rfl; split <;> rfl
@[simp] theorem sendMsix_notices (h : Hub) (f v : Nat) : (sendMsix h f v).notices = h.notices := by simp only [sendMsix]; split; rfl; split <;> rfl
@[simp] theorem sendMsix_noticeLost (h : Hub) (f v : Nat) : (sendMsix h f v).noticeLost = h.noticeLost := by simp only [sendMsix]; split; rfl; split <;> rfl
@[simp] theorem sendMsix_faultRing (h : Hub) (f v : Nat) : (sendMsix h f v).faultRing = h.faultRing := by simp only [sendMsix]; split; rfl; split <;> rfl
@[simp] theorem sendMsix_faultSeq (h : Hub) (f v : Nat) : (sendMsix h f v).faultSeq = h.faultSeq := by simp only [sendMsix]; split; rfl; split <;> rfl
@[simp] theorem sendMsix_queues (h : Hub) (f v : Nat) : (sendMsix h f v).queues = h.queues := by simp only [sendMsix]; split; rfl; split <;> rfl
@[simp] theorem sendMsix_qnums (h : Hub) (f v : Nat) : (sendMsix h f v).qnums = h.qnums := by simp only [sendMsix]; split; rfl; split <;> rfl
@[simp] theorem sendMsix_cmds (h : Hub) (f v : Nat) : (sendMsix h f v).cmds = h.cmds := by simp only [sendMsix]; split; rfl; split <;> rfl
@[simp] theorem sendMsix_ops (h : Hub) (f v : Nat) : (sendMsix h f v).ops = h.ops := by simp only [sendMsix]; split; rfl; split <;> rfl
@[simp] theorem sendMsix_routes (h : Hub) (f v : Nat) : (sendMsix h f v).routes = h.routes := by simp only [sendMsix]; split; rfl; split <;> rfl
@[simp] theorem sendMsix_redQ (h : Hub) (f v : Nat) : (sendMsix h f v).redQ = h.redQ := by simp only [sendMsix]; split; rfl; split <;> rfl
@[simp] theorem sendMsix_atc (h : Hub) (f v : Nat) : (sendMsix h f v).atc = h.atc := by simp only [sendMsix]; split; rfl; split <;> rfl
@[simp] theorem sendMsix_trReqs (h : Hub) (f v : Nat) : (sendMsix h f v).trReqs = h.trReqs := by simp only [sendMsix]; split; rfl; split <;> rfl
@[simp] theorem sendMsix_invals (h : Hub) (f v : Nat) : (sendMsix h f v).invals = h.invals := by simp only [sendMsix]; split; rfl; split <;> rfl
@[simp] theorem sendMsix_funcs (h : Hub) (f v : Nat) : (sendMsix h f v).funcs = h.funcs := by simp only [sendMsix]; split; rfl; split <;> rfl
@[simp] theorem sendMsix_teardown (h : Hub) (f v : Nat) : (sendMsix h f v).teardown = h.teardown := by simp only [sendMsix]; split; rfl; split <;> rfl
@[simp] theorem sendMsix_freeAfter (h : Hub) (f v : Nat) : (sendMsix h f v).freeAfter = h.freeAfter := by simp only [sendMsix]; split; rfl; split <;> rfl
@[simp] theorem sendMsix_sems (h : Hub) (f v : Nat) : (sendMsix h f v).sems = h.sems := by simp only [sendMsix]; split; rfl; split <;> rfl
@[simp] theorem sendMsix_waits (h : Hub) (f v : Nat) : (sendMsix h f v).waits = h.waits := by simp only [sendMsix]; split; rfl; split <;> rfl
@[simp] theorem sendMsix_grants (h : Hub) (f v : Nat) : (sendMsix h f v).grants = h.grants := by simp only [sendMsix]; split; rfl; split <;> rfl
@[simp] theorem sendMsix_barriers (h : Hub) (f v : Nat) : (sendMsix h f v).barriers = h.barriers := by simp only [sendMsix]; split; rfl; split <;> rfl
@[simp] theorem sendMsix_parts (h : Hub) (f v : Nat) : (sendMsix h f v).parts = h.parts := by simp only [sendMsix]; split; rfl; split <;> rfl
@[simp] theorem sendMsix_posts (h : Hub) (f v : Nat) : (sendMsix h f v).posts = h.posts := by simp only [sendMsix]; split; rfl; split <;> rfl
@[simp] theorem sendMsix_acqWait (h : Hub) (f v : Nat) : (sendMsix h f v).acqWait = h.acqWait := by simp only [sendMsix]; split; rfl; split <;> rfl
@[simp] theorem sendMsix_guests (h : Hub) (f v : Nat) : (sendMsix h f v).guests = h.guests := by simp only [sendMsix]; split; rfl; split <;> rfl
@[simp] theorem sendMsix_links (h : Hub) (f v : Nat) : (sendMsix h f v).links = h.links := by simp only [sendMsix]; split; rfl; split <;> rfl
@[simp] theorem sendMsix_leases (h : Hub) (f v : Nat) : (sendMsix h f v).leases = h.leases := by simp only [sendMsix]; split; rfl; split <;> rfl
@[simp] theorem sendMsix_strs (h : Hub) (f v : Nat) : (sendMsix h f v).strs = h.strs := by simp only [sendMsix]; split; rfl; split <;> rfl
@[simp] theorem sendMsix_noteRing (h : Hub) (f v : Nat) : (sendMsix h f v).noteRing = h.noteRing := by simp only [sendMsix]; split; rfl; split <;> rfl
@[simp] theorem sendMsix_nseq (h : Hub) (f v : Nat) : (sendMsix h f v).nseq = h.nseq := by simp only [sendMsix]; split; rfl; split <;> rfl
@[simp] theorem sendMsix_notifies (h : Hub) (f v : Nat) : (sendMsix h f v).notifies = h.notifies := by simp only [sendMsix]; split; rfl; split <;> rfl
@[simp] theorem sendMsix_notifySeq (h : Hub) (f v : Nat) : (sendMsix h f v).notifySeq = h.notifySeq := by simp only [sendMsix]; split; rfl; split <;> rfl
@[simp] theorem sendMsix_todo (h : Hub) (f v : Nat) : (sendMsix h f v).todo = h.todo := by simp only [sendMsix]; split; rfl; split <;> rfl
@[simp] theorem sendMsix_podId (h : Hub) (f v : Nat) : (sendMsix h f v).podId = h.podId := by simp only [sendMsix]; split; rfl; split <;> rfl
@[simp] theorem sendMsix_podMgr (h : Hub) (f v : Nat) : (sendMsix h f v).podMgr = h.podMgr := by simp only [sendMsix]; split; rfl; split <;> rfl
@[simp] theorem sendMsix_podEther (h : Hub) (f v : Nat) : (sendMsix h f v).podEther = h.podEther := by simp only [sendMsix]; split; rfl; split <;> rfl
@[simp] theorem sendMsix_podVlan (h : Hub) (f v : Nat) : (sendMsix h f v).podVlan = h.podVlan := by simp only [sendMsix]; split; rfl; split <;> rfl
@[simp] theorem sendMsix_podTx (h : Hub) (f v : Nat) : (sendMsix h f v).podTx = h.podTx := by simp only [sendMsix]; split; rfl; split <;> rfl
@[simp] theorem sendMsix_podRx (h : Hub) (f v : Nat) : (sendMsix h f v).podRx = h.podRx := by simp only [sendMsix]; split; rfl; split <;> rfl
@[simp] theorem sendMsix_podAck (h : Hub) (f v : Nat) : (sendMsix h f v).podAck = h.podAck := by simp only [sendMsix]; split; rfl; split <;> rfl
@[simp] theorem sendMsix_podMsgId (h : Hub) (f v : Nat) : (sendMsix h f v).podMsgId = h.podMsgId := by simp only [sendMsix]; split; rfl; split <;> rfl
@[simp] theorem sendMsix_podCh (h : Hub) (f v : Nat) : (sendMsix h f v).podCh = h.podCh := by simp only [sendMsix]; split; rfl; split <;> rfl
@[simp] theorem sendMsix_podRxQ (h : Hub) (f v : Nat) : (sendMsix h f v).podRxQ = h.podRxQ := by simp only [sendMsix]; split; rfl; split <;> rfl
@[simp] theorem sendMsix_podIn (h : Hub) (f v : Nat) : (sendMsix h f v).podIn = h.podIn := by simp only [sendMsix]; split; rfl; split <;> rfl
@[simp] theorem sendMsix_podBar (h : Hub) (f v : Nat) : (sendMsix h f v).podBar = h.podBar := by simp only [sendMsix]; split; rfl; split <;> rfl
@[simp] theorem sendMsix_podHas (h : Hub) (f v : Nat) : (sendMsix h f v).podHas = h.podHas := by simp only [sendMsix]; split; rfl; split <;> rfl
@[simp] theorem sendMsix_pools (h : Hub) (f v : Nat) : (sendMsix h f v).pools = h.pools := by simp only [sendMsix]; split; rfl; split <;> rfl
@[simp] theorem sendMsix_casSlots (h : Hub) (f v : Nat) : (sendMsix h f v).casSlots = h.casSlots := by simp only [sendMsix]; split; rfl; split <;> rfl
@[simp] theorem sendMsix_podGen (h : Hub) (f v : Nat) : (sendMsix h f v).podGen = h.podGen := by simp only [sendMsix]; split; rfl; split <;> rfl
@[simp] theorem sendMsix_podKey (h : Hub) (f v : Nat) : (sendMsix h f v).podKey = h.podKey := by simp only [sendMsix]; split; rfl; split <;> rfl
@[simp] theorem sendMsix_dead (h : Hub) (f v : Nat) : (sendMsix h f v).dead = h.dead := by simp only [sendMsix]; split; rfl; split <;> rfl
@[simp] theorem sendMsix_retried (h : Hub) (f v : Nat) : (sendMsix h f v).retried = h.retried := by simp only [sendMsix]; split; rfl; split <;> rfl
@[simp] theorem sendMsix_warmRun (h : Hub) (f v : Nat) : (sendMsix h f v).warmRun = h.warmRun := by simp only [sendMsix]; split; rfl; split <;> rfl
@[simp] theorem sendMsix_bootMs (h : Hub) (f v : Nat) : (sendMsix h f v).bootMs = h.bootMs := by simp only [sendMsix]; split; rfl; split <;> rfl
@[simp] theorem sendMsix_present (h : Hub) (f v : Nat) : (sendMsix h f v).present = h.present := by simp only [sendMsix]; split; rfl; split <;> rfl
@[simp] theorem sendMsix_trcBuf (h : Hub) (f v : Nat) : (sendMsix h f v).trcBuf = h.trcBuf := by simp only [sendMsix]; split; rfl; split <;> rfl
@[simp] theorem sendMsix_trcN (h : Hub) (f v : Nat) : (sendMsix h f v).trcN = h.trcN := by simp only [sendMsix]; split; rfl; split <;> rfl
@[simp] theorem sendMsix_trcLeft (h : Hub) (f v : Nat) : (sendMsix h f v).trcLeft = h.trcLeft := by simp only [sendMsix]; split; rfl; split <;> rfl
@[simp] theorem sendMsix_redN (h : Hub) (f v : Nat) : (sendMsix h f v).redN = h.redN := by simp only [sendMsix]; split; rfl; split <;> rfl
@[simp] theorem sendMsix_guestImgs (h : Hub) (f v : Nat) : (sendMsix h f v).guestImgs = h.guestImgs := by simp only [sendMsix]; split; rfl; split <;> rfl
@[simp] theorem sendMsix_rimTries (h : Hub) (f v : Nat) : (sendMsix h f v).rimTries = h.rimTries := by simp only [sendMsix]; split; rfl; split <;> rfl
@[simp] theorem sendMsix_wheels (h : Hub) (f v : Nat) : (sendMsix h f v).wheels = h.wheels := by simp only [sendMsix]; split; rfl; split <;> rfl
@[simp] theorem sendMsix_binds (h : Hub) (f v : Nat) : (sendMsix h f v).binds = h.binds := by simp only [sendMsix]; split; rfl; split <;> rfl
@[simp] theorem sendMsix_bindQ (h : Hub) (f v : Nat) : (sendMsix h f v).bindQ = h.bindQ := by simp only [sendMsix]; split; rfl; split <;> rfl
@[simp] theorem sendMsix_mg (h : Hub) (f v : Nat) : (sendMsix h f v).mg = h.mg := by simp only [sendMsix]; split; rfl; split <;> rfl
@[simp] theorem sendMsix_pwr (h : Hub) (f v : Nat) : (sendMsix h f v).pwr = h.pwr := by simp only [sendMsix]; split; rfl; split <;> rfl
@[simp] theorem sendMsix_pcie (h : Hub) (f v : Nat) : (sendMsix h f v).pcie = h.pcie := by simp only [sendMsix]; split; rfl; split <;> rfl

/-! ### raise -/

@[simp] theorem raise_variant (h : Hub) (e : Evt) (i : Nat) : (raise h e i).variant = h.variant := by simp only [raise]; split; split <;> simp; simp
@[simp] theorem raise_od (h : Hub) (e : Evt) (i : Nat) : (raise h e i).od = h.od := by simp only [raise]; split; split <;> simp; simp
@[simp] theorem raise_freeN (h : Hub) (e : Evt) (i : Nat) : (raise h e i).freeN = h.freeN := by simp only [raise]; split; split <;> simp; simp
@[simp] theorem raise_hbm (h : Hub) (e : Evt) (i : Nat) : (raise h e i).hbm = h.hbm := by simp only [raise]; split; split <;> simp; simp
@[simp] theorem raise_poison (h : Hub) (e : Evt) (i : Nat) : (raise h e i).poison = h.poison := by simp only [raise]; split; split <;> simp; simp
@[simp] theorem raise_hostMem (h : Hub) (e : Evt) (i : Nat) : (raise h e i).hostMem = h.hostMem := by simp only [raise]; split; split <;> simp; simp
@[simp] theorem raise_hostBuf (h : Hub) (e : Evt) (i : Nat) : (raise h e i).hostBuf = h.hostBuf := by simp only [raise]; split; split <;> simp; simp
@[simp] theorem raise_hostHave (h : Hub) (e : Evt) (i : Nat) : (raise h e i).hostHave = h.hostHave := by simp only [raise]; split; split <;> simp; simp
@[simp] theorem raise_hostReads (h : Hub) (e : Evt) (i : Nat) : (raise h e i).hostReads = h.hostReads := by simp only [raise]; split; split <;> simp; simp
@[simp] theorem raise_live (h : Hub) (e : Evt) (i : Nat) : (raise h e i).live = h.live := by simp only [raise]; split; split <;> simp; simp
@[simp] theorem raise_portCap (h : Hub) (e : Evt) (i : Nat) : (raise h e i).portCap = h.portCap := by simp only [raise]; split; split <;> simp; simp
@[simp] theorem raise_reserve (h : Hub) (e : Evt) (i : Nat) : (raise h e i).reserve = h.reserve := by simp only [raise]; split; split <;> simp; simp
@[simp] theorem raise_hbms (h : Hub) (e : Evt) (i : Nat) : (raise h e i).hbms = h.hbms := by simp only [raise]; split; split <;> simp; simp
@[simp] theorem raise_ports (h : Hub) (e : Evt) (i : Nat) : (raise h e i).ports = h.ports := by simp only [raise]; split; split <;> simp; simp
@[simp] theorem raise_regions (h : Hub) (e : Evt) (i : Nat) : (raise h e i).regions = h.regions := by simp only [raise]; split; split <;> simp; simp
@[simp] theorem raise_dir (h : Hub) (e : Evt) (i : Nat) : (raise h e i).dir = h.dir := by simp only [raise]; split; split <;> simp; simp
@[simp] theorem raise_cohTxns (h : Hub) (e : Evt) (i : Nat) : (raise h e i).cohTxns = h.cohTxns := by simp only [raise]; split; split <;> simp; simp
@[simp] theorem raise_cohQ (h : Hub) (e : Evt) (i : Nat) : (raise h e i).cohQ = h.cohQ := by simp only [raise]; split; split <;> simp; simp
@[simp] theorem raise_cohPend (h : Hub) (e : Evt) (i : Nat) : (raise h e i).cohPend = h.cohPend := by simp only [raise]; split; split <;> simp; simp
@[simp] theorem raise_sweeps (h : Hub) (e : Evt) (i : Nat) : (raise h e i).sweeps = h.sweeps := by simp only [raise]; split; split <;> simp; simp
@[simp] theorem raise_agents (h : Hub) (e : Evt) (i : Nat) : (raise h e i).agents = h.agents := by simp only [raise]; split; split <;> simp; simp
@[simp] theorem raise_agentLines (h : Hub) (e : Evt) (i : Nat) : (raise h e i).agentLines = h.agentLines := by simp only [raise]; split; split <;> simp; simp
@[simp] theorem raise_snpOut (h : Hub) (e : Evt) (i : Nat) : (raise h e i).snpOut = h.snpOut := by simp only [raise]; split; split <;> simp; simp
@[simp] theorem raise_tc (h : Hub) (e : Evt) (i : Nat) : (raise h e i).tc = h.tc := by simp only [raise]; split; split <;> simp; simp
@[simp] theorem raise_tcHold (h : Hub) (e : Evt) (i : Nat) : (raise h e i).tcHold = h.tcHold := by simp only [raise]; split; split <;> simp; simp
@[simp] theorem raise_ctlStarts (h : Hub) (e : Evt) (i : Nat) : (raise h e i).ctlStarts = h.ctlStarts := by simp only [raise]; split; split <;> simp; simp
@[simp] theorem raise_dataStarts (h : Hub) (e : Evt) (i : Nat) : (raise h e i).dataStarts = h.dataStarts := by simp only [raise]; split; split <;> simp; simp
@[simp] theorem raise_resyncFail (h : Hub) (e : Evt) (i : Nat) : (raise h e i).resyncFail = h.resyncFail := by simp only [raise]; split; split <;> simp; simp
@[simp] theorem raise_frozenBy (h : Hub) (e : Evt) (i : Nat) : (raise h e i).frozenBy = h.frozenBy := by simp only [raise]; split; split <;> simp; simp
@[simp] theorem raise_fatalPend (h : Hub) (e : Evt) (i : Nat) : (raise h e i).fatalPend = h.fatalPend := by simp only [raise]; split; split <;> simp; simp
@[simp] theorem raise_dataReset (h : Hub) (e : Evt) (i : Nat) : (raise h e i).dataReset = h.dataReset := by simp only [raise]; split; split <;> simp; simp
@[simp] theorem raise_ctlDown (h : Hub) (e : Evt) (i : Nat) : (raise h e i).ctlDown = h.ctlDown := by simp only [raise]; split; split <;> simp; simp
@[simp] theorem raise_held (h : Hub) (e : Evt) (i : Nat) : (raise h e i).held = h.held := by simp only [raise]; split; split <;> simp; simp
@[simp] theorem raise_notices (h : Hub) (e : Evt) (i : Nat) : (raise h e i).notices = h.notices := by simp only [raise]; split; split <;> simp; simp
@[simp] theorem raise_noticeLost (h : Hub) (e : Evt) (i : Nat) : (raise h e i).noticeLost = h.noticeLost := by simp only [raise]; split; split <;> simp; simp
@[simp] theorem raise_faultRing (h : Hub) (e : Evt) (i : Nat) : (raise h e i).faultRing = h.faultRing := by simp only [raise]; split; split <;> simp; simp
@[simp] theorem raise_faultSeq (h : Hub) (e : Evt) (i : Nat) : (raise h e i).faultSeq = h.faultSeq := by simp only [raise]; split; split <;> simp; simp
@[simp] theorem raise_queues (h : Hub) (e : Evt) (i : Nat) : (raise h e i).queues = h.queues := by simp only [raise]; split; split <;> simp; simp
@[simp] theorem raise_qnums (h : Hub) (e : Evt) (i : Nat) : (raise h e i).qnums = h.qnums := by simp only [raise]; split; split <;> simp; simp
@[simp] theorem raise_cmds (h : Hub) (e : Evt) (i : Nat) : (raise h e i).cmds = h.cmds := by simp only [raise]; split; split <;> simp; simp
@[simp] theorem raise_ops (h : Hub) (e : Evt) (i : Nat) : (raise h e i).ops = h.ops := by simp only [raise]; split; split <;> simp; simp
@[simp] theorem raise_routes (h : Hub) (e : Evt) (i : Nat) : (raise h e i).routes = h.routes := by simp only [raise]; split; split <;> simp; simp
@[simp] theorem raise_redQ (h : Hub) (e : Evt) (i : Nat) : (raise h e i).redQ = h.redQ := by simp only [raise]; split; split <;> simp; simp
@[simp] theorem raise_atc (h : Hub) (e : Evt) (i : Nat) : (raise h e i).atc = h.atc := by simp only [raise]; split; split <;> simp; simp
@[simp] theorem raise_trReqs (h : Hub) (e : Evt) (i : Nat) : (raise h e i).trReqs = h.trReqs := by simp only [raise]; split; split <;> simp; simp
@[simp] theorem raise_invals (h : Hub) (e : Evt) (i : Nat) : (raise h e i).invals = h.invals := by simp only [raise]; split; split <;> simp; simp
@[simp] theorem raise_funcs (h : Hub) (e : Evt) (i : Nat) : (raise h e i).funcs = h.funcs := by simp only [raise]; split; split <;> simp; simp
@[simp] theorem raise_teardown (h : Hub) (e : Evt) (i : Nat) : (raise h e i).teardown = h.teardown := by simp only [raise]; split; split <;> simp; simp
@[simp] theorem raise_freeAfter (h : Hub) (e : Evt) (i : Nat) : (raise h e i).freeAfter = h.freeAfter := by simp only [raise]; split; split <;> simp; simp
@[simp] theorem raise_sems (h : Hub) (e : Evt) (i : Nat) : (raise h e i).sems = h.sems := by simp only [raise]; split; split <;> simp; simp
@[simp] theorem raise_waits (h : Hub) (e : Evt) (i : Nat) : (raise h e i).waits = h.waits := by simp only [raise]; split; split <;> simp; simp
@[simp] theorem raise_grants (h : Hub) (e : Evt) (i : Nat) : (raise h e i).grants = h.grants := by simp only [raise]; split; split <;> simp; simp
@[simp] theorem raise_barriers (h : Hub) (e : Evt) (i : Nat) : (raise h e i).barriers = h.barriers := by simp only [raise]; split; split <;> simp; simp
@[simp] theorem raise_parts (h : Hub) (e : Evt) (i : Nat) : (raise h e i).parts = h.parts := by simp only [raise]; split; split <;> simp; simp
@[simp] theorem raise_posts (h : Hub) (e : Evt) (i : Nat) : (raise h e i).posts = h.posts := by simp only [raise]; split; split <;> simp; simp
@[simp] theorem raise_acqWait (h : Hub) (e : Evt) (i : Nat) : (raise h e i).acqWait = h.acqWait := by simp only [raise]; split; split <;> simp; simp
@[simp] theorem raise_guests (h : Hub) (e : Evt) (i : Nat) : (raise h e i).guests = h.guests := by simp only [raise]; split; split <;> simp; simp
@[simp] theorem raise_links (h : Hub) (e : Evt) (i : Nat) : (raise h e i).links = h.links := by simp only [raise]; split; split <;> simp; simp
@[simp] theorem raise_leases (h : Hub) (e : Evt) (i : Nat) : (raise h e i).leases = h.leases := by simp only [raise]; split; split <;> simp; simp
@[simp] theorem raise_strs (h : Hub) (e : Evt) (i : Nat) : (raise h e i).strs = h.strs := by simp only [raise]; split; split <;> simp; simp
@[simp] theorem raise_noteRing (h : Hub) (e : Evt) (i : Nat) : (raise h e i).noteRing = h.noteRing := by simp only [raise]; split; split <;> simp; simp
@[simp] theorem raise_nseq (h : Hub) (e : Evt) (i : Nat) : (raise h e i).nseq = h.nseq := by simp only [raise]; split; split <;> simp; simp
@[simp] theorem raise_notifies (h : Hub) (e : Evt) (i : Nat) : (raise h e i).notifies = h.notifies := by simp only [raise]; split; split <;> simp; simp
@[simp] theorem raise_notifySeq (h : Hub) (e : Evt) (i : Nat) : (raise h e i).notifySeq = h.notifySeq := by simp only [raise]; split; split <;> simp; simp
@[simp] theorem raise_todo (h : Hub) (e : Evt) (i : Nat) : (raise h e i).todo = h.todo := by simp only [raise]; split; split <;> simp; simp
@[simp] theorem raise_podId (h : Hub) (e : Evt) (i : Nat) : (raise h e i).podId = h.podId := by simp only [raise]; split; split <;> simp; simp
@[simp] theorem raise_podMgr (h : Hub) (e : Evt) (i : Nat) : (raise h e i).podMgr = h.podMgr := by simp only [raise]; split; split <;> simp; simp
@[simp] theorem raise_podEther (h : Hub) (e : Evt) (i : Nat) : (raise h e i).podEther = h.podEther := by simp only [raise]; split; split <;> simp; simp
@[simp] theorem raise_podVlan (h : Hub) (e : Evt) (i : Nat) : (raise h e i).podVlan = h.podVlan := by simp only [raise]; split; split <;> simp; simp
@[simp] theorem raise_podTx (h : Hub) (e : Evt) (i : Nat) : (raise h e i).podTx = h.podTx := by simp only [raise]; split; split <;> simp; simp
@[simp] theorem raise_podRx (h : Hub) (e : Evt) (i : Nat) : (raise h e i).podRx = h.podRx := by simp only [raise]; split; split <;> simp; simp
@[simp] theorem raise_podAck (h : Hub) (e : Evt) (i : Nat) : (raise h e i).podAck = h.podAck := by simp only [raise]; split; split <;> simp; simp
@[simp] theorem raise_podMsgId (h : Hub) (e : Evt) (i : Nat) : (raise h e i).podMsgId = h.podMsgId := by simp only [raise]; split; split <;> simp; simp
@[simp] theorem raise_podCh (h : Hub) (e : Evt) (i : Nat) : (raise h e i).podCh = h.podCh := by simp only [raise]; split; split <;> simp; simp
@[simp] theorem raise_podRxQ (h : Hub) (e : Evt) (i : Nat) : (raise h e i).podRxQ = h.podRxQ := by simp only [raise]; split; split <;> simp; simp
@[simp] theorem raise_podIn (h : Hub) (e : Evt) (i : Nat) : (raise h e i).podIn = h.podIn := by simp only [raise]; split; split <;> simp; simp
@[simp] theorem raise_podBar (h : Hub) (e : Evt) (i : Nat) : (raise h e i).podBar = h.podBar := by simp only [raise]; split; split <;> simp; simp
@[simp] theorem raise_podHas (h : Hub) (e : Evt) (i : Nat) : (raise h e i).podHas = h.podHas := by simp only [raise]; split; split <;> simp; simp
@[simp] theorem raise_pools (h : Hub) (e : Evt) (i : Nat) : (raise h e i).pools = h.pools := by simp only [raise]; split; split <;> simp; simp
@[simp] theorem raise_casSlots (h : Hub) (e : Evt) (i : Nat) : (raise h e i).casSlots = h.casSlots := by simp only [raise]; split; split <;> simp; simp
@[simp] theorem raise_podGen (h : Hub) (e : Evt) (i : Nat) : (raise h e i).podGen = h.podGen := by simp only [raise]; split; split <;> simp; simp
@[simp] theorem raise_podKey (h : Hub) (e : Evt) (i : Nat) : (raise h e i).podKey = h.podKey := by simp only [raise]; split; split <;> simp; simp
@[simp] theorem raise_dead (h : Hub) (e : Evt) (i : Nat) : (raise h e i).dead = h.dead := by simp only [raise]; split; split <;> simp; simp
@[simp] theorem raise_retried (h : Hub) (e : Evt) (i : Nat) : (raise h e i).retried = h.retried := by simp only [raise]; split; split <;> simp; simp
@[simp] theorem raise_warmRun (h : Hub) (e : Evt) (i : Nat) : (raise h e i).warmRun = h.warmRun := by simp only [raise]; split; split <;> simp; simp
@[simp] theorem raise_bootMs (h : Hub) (e : Evt) (i : Nat) : (raise h e i).bootMs = h.bootMs := by simp only [raise]; split; split <;> simp; simp
@[simp] theorem raise_present (h : Hub) (e : Evt) (i : Nat) : (raise h e i).present = h.present := by simp only [raise]; split; split <;> simp; simp
@[simp] theorem raise_trcBuf (h : Hub) (e : Evt) (i : Nat) : (raise h e i).trcBuf = h.trcBuf := by simp only [raise]; split; split <;> simp; simp
@[simp] theorem raise_trcN (h : Hub) (e : Evt) (i : Nat) : (raise h e i).trcN = h.trcN := by simp only [raise]; split; split <;> simp; simp
@[simp] theorem raise_trcLeft (h : Hub) (e : Evt) (i : Nat) : (raise h e i).trcLeft = h.trcLeft := by simp only [raise]; split; split <;> simp; simp
@[simp] theorem raise_redN (h : Hub) (e : Evt) (i : Nat) : (raise h e i).redN = h.redN := by simp only [raise]; split; split <;> simp; simp
@[simp] theorem raise_guestImgs (h : Hub) (e : Evt) (i : Nat) : (raise h e i).guestImgs = h.guestImgs := by simp only [raise]; split; split <;> simp; simp
@[simp] theorem raise_rimTries (h : Hub) (e : Evt) (i : Nat) : (raise h e i).rimTries = h.rimTries := by simp only [raise]; split; split <;> simp; simp
@[simp] theorem raise_wheels (h : Hub) (e : Evt) (i : Nat) : (raise h e i).wheels = h.wheels := by simp only [raise]; split; split <;> simp; simp
@[simp] theorem raise_binds (h : Hub) (e : Evt) (i : Nat) : (raise h e i).binds = h.binds := by simp only [raise]; split; split <;> simp; simp
@[simp] theorem raise_bindQ (h : Hub) (e : Evt) (i : Nat) : (raise h e i).bindQ = h.bindQ := by simp only [raise]; split; split <;> simp; simp
@[simp] theorem raise_mg (h : Hub) (e : Evt) (i : Nat) : (raise h e i).mg = h.mg := by simp only [raise]; split; split <;> simp; simp
@[simp] theorem raise_pwr (h : Hub) (e : Evt) (i : Nat) : (raise h e i).pwr = h.pwr := by simp only [raise]; split; split <;> simp; simp
@[simp] theorem raise_pcie (h : Hub) (e : Evt) (i : Nat) : (raise h e i).pcie = h.pcie := by simp only [raise]; split; split <;> simp; simp

end Sys2Proof.Machine
end

