-- ==== Sys2Proof/Laws/Tab.lean ====
section
/-!
SUPPORT. Laws/Tab.lean: a table read after a write, and the canonical form of memories under every operation.
-/
namespace Sys2Proof.Machine

variable {α : Type}

@[simp] theorem tget_tset_same (t : List (Nat × α)) (k : Nat) (v : α) : tget (tset t k v) k = some v := by
  induction t with
  | nil => simp [tset, tget]
  | cons e r ih =>
    simp only [tset]
    split
    · simp [tget]
    · split
      · simp [tget]
      · rw [tget, if_neg (by omega), ih]

theorem tget_tset_ne (t : List (Nat × α)) {k j : Nat} (v : α) (h : j ≠ k) : tget (tset t k v) j = tget t j := by
  induction t with
  | nil => simp [tset, tget, Ne.symm h]
  | cons e r ih =>
    simp only [tset]
    split
    · rw [tget, if_neg (Ne.symm h)]
    · split
      · rename_i _ hk
        simp [tget, Ne.symm h, ← hk]
      · simp [tget, ih]

@[simp] theorem tgetD_tset_same (t : List (Nat × α)) (k : Nat) (v d : α) : tgetD (tset t k v) k d = v := by simp [tgetD]

theorem tgetD_tset_ne (t : List (Nat × α)) {k j : Nat} (v d : α) (h : j ≠ k) : tgetD (tset t k v) j d = tgetD t j d := by
  simp [tgetD, tget_tset_ne _ _ h]

@[simp] theorem tget_tdel_same (t : List (Nat × α)) (k : Nat) : tget (tdel t k) k = none := by
  induction t with
  | nil => rfl
  | cons e r ih =>
    simp only [tdel, List.filter_cons] at ih ⊢
    split
    · rename_i h
      rw [tget, if_neg (by simpa using h), ih]
    · exact ih

theorem tget_tdel_ne (t : List (Nat × α)) {k j : Nat} (h : j ≠ k) : tget (tdel t k) j = tget t j := by
  induction t with
  | nil => rfl
  | cons e r ih =>
    simp only [tdel, List.filter_cons] at ih ⊢
    split
    · simp [tget, ih]
    · rename_i hk
      have : e.1 = k := by simpa using hk
      rw [ih, tget, if_neg (by omega)]

/-! ### Rising keys -/

theorem tsorted_cons (a : Nat × α) (r : List (Nat × α)) :
    tsorted (a :: r) = true ↔ (∀ b ∈ r, a.1 < b.1) ∧ tsorted r = true := by
  induction r generalizing a with
  | nil => simp [tsorted]
  | cons b r ih =>
    simp only [tsorted, Bool.and_eq_true, decide_eq_true_eq, List.mem_cons, forall_eq_or_imp]
    constructor
    · rintro ⟨h, hr⟩
      exact ⟨⟨h, fun c hc => Nat.lt_trans h (((ih b).1 hr).1 c hc)⟩, hr⟩
    · rintro ⟨⟨h, -⟩, hr⟩
      exact ⟨h, hr⟩

theorem mem_tset {t : List (Nat × α)} {k : Nat} {v : α} {e : Nat × α} (h : e ∈ tset t k v) : e = (k, v) ∨ e ∈ t := by
  induction t with
  | nil => simpa [tset] using h
  | cons a r ih =>
    simp only [tset] at h
    split at h
    · simpa using h
    · split at h
      · rcases List.mem_cons.1 h with h | h
        · exact .inl h
        · exact .inr (by simp [h])
      · rcases List.mem_cons.1 h with h | h
        · exact .inr (by simp [h])
        · rcases ih h with h | h
          · exact .inl h
          · exact .inr (by simp [h])

/-- A write keeps the keys rising. -/
theorem tsorted_tset {t : List (Nat × α)} (k : Nat) (v : α) (h : tsorted t = true) : tsorted (tset t k v) = true := by
  induction t with
  | nil => rfl
  | cons a r ih =>
    have ⟨ha, hr⟩ := (tsorted_cons a r).1 h
    simp only [tset]
    split
    · rename_i hk
      refine (tsorted_cons _ _).2 ⟨?_, h⟩
      intro b hb
      rcases List.mem_cons.1 hb with hb | hb
      · simpa [hb] using hk
      · exact Nat.lt_trans hk (ha b hb)
    · split
      · rename_i hk
        exact (tsorted_cons _ _).2 ⟨fun b hb => by simpa [hk] using ha b hb, hr⟩
      · refine (tsorted_cons _ _).2 ⟨?_, ih hr⟩
        intro b hb
        rcases mem_tset hb with hb | hb
        · subst hb
          show a.1 < k
          omega
        · exact ha b hb

/-- Leaving elements out keeps the keys rising. -/
theorem tsorted_filter {t : List (Nat × α)} (p : Nat × α → Bool) (h : tsorted t = true) : tsorted (t.filter p) = true := by
  induction t with
  | nil => rfl
  | cons a r ih =>
    have ⟨ha, hr⟩ := (tsorted_cons a r).1 h
    simp only [List.filter_cons]
    split
    · exact (tsorted_cons _ _).2 ⟨fun b hb => ha b (List.mem_of_mem_filter hb), ih hr⟩
    · exact ih hr

/-! ### Memory -/

@[simp] theorem Memory.read_write_same (m : Memory) (a : Nat) (b : Byte) : (m.write a b).read a = b := by
  unfold Memory.write Memory.read
  split
  · rename_i h; simp [tgetD, h]
  · simp

theorem Memory.read_write_ne (m : Memory) {a c : Nat} (b : Byte) (h : c ≠ a) : (m.write a b).read c = m.read c := by
  unfold Memory.write Memory.read
  split
  · simp [tgetD, tget_tdel_ne _ h]
  · simp [tgetD_tset_ne _ _ _ h]

/-- A byte outside the stored bytes reads as before. -/
theorem Memory.read_writeN_out (bs : List Byte) (m : Memory) {a c : Nat} (h : c < a ∨ a + bs.length ≤ c) :
    (m.writeN a bs).read c = m.read c := by
  induction bs generalizing m a with
  | nil => rfl
  | cons b r ih =>
    have hl : (b :: r).length = r.length + 1 := rfl
    rw [Memory.writeN, ih _ (by omega), Memory.read_write_ne _ _ (by omega)]

/-- Byte `i` of the stored bytes reads back. -/
theorem Memory.read_writeN_in (bs : List Byte) (m : Memory) (a i : Nat) (h : i < bs.length) :
    (m.writeN a bs).read (a + i) = bs[i] := by
  induction bs generalizing m a i with
  | nil => simp at h
  | cons b r ih =>
    rw [Memory.writeN]
    cases i with
    | zero => exact (Memory.read_writeN_out r (m.write a b) (.inl (by omega))).trans (Memory.read_write_same m a b)
    | succ j =>
      have h' : j < r.length := by simpa using h
      have := ih (m.write a b) (a + 1) j h'
      rw [show a + (j + 1) = a + 1 + j by omega, this]
      rfl

/-- A write keeps the canonical form. -/
theorem Memory.wf_write {m : Memory} (a : Nat) (b : Byte) (h : m.wf = true) : (m.write a b).wf = true := by
  simp only [Memory.wf, Bool.and_eq_true, List.all_eq_true] at h ⊢
  unfold Memory.write
  split
  · exact ⟨tsorted_filter _ h.1, fun e he => h.2 e (List.mem_of_mem_filter he)⟩
  · rename_i hb
    refine ⟨tsorted_tset a b h.1, fun e he => ?_⟩
    rcases mem_tset he with he | he
    · subst he; simpa using hb
    · exact h.2 e he

theorem Memory.wf_writeN (bs : List Byte) {m : Memory} (a : Nat) (h : m.wf = true) : (m.writeN a bs).wf = true := by
  induction bs generalizing m a with
  | nil => exact h
  | cons b r ih => exact ih _ (Memory.wf_write a b h)

theorem Memory.wf_filter {m : Memory} (p : Nat × Byte → Bool) (h : m.wf = true) : Memory.wf (m.filter p) = true := by
  simp only [Memory.wf, Bool.and_eq_true, List.all_eq_true] at h ⊢
  exact ⟨tsorted_filter _ h.1, fun e he => h.2 e (List.mem_of_mem_filter he)⟩

end Sys2Proof.Machine
end

