-- ==== Sys2Proof/Laws/Regs.lean ====
section
/-!
SUPPORT. Laws/Regs.lean: a register or field read after a write of the same or of another one, and a dictionary value read after a write.
-/
namespace Sys2Proof.Machine

/-! ### Register numbers -/

theorem Reg.num_lt (r : Reg) : r.num < 1024 := by cases r <;> decide

theorem Reg.num_inj {r q : Reg} (h : r.num = q.num) : r = q := by
  have hr : ∀ x : Reg, Reg.all[x.num]? = some x := by intro x; cases x <;> rfl
  exact Option.some.inj ((hr r).symm.trans ((congrArg (Reg.all[·]?) h).trans (hr q)))

theorem regKey_inj {r q : Reg} {i j : Nat} (h : i * 1024 + r.num = j * 1024 + q.num) : r = q ∧ i = j := by
  have := Reg.num_lt r
  have := Reg.num_lt q
  exact ⟨Reg.num_inj (by omega), by omega⟩

/-! ### Registers -/


@[simp] theorem getReg_setReg_same (h : Hub) (r : Reg) (i v : Nat) : getReg (setReg h r i v) r i = v % 2 ^ 64 := by
  simp [setReg, getReg]

theorem getReg_setReg_ne (h : Hub) {r q : Reg} {i j : Nat} (v : Nat) (hne : ¬(q = r ∧ j = i)) :
    getReg (setReg h r i v) q j = getReg h q j := by
  have hk : j * 1024 + q.num ≠ i * 1024 + r.num := fun e => hne (regKey_inj e)
  simp [setReg, getReg, tget_tset_ne _ _ hk]

/-- A write to another register, whatever the banks. -/
theorem getReg_setReg_reg (h : Hub) {r q : Reg} (i j v : Nat) (hne : q ≠ r) : getReg (setReg h r i v) q j = getReg h q j :=
  getReg_setReg_ne h v fun e => hne e.1

/-! ### Fields -/

theorem setBits_lt {v lo w x n : Nat} (hv : v < 2 ^ n) (hw : lo + w ≤ n) : setBits v lo w x < 2 ^ n := by
  have h1 : v % 2 ^ lo < 2 ^ lo := Nat.mod_lt _ (Nat.two_pow_pos _)
  have h2 : x % 2 ^ w < 2 ^ w := Nat.mod_lt _ (Nat.two_pow_pos _)
  have h3 : v / 2 ^ (lo + w) < 2 ^ (n - (lo + w)) := by
    rw [Nat.div_lt_iff_lt_mul (Nat.two_pow_pos _), ← Nat.pow_add]
    simpa [Nat.sub_add_cancel hw] using hv
  have e1 : 2 ^ (lo + w) = 2 ^ lo * 2 ^ w := Nat.pow_add ..
  have e2 : (2 : Nat) ^ n = 2 ^ (n - (lo + w)) * 2 ^ (lo + w) := by rw [← Nat.pow_add, Nat.sub_add_cancel hw]
  have h4 : (x % 2 ^ w + 1) * 2 ^ lo ≤ 2 ^ w * 2 ^ lo := Nat.mul_le_mul_right _ h2
  have h5 : (v / 2 ^ (lo + w) + 1) * 2 ^ (lo + w) ≤ 2 ^ (n - (lo + w)) * 2 ^ (lo + w) := Nat.mul_le_mul_right _ h3
  rw [Nat.add_mul] at h4 h5
  unfold setBits
  rw [e2]
  have : (2 : Nat) ^ w * 2 ^ lo = 2 ^ (lo + w) := by rw [e1, Nat.mul_comm]
  omega

/-- The field just written reads back. -/
theorem setBits_get (v lo w x : Nat) : setBits v lo w x / 2 ^ lo % 2 ^ w = x % 2 ^ w := by
  have h1 : v % 2 ^ lo < 2 ^ lo := Nat.mod_lt _ (Nat.two_pow_pos _)
  have e1 : 2 ^ (lo + w) = 2 ^ w * 2 ^ lo := by rw [Nat.pow_add, Nat.mul_comm]
  have : setBits v lo w x = v % 2 ^ lo + (x % 2 ^ w + v / 2 ^ (lo + w) * 2 ^ w) * 2 ^ lo := by
    unfold setBits
    rw [Nat.add_mul, Nat.mul_assoc, ← e1, Nat.add_assoc]
  rw [this, Nat.add_mul_div_right _ _ (Nat.two_pow_pos _), Nat.div_eq_of_lt h1, Nat.zero_add, Nat.add_mul_mod_self_right,
    Nat.mod_mod]

/-- A bit outside the field keeps its value. -/
theorem setBits_testBit (v lo w x n : Nat) :
    (setBits v lo w x).testBit n = if lo ≤ n ∧ n < lo + w then (x % 2 ^ w).testBit (n - lo) else v.testBit n := by
  have h1 : v % 2 ^ lo < 2 ^ lo := Nat.mod_lt _ (Nat.two_pow_pos _)
  have h2 : x % 2 ^ w < 2 ^ w := Nat.mod_lt _ (Nat.two_pow_pos _)
  have h3 : v % 2 ^ lo + x % 2 ^ w * 2 ^ lo < 2 ^ (lo + w) := by
    have h4 : (x % 2 ^ w + 1) * 2 ^ lo ≤ 2 ^ w * 2 ^ lo := Nat.mul_le_mul_right _ h2
    rw [Nat.add_mul] at h4
    have : (2 : Nat) ^ w * 2 ^ lo = 2 ^ (lo + w) := by rw [Nat.pow_add, Nat.mul_comm]
    omega
  unfold setBits
  rw [Nat.add_comm (v % 2 ^ lo + _), Nat.mul_comm _ (2 ^ (lo + w)), Nat.testBit_two_pow_mul_add _ h3]
  by_cases hn : n < lo + w
  · rw [if_pos hn, Nat.add_comm, Nat.mul_comm, Nat.testBit_two_pow_mul_add _ h1]
    by_cases hl : n < lo
    · rw [if_pos hl, if_neg (by omega), Nat.testBit_mod_two_pow]
      simp [hl]
    · rw [if_neg hl, if_pos (by omega)]
  · rw [if_neg hn, if_neg (by omega), Nat.testBit_div_two_pow]
    congr 1
    omega

/-- A field that does not overlap the written one keeps its value. -/
theorem setBits_get_ne (v x : Nat) {lo w l n : Nat} (h : l + n ≤ lo ∨ lo + w ≤ l) :
    setBits v lo w x / 2 ^ l % 2 ^ n = v / 2 ^ l % 2 ^ n := by
  apply Nat.eq_of_testBit_eq
  intro k
  simp only [Nat.testBit_mod_two_pow, Nat.testBit_div_two_pow, setBits_testBit]
  by_cases hk : k < n
  · rw [if_neg (by omega)]
  · simp [hk]

theorem getReg_lt (h : Hub) (r : Reg) (i : Nat) (hr : regReset h.variant r i < 2 ^ 64) : getReg h r i < 2 ^ 64 := by
  unfold getReg
  split
  · exact BitVec.isLt _
  · exact hr

/-- A field inside its register reads back what was written, cut to its width. -/
theorem fld_setFld_same (h : Hub) (f : Fld) (i v : Nat) (hf : f.lo + f.w ≤ 64) : fld (setFld h f i v) f i = v % 2 ^ f.w := by
  rw [fld, setFld, getReg_setReg_same]
  conv_rhs => rw [← setBits_get (getReg h f.reg i) f.lo f.w v]
  apply Nat.eq_of_testBit_eq
  intro k
  simp only [Nat.testBit_mod_two_pow, Nat.testBit_div_two_pow]
  by_cases hk : k < f.w
  · simp [hk, show k + f.lo < 64 by omega]
  · simp [hk]

/-- A write to another register leaves a field alone. -/
theorem fld_setFld_reg (h : Hub) {f g : Fld} (i j v : Nat) (hne : g.reg ≠ f.reg) : fld (setFld h f i v) g j = fld h g j := by
  rw [fld, setFld, getReg_setReg_reg _ _ _ _ hne, fld]

/-- A write to another bank leaves a field alone. -/
theorem fld_setFld_bank (h : Hub) {f g : Fld} {i j : Nat} (v : Nat) (hne : j ≠ i) : fld (setFld h f i v) g j = fld h g j := by
  rw [fld, setFld, getReg_setReg_ne _ _ fun e => hne e.2, fld]

/-- A write to another field of the same register leaves a field inside the register alone. -/
theorem fld_setFld_ne (h : Hub) {f g : Fld} (i v : Nat) (hr : g.reg = f.reg) (hg : g.lo + g.w ≤ 64)
    (hne : g.lo + g.w ≤ f.lo ∨ f.lo + f.w ≤ g.lo) : fld (setFld h f i v) g i = fld h g i := by
  rw [fld, setFld, hr, getReg_setReg_same]
  rw [fld, hr, ← setBits_get_ne (getReg h f.reg i) v hne]
  apply Nat.eq_of_testBit_eq
  intro k
  simp only [Nat.testBit_mod_two_pow, Nat.testBit_div_two_pow]
  by_cases hk : k < g.w
  · simp [hk, show k + g.lo < 64 by omega]
  · simp [hk]

/-! ### W1C -/

theorem add_eq_or_of_and {a b : Nat} (h : a &&& b = 0) : a + b = a ||| b := by
  have hn : a + b < 2 ^ (a + b) := Nat.lt_two_pow_self
  have ha : a < 2 ^ (a + b) := by omega
  have hb : b < 2 ^ (a + b) := by omega
  have hz : BitVec.ofNat (a + b) a &&& BitVec.ofNat (a + b) b = 0#(a + b) := by
    apply BitVec.eq_of_toNat_eq
    simp [Nat.mod_eq_of_lt ha, Nat.mod_eq_of_lt hb, h]
  have := congrArg BitVec.toNat (BitVec.add_eq_or_of_and_eq_zero _ _ hz)
  simpa [Nat.mod_eq_of_lt ha, Nat.mod_eq_of_lt hb, Nat.mod_eq_of_lt hn] using this

/-- Clearing flags: a bit stays exactly where it was 1 and was not a flag written with 1 (R34). -/
theorem w1cClear_testBit (v mask written n : Nat) :
    (w1cClear v mask written).testBit n = (v.testBit n && !(mask.testBit n && written.testBit n)) := by
  have h : w1cClear v mask written + (v &&& (mask &&& written)) = v := Nat.sub_add_cancel Nat.and_le_left
  have hx : w1cClear v mask written = v ^^^ (v &&& (mask &&& written)) := by
    have hd : (v &&& (mask &&& written)) ||| (v ^^^ (v &&& (mask &&& written))) = v := by
      apply Nat.eq_of_testBit_eq; intro k
      simp only [Nat.testBit_or, Nat.testBit_xor, Nat.testBit_and]
      cases v.testBit k <;> cases mask.testBit k <;> cases written.testBit k <;> rfl
    have ha : (v &&& (mask &&& written)) &&& (v ^^^ (v &&& (mask &&& written))) = 0 := by
      apply Nat.eq_of_testBit_eq; intro k
      simp only [Nat.testBit_xor, Nat.testBit_and, Nat.zero_testBit]
      cases v.testBit k <;> cases mask.testBit k <;> cases written.testBit k <;> rfl
    have hs := add_eq_or_of_and ha
    omega
  rw [hx]
  simp only [Nat.testBit_xor, Nat.testBit_and]
  cases v.testBit n <;> cases mask.testBit n <;> cases written.testBit n <;> rfl

/-! ### Dictionary values -/

theorem leNat_leBytes (n v : Nat) : leNat (leBytes n v) = v % 2 ^ (8 * n) := by
  induction n generalizing v with
  | zero => simp [leBytes, leNat, Nat.mod_one]
  | succ n ih =>
    rw [leBytes, leNat, ih, BitVec.toNat_ofNat, show 8 * (n + 1) = 8 + 8 * n by omega, Nat.pow_add]
    rw [Nat.mod_mul]

/-- A number entry reads back, cut to its width. -/
@[simp] theorem odNum_setOdNum_same (h : Hub) (k n v : Nat) : odNum (setOdNum h k n v) k = v % 2 ^ (8 * n) := by
  simp [odNum, setOdNum, leNat_leBytes]

theorem odNum_setOdNum_ne (h : Hub) {k j : Nat} (n v : Nat) (hne : j ≠ k) : odNum (setOdNum h k n v) j = odNum h j := by
  simp [odNum, setOdNum, tget_tset_ne _ _ hne]

/-! ### Dictionary values that a register operation leaves -/

theorem odNum_congr {h k : Hub} (hv : k.variant = h.variant) (ho : k.od = h.od) (n : Nat) : odNum k n = odNum h n := by
  simp only [odNum, hv, ho]

@[simp] theorem odNum_setReg (h : Hub) (r : Reg) (i v k : Nat) : odNum (setReg h r i v) k = odNum h k := odNum_congr (by simp) (by simp) k
@[simp] theorem odNum_setFld (h : Hub) (f : Fld) (i v k : Nat) : odNum (setFld h f i v) k = odNum h k := odNum_congr (by simp) (by simp) k
@[simp] theorem odNum_addFld (h : Hub) (f : Fld) (i v k : Nat) : odNum (addFld h f i v) k = odNum h k := odNum_congr (by simp) (by simp) k
@[simp] theorem odNum_raise (h : Hub) (e : Evt) (i k : Nat) : odNum (raise h e i) k = odNum h k := odNum_congr (by simp) (by simp) k
@[simp] theorem odNum_sendMsix (h : Hub) (f v k : Nat) : odNum (sendMsix h f v) k = odNum h k := odNum_congr (by simp) (by simp) k
@[simp] theorem odNum_emit (h : Hub) (o : OutKind) (d k : Nat) (a : List Nat) (b : List Byte) : odNum (emit h o d a b) k = odNum h k :=
  odNum_congr (by simp) (by simp) k

end Sys2Proof.Machine
end

