-- ==== Sys2Proof/Laws/Settle.lean ====
section
/-!
SUPPORT. Laws/Settle.lean: what the end of every step does (`settle`): on a quiet hub nothing; on every hub it leaves no consequence
over and no Coast with work; and what keeps a hub quiet.
-/
namespace Sys2Proof.Machine

/-! ### Tracing touches registers, the trace buffer, outputs and the count of free values only -/

/-- What tracing leaves alone. -/
def Hub.sameWork (h k : Hub) : Prop :=
  h.todo = k.todo ∧ h.ops = k.ops ∧ h.cmds = k.cmds ∧ h.strs = k.strs ∧ h.pcie = k.pcie ∧ h.mg = k.mg ∧ h.pwr = k.pwr

theorem Hub.sameWork_refl (h : Hub) : h.sameWork h := ⟨rfl, rfl, rfl, rfl, rfl, rfl, rfl⟩

theorem Hub.sameWork_trans {a b c : Hub} (h : a.sameWork b) (k : b.sameWork c) : a.sameWork c :=
  ⟨h.1.trans k.1, h.2.1.trans k.2.1, h.2.2.1.trans k.2.2.1, h.2.2.2.1.trans k.2.2.2.1, h.2.2.2.2.1.trans k.2.2.2.2.1,
    h.2.2.2.2.2.1.trans k.2.2.2.2.2.1, h.2.2.2.2.2.2.trans k.2.2.2.2.2.2⟩

theorem drawFree_sameWork (h : Hub) (w : Nat) : (drawFree h w).2.sameWork h := ⟨rfl, rfl, rfl, rfl, rfl, rfl, rfl⟩
theorem setReg_sameWork (h : Hub) (r : Reg) (i v : Nat) : (setReg h r i v).sameWork h := by simp [Hub.sameWork]
theorem setFld_sameWork (h : Hub) (f : Fld) (i v : Nat) : (setFld h f i v).sameWork h := by simp [Hub.sameWork]
theorem addFld_sameWork (h : Hub) (f : Fld) (i v : Nat) : (addFld h f i v).sameWork h := by simp [Hub.sameWork]
theorem raise_sameWork (h : Hub) (e : Evt) (i : Nat) : (raise h e i).sameWork h := by simp [Hub.sameWork]
theorem emit_sameWork (h : Hub) (k : OutKind) (d : Nat) (a : List Nat) (b : List Byte) : (emit h k d a b).sameWork h := by
  simp [Hub.sameWork]

theorem stamp_sameWork (h : Hub) : (stamp h).2.sameWork h := by
  simp only [stamp]
  split
  · exact Hub.sameWork_refl h
  · exact Hub.sameWork_trans (setFld_sameWork _ _ _ _) (drawFree_sameWork h 32)

theorem stampC_sameWork (h : Hub) : (stampC h).2.sameWork h := by
  simp only [stampC]
  exact Hub.sameWork_trans (setFld_sameWork _ _ _ _) (drawFree_sameWork h 32)

theorem trcPush_sameWork (h : Hub) (bs : List Byte) : (trcPush h bs).sameWork h := ⟨rfl, rfl, rfl, rfl, rfl, rfl, rfl⟩

theorem trcFire_sameWork (h : Hub) : (trcFire h).sameWork h := by simp [Hub.sameWork, trcFire]

theorem traceEnter_sameWork (h : Hub) (domain source ev payload : Nat) : (traceEnter h domain source ev payload).sameWork h := by
  simp only [traceEnter]
  generalize hk : addFld h F.trcWrittenWritten 0 1 = k
  have hk : k.sameWork h := hk ▸ addFld_sameWork _ _ _ _
  split
  · exact Hub.sameWork_trans (raise_sameWork _ _ _) hk
  · split
    · generalize hm : stamp k = m
      have hm : m.2.sameWork k := hm ▸ stamp_sameWork k
      exact Hub.sameWork_trans (trcPush_sameWork _ _) (Hub.sameWork_trans hm hk)
    · generalize hm : stampC k = m
      have hm : m.2.sameWork k := hm ▸ stampC_sameWork k
      exact Hub.sameWork_trans (trcPush_sameWork _ _) (Hub.sameWork_trans hm hk)

theorem trace_sameWork (h : Hub) (domain source ev : Nat) (ctx : Option Nat) (payload : Nat) :
    (trace h domain source ev ctx payload).sameWork h := by
  simp only [trace]
  split
  · exact Hub.sameWork_refl h
  · generalize hk : traceEnter h domain source ev payload = k
    have hk : k.sameWork h := hk ▸ traceEnter_sameWork _ _ _ _ _
    split
    · exact Hub.sameWork_trans (raise_sameWork _ _ _) (Hub.sameWork_trans (trcFire_sameWork _) hk)
    · exact hk

/-- Leaving Coast: no work changes, and the state is no longer Coast. -/
theorem coastExit_todo (h : Hub) : (coastExit h).todo = h.todo := by
  simp only [coastExit]
  split
  · exact (trace_sameWork _ _ _ _ _ _).1.trans (by simp)
  · rfl

theorem coastExit_state (h : Hub) : (coastExit h).pwr.state ≠ 1 := by
  simp only [coastExit]
  split
  · rw [(trace_sameWork _ _ _ _ _ _).2.2.2.2.2.2]
    simp
  · assumption

/-- A hub that is not in Coast stays as it is. -/
theorem coastExit_of_ne {h : Hub} (hs : h.pwr.state ≠ 1) : coastExit h = h := if_neg hs

/-- A hub in Ride: the host's call changes nothing. -/
theorem hostCalls_ride {h : Hub} (hs : h.pwr.state = 0) : hostCalls h = h := by
  simp [hostCalls, coastExit, wantWake, hs]

/-! ### Carrying out consequences -/

theorem drainTodo_todo (n : Nat) (h : Hub) : (drainTodo n h).todo = [] := by
  induction n generalizing h with
  | zero => rfl
  | succ n ih =>
    unfold drainTodo
    split
    · assumption
    · exact ih _

theorem drainTodo_nil {h : Hub} (ht : h.todo = []) (n : Nat) : drainTodo n h = h := by
  cases n with
  | zero => cases h; simp_all [drainTodo]
  | succ n => simp [drainTodo, ht]

/-- After every step no consequence is left over. -/
theorem settle_todo (h : Hub) : (settle h).todo = [] := by
  unfold settle
  dsimp only
  split
  · exact drainTodo_todo _ _
  · rw [coastExit_todo]; exact drainTodo_todo _ _

/-- After every step a hub in Coast has no work (R491). -/
theorem settle_coastIdle (h : Hub) : (settle h).coastIdle = true := by
  unfold settle
  dsimp only
  split
  · rename_i hw
    simp [Hub.coastIdle, hw]
  · simp [Hub.coastIdle, coastExit_state]

/-! ### Quiet hubs -/

theorem Hub.quiet_iff (h : Hub) : h.quiet = true ↔ h.todo = [] ∧ h.ops = [] ∧ h.cmds = [] ∧ h.strs = [] ∧ h.pcie.reads = [] ∧
    h.mg.ctl.memRead = none ∧ ∀ c ∈ usedCtx h, ctxState h c ≠ 3 := by
  simp [Hub.quiet, and_assoc]

theorem retireAll_nil {h : Hub} (ho : h.ops = []) : retireAll h = h := by
  cases h; simp_all [retireAll, each, dropIf]

theorem strEnds_nil {h : Hub} (hs : h.strs = []) : strEnds h = h := by
  cases h; simp_all [strEnds, each, dropIf]

theorem housekeeping_quiet {h : Hub} (hq : h.quiet = true) : housekeeping h = h := by
  obtain ⟨-, ho, -, hs, hr, hm, hc⟩ := h.quiet_iff.1 hq
  have hf : (usedCtx h).filter (fun c => ctxState h c = 3) = [] := by
    simpa [List.filter_eq_nil_iff] using hc
  simp [housekeeping, retireAll_nil ho, strEnds_nil hs, hf, hr, each, memServe, hm]

/-- On a quiet hub the end of a step changes nothing. -/
theorem settle_quiet {h : Hub} (hq : h.quiet = true) : settle h = h := by
  obtain ⟨ht, ho, hc, -⟩ := h.quiet_iff.1 hq
  simp [settle, drainTodo_nil ht, housekeeping_quiet hq, ho, hc]

/-! ### What keeps a hub quiet -/

theorem usedCtx_setReg (h : Hub) {r : Reg} (i v : Nat) (hr : r ≠ .ctxStatus) : usedCtx (setReg h r i v) = usedCtx h := by
  have hk : ∀ e : Nat × Word, e.1 = i * 1024 + r.num → (e.1 % 1024 == Reg.ctxStatus.num) = false := by
    intro e he
    have h1 := Reg.num_lt r
    have : r.num ≠ Reg.ctxStatus.num := fun e => hr (Reg.num_inj e)
    rw [he, beq_eq_false_iff_ne]
    omega
  have hset : ∀ (t : List (Nat × Word)) (w : Word),
      (tset t (i * 1024 + r.num) w).filter (fun e => e.1 % 1024 == Reg.ctxStatus.num)
        = t.filter (fun e => e.1 % 1024 == Reg.ctxStatus.num) := by
    intro t w
    induction t with
    | nil => rw [tset, List.filter_cons, if_neg (by simpa using hk (i * 1024 + r.num, w) rfl)]
    | cons a t ih =>
      simp only [tset]
      split
      · rw [List.filter_cons, if_neg (by simpa using hk (i * 1024 + r.num, w) rfl)]
      · split
        · rename_i he
          rw [List.filter_cons, if_neg (by simpa using hk (i * 1024 + r.num, w) rfl), List.filter_cons,
            if_neg (by simpa using hk a he.symm)]
        · rw [List.filter_cons, ih, List.filter_cons]
  unfold usedCtx
  exact congrArg _ (hset _ _)

theorem ctxState_setReg (h : Hub) {r : Reg} (i v c : Nat) (hr : r ≠ .ctxStatus) : ctxState (setReg h r i v) c = ctxState h c := by
  have : getReg (setReg h r i v) .ctxStatus c = getReg h .ctxStatus c := getReg_setReg_reg _ _ _ _ (Ne.symm hr)
  simp only [ctxState, fld, F.ctxStatusState, this]

/-- Writing any register but CTX.STATUS keeps a hub quiet. -/
theorem quiet_setReg {h : Hub} {r : Reg} (i v : Nat) (hr : r ≠ .ctxStatus) (hq : h.quiet = true) : (setReg h r i v).quiet = true := by
  rw [Hub.quiet_iff] at hq ⊢
  simpa [usedCtx_setReg h i v hr, ctxState_setReg h i v _ hr] using hq

theorem quiet_setFld {h : Hub} {f : Fld} (i v : Nat) (hf : f.reg ≠ .ctxStatus) (hq : h.quiet = true) :
    (setFld h f i v).quiet = true := quiet_setReg i _ hf hq

theorem quiet_addFld {h : Hub} {f : Fld} (i v : Nat) (hf : f.reg ≠ .ctxStatus) (hq : h.quiet = true) :
    (addFld h f i v).quiet = true := quiet_setFld i _ hf hq

theorem mem_tdel {α : Type} {t : List (Nat × α)} {k : Nat} {e : Nat × α} (he : e ∈ tdel t k) : e ∈ t := List.mem_of_mem_filter he

/-- A new state of a context other than SUSPENDING keeps a hub quiet. -/
theorem quiet_ctxState {h : Hub} (c v : Nat) (hv : v % 8 ≠ 3) (hq : h.quiet = true) :
    (setFld h F.ctxStatusState c v).quiet = true := by
  rw [Hub.quiet_iff] at hq ⊢
  obtain ⟨h1, h2, h3, h4, h5, h6, h7⟩ := hq
  refine ⟨by simpa, by simpa, by simpa, by simpa, by simpa, by simpa, fun d hd => ?_⟩
  by_cases hdc : d = c
  · subst hdc
    rw [ctxState, fld_setFld_same _ _ _ _ (by decide)]
    exact hv
  · rw [ctxState, fld_setFld_bank _ _ hdc]
    refine h7 d ?_
    simp only [usedCtx, List.mem_map, List.mem_filter] at hd ⊢
    obtain ⟨e, ⟨he, hn⟩, hk⟩ := hd
    refine ⟨e, ⟨?_, hn⟩, hk⟩
    have hne : e.1 ≠ c * 1024 + Reg.ctxStatus.num := by
      intro hk'
      have := Reg.num_lt .ctxStatus
      omega
    simp only [setFld, setReg] at he
    rcases mem_tset he with he | he
    · exact absurd (congrArg Prod.fst he) hne
    · exact he

/-- A change that leaves the registers and the open work alone keeps a hub quiet. -/
theorem quiet_of_same {h k : Hub} (hr : k.regs = h.regs) (hv : k.variant = h.variant) (hw : k.sameWork h) (hq : h.quiet = true) :
    k.quiet = true := by
  rw [Hub.quiet_iff] at hq ⊢
  obtain ⟨h1, h2, h3, h4, h5, h6, -⟩ := hw
  have hu : usedCtx k = usedCtx h := by simp [usedCtx, hr]
  have hc : ∀ c, ctxState k c = ctxState h c := fun c => by simp [ctxState, fld, getReg, hr, hv]
  simpa [h1, h2, h3, h4, h5, h6, hu, hc] using hq

theorem quiet_emit {h : Hub} (k : OutKind) (d : Nat) (a : List Nat) (b : List Byte) (hq : h.quiet = true) :
    (emit h k d a b).quiet = true := quiet_of_same rfl rfl (emit_sameWork h k d a b) hq

theorem quiet_setOdNum {h : Hub} (k n v : Nat) (hq : h.quiet = true) : (setOdNum h k n v).quiet = true :=
  quiet_of_same rfl rfl ⟨rfl, rfl, rfl, rfl, rfl, rfl, rfl⟩ hq

theorem quiet_sendMsix {h : Hub} (f v : Nat) (hq : h.quiet = true) : (sendMsix h f v).quiet = true := by
  simp only [sendMsix]
  split
  · exact hq
  · split
    · exact quiet_of_same rfl rfl ⟨rfl, rfl, rfl, rfl, rfl, rfl, rfl⟩ hq
    · exact quiet_emit _ _ _ _ hq

/-- An event keeps a hub quiet: its flag and its counter are no CTX.STATUS. -/
theorem quiet_raise {h : Hub} (e : Evt) (i : Nat) (hf : e.flag.reg ≠ .ctxStatus) (hc : e.cnt.reg ≠ .ctxStatus) (hq : h.quiet = true) :
    (raise h e i).quiet = true := by
  have hk := quiet_addFld (f := e.cnt) i 1 hc (quiet_setFld (f := e.flag) i 1 hf hq)
  simp only [raise]
  split
  · split
    · exact quiet_sendMsix _ _ hk
    · exact hk
  · exact hk

/-! ### How a meaning answers -/

theorem onHub_eq (s : State) (f : Hub → Hub) : onHub s f = .next { s with hub := f s.hub } := rfl
theorem act_eq (s : State) (f : Hub → Hub) : act s f = .next { s with hub := settle (f s.hub) } := rfl
theorem actUnit_true (s : State) (f : Hub → Hub) : actUnit true s f = .next { s with hub := settle (f s.hub) } := rfl
theorem actUnit_false (s : State) (f : Hub → Hub) : actUnit false s f = .fault .noSuchUnit := rfl

theorem actUnit_eq {ok : Bool} {s : State} {f : Hub → Hub} (hk : ok = true) :
    actUnit ok s f = .next { s with hub := settle (f s.hub) } := by subst hk; rfl

/-- An operation inside the data half acts where the data half runs. -/
theorem inData_runs {ok : Bool} {s : State} {f : Hub → Hub} (hk : ok = true) (hr : s.hub.runs = true) :
    inData s ok f = .next { s with hub := settle (f s.hub) } := by
  have hg : (s.hub.dataReset || s.hub.dead != 0 || decide (2 ≤ s.hub.pwr.state)) = false := by
    simp only [Hub.runs, Bool.and_eq_true, Bool.not_eq_true', beq_iff_eq, decide_eq_true_eq] at hr
    simp [hr.1.1, hr.1.2]
    omega
  simp only [inData, actUnit_eq hk, hg]
  rfl

/-- A data-half register's action acts at once where the hub rides. -/
theorem dataReg_rides {ok : Bool} {s : State} {f : Hub → Hub} (hk : ok = true) (hr : s.hub.rides = true) :
    dataReg s ok f = .next { s with hub := settle (f s.hub) } := by
  simp only [Hub.rides, Bool.and_eq_true, beq_iff_eq] at hr
  simp only [dataReg, actUnit_eq hk, hr.1, if_true, hostCalls_ride hr.2]

/-- A data-half register's action is dropped while the data half does not serve. -/
theorem dataReg_down {ok : Bool} {s : State} {f : Hub → Hub} (hk : ok = true) (hr : serving s.hub = false) :
    dataReg s ok f = .next { s with hub := settle (regDropped s.hub) } := by
  simp only [dataReg, actUnit_eq hk, hr]
  rfl

/-- A control-half register's action acts while the control half is up. -/
theorem ctlReg_up {s : State} {f : Hub → Hub} (hu : ctlUp s.hub = true) : ctlReg s f = .next { s with hub := settle (f s.hub) } := by
  simp only [ctlReg, act_eq, hu, if_true]

/-- A meaning that names its unit answers a settled hub where the unit exists, with the queue as it was, else the fault. -/
theorem actUnit_cases {ok : Bool} {s : State} {f : Hub → Hub} :
    (ok = true ∧ actUnit ok s f = .next { s with hub := settle (f s.hub) }) ∨ (ok = false ∧ actUnit ok s f = .fault .noSuchUnit) := by
  cases ok
  · exact .inr ⟨rfl, rfl⟩
  · exact .inl ⟨rfl, rfl⟩

end Sys2Proof.Machine
end

