-- ==== Sys2Proof/Laws/Does.lean ====
section
/-!
SUPPORT. Laws/Does.lean: how a command comes to complete: one lemma for each gate, and one for a message that its permit takes.
-/
namespace Sys2Proof.Machine

variable {c : Instr} {s : State} {ok : Bool} {f : Hub → Hub} {h : Hub}

/-! ### Completion through a gate -/

theorem Does.of_act (he : exec c s = act s f) (hf : f s.hub = h) : Does c s h := by
  simp only [Does, he, act_eq, hf]

theorem Does.of_actUnit (he : exec c s = actUnit ok s f) (hk : ok = true) (hf : f s.hub = h) : Does c s h := by
  simp only [Does, he, actUnit_eq hk, hf]

theorem Does.of_inData (he : exec c s = inData s ok f) (hk : ok = true) (hr : s.hub.runs = true) (hf : f s.hub = h) : Does c s h := by
  simp only [Does, he, inData_runs hk hr, hf]

theorem Does.of_dataReg (he : exec c s = dataReg s ok f) (hk : ok = true) (hr : s.hub.rides = true) (hf : f s.hub = h) : Does c s h := by
  simp only [Does, he, dataReg_rides hk hr, hf]

theorem Does.of_ctlReg (he : exec c s = ctlReg s f) (hu : ctlUp s.hub = true) (hf : f s.hub = h) : Does c s h := by
  simp only [Does, he, ctlReg_up hu, hf]

/-- A command that leaves a quiet hub leaves exactly that hub. -/
theorem Does.only (hd : Does c s h) (hq : h.quiet = true) : DoesOnly c s h := by
  simpa only [Does, DoesOnly, settle_quiet hq] using hd

/-! ### Messages through a permit -/

/-- A message that is taken goes on at the hub that took its cells. -/
theorem arrive_takes {h k : Hub} {site cls n : Nat} {q : Ask} {second : Bool} {refuse ok : Hub → Hub} (ht : Takes h site cls n q k) :
    arrive h site cls n 0 q second refuse ok = ok k := by
  obtain ⟨h1, h2, h3, h4, h5, h6⟩ := ht
  have hq : { q with seven := ((0 : Nat) == 2) } = q := by cases q; simp_all
  simp only [arrive, h1, h2, h3, h5, hq, h6, beq_self_eq_true, Bool.true_or, Bool.not_true, Bool.or_self, Bool.false_eq_true, if_false,
    Nat.zero_ne_one]

/-- So does a coherent request, a house agent's without a permit. -/
theorem cohReq_takes {h k : Hub} {r : CohReq} {dirErr memErr : Nat} (ht : CohTakes h r k) :
    cohReq h r 0 dirErr memErr = cohGo (cohMet k r dirErr memErr) r := by
  simp only [CohTakes] at ht
  simp only [cohReq]
  split at ht
  · rename_i hl
    simp only [hl, ht]
  · rename_i site hl
    simp only [hl, arrive_takes ht]

/-- And an agent's answer. -/
theorem answer_takes {h k : Hub} {a cls n : Nat} {ok : Hub → Hub} (ht : AnswerTakes h a cls n k) : answer h a cls n 0 ok = ok k := by
  simp only [AnswerTakes] at ht
  simp only [answer]
  split at ht
  · rename_i hl
    simp only [hl, ht]
  · rename_i site hl
    simp only [hl, arrive_takes ht]

/-! ### The route window set empty (R356, R361) -/

theorem emptyWindow_frame (h : Hub) (c : Nat) : emptyWindow h c = { h with routes := (emptyWindow h c).routes } := rfl

theorem tget_dropIf_key {α : Type} (t : List (Nat × α)) (p : Nat → Bool) (i : Nat) :
    tget (dropIf t fun e => p e.1) i = if p i = true then none else tget t i := by
  induction t with
  | nil => simp [dropIf, tget]
  | cons e r ih =>
    obtain ⟨j, v⟩ := e
    simp only [dropIf, List.filter_cons, tget] at ih ⊢
    by_cases hj : p j = true <;> by_cases hi : j = i <;> simp_all [tget]

theorem tget_emptyWindow (h : Hub) (c i : Nat) : tget (emptyWindow h c).routes i =
    if fld h F.ctxRouteWinBase c ≤ i ∧ i < fld h F.ctxRouteWinBase c + fld h F.ctxRouteWinCount c then none else tget h.routes i := by
  have := tget_dropIf_key h.routes
    (fun k => decide (fld h F.ctxRouteWinBase c ≤ k) && decide (k < fld h F.ctxRouteWinBase c + fld h F.ctxRouteWinCount c)) i
  simpa [emptyWindow] using this

end Sys2Proof.Machine
end

