-- ==== Sys2Proof/Laws/Exec.lean ====
section
/-!
SUPPORT. Laws/Exec.lean: what `exec` answers for each command, as the gate its meaning goes through and the effect behind it. A proof
rewrites with the lemma of its command, and then with the lemma of the gate (Laws/Settle.lean, Laws/Does.lean).
-/
namespace Sys2Proof.Machine

variable (s : State)

theorem exec_regWrite (fn off size value : Nat) : exec (.regWrite fn off size value) s =
    actUnit (inBar0 fn off) s fun h => regWriteTlp h fn off size value := rfl
theorem exec_w1cWrite (fn off size value : Nat) : exec (.w1cWrite fn off size value) s =
    actUnit (inBar0 fn off) s fun h => if isFlags h fn off then regWriteTlp h fn off size value else h := rfl
theorem exec_stemBeatSend (fromControl : Bool) : exec (.stemBeatSend fromControl) s =
    act s fun h =>
      if h.dead != 0 then h
      else if fromControl then (if ctlUp h then emit h .stemBeat 1 [0, h.ctlStarts] else h)
      else if h.dataReset then h else emit h .stemBeat 0 [1, h.dataStarts] := rfl
theorem exec_stemBeat (fromControl : Bool) (count : Nat) : exec (.stemBeat fromControl count) s =
    act s fun h => { h with mg := if fromControl then { h.mg with seenCtl := count } else { h.mg with seenData := count } } := rfl
theorem exec_stemBeatTimeout (ofControl : Bool) : exec (.stemBeatTimeout ofControl) s =
    act s fun h => if h.dead != 0 || !h.pwr.on then h else beatsMissed h ofControl := rfl
theorem exec_stemWordUe (ok : Bool) : exec (.stemWordUe ok) s =
    act s fun h => if h.dead != 0 || !h.pwr.on then h else stemWordUe h ok := rfl
theorem exec_stemFreeze : exec .stemFreeze s = inData s true fun h => emit (freeze h) .stemBeat 0 [1, h.dataStarts] := rfl
theorem exec_stemResume : exec .stemResume s = inData s true unfreeze := rfl
theorem exec_stemReg (write : Bool) (off size value : Nat) : exec (.stemReg write off size value) s =
    actUnit (inBar0 0 off && servedBy 0 off == 2) s fun h => stemReg h write off size value := rfl
theorem exec_stemDict (entry : Nat) : exec (.stemDict entry) s =
    act s fun h => if h.ctlDown || h.dead != 0 then h
      else match entry? h entry with
        | some r => emit h .stemDict 0 [entry] (entryValue h entry r)
        | none => h := rfl
theorem exec_stemNotice : exec .stemNotice s =
    act s fun h => match h.notices with
      | n :: r => if ctlUp h then stemEntry { h with notices := r } n else h
      | [] => h := rfl
theorem exec_rideThroughFreeze : exec .rideThroughFreeze s =
    inData s true fun h => if flag h F.hubStatusRideThrough && dataUp h then setFld (freeze h) F.hubStatusRideMs 0 500 else h := rfl
theorem exec_ctlHalfReturn (cellBlows : Bool) : exec (.ctlHalfReturn cellBlows) s = act s fun h => ctlReturn h cellBlows := rfl
theorem exec_warmRestartPhaseEnd (ms : Nat) (rimOk : Bool) (hbms : List (Nat × Nat × Nat × Nat)) (fails : List (List Nat)) (failed : List Nat) : exec (.warmRestartPhaseEnd ms rimOk hbms fails failed) s =
    act s fun h => bootRow true h fun h => phaseEnd h ms false false rimOk hbms fails failed := rfl
theorem exec_hubCtlDataReset : exec .hubCtlDataReset s = act s hubDataReset := rfl
theorem exec_hubCtlCtlRestart : exec .hubCtlCtlRestart s = act s hubCtlRestart := rfl
theorem exec_coldPowerUp : exec .coldPowerUp s = act s fun h => if h.pwr.on || h.pwr.state = 3 then h else powerUp h := rfl
theorem exec_perst (cool : Bool) : exec (.perst cool) s = act s fun h => perst h cool := rfl
theorem exec_hotReset : exec .hotReset s = act s fun h => if endpointUp h then linkLost h else h := rfl
theorem exec_linkDown : exec .linkDown s = act s fun h => if endpointUp h then linkLost h else h := rfl
theorem exec_powerLoss (aon : Bool) : exec (.powerLoss aon) s = act s fun h => offHub h (!aon) false := rfl
theorem exec_doorbellWrite (fn page slot : Nat) (sq cq : Option Nat) : exec (.doorbellWrite fn page slot sq cq) s =
    actUnit (decide (fn < 64) && decide (page < 8192) && decide (slot < 64)) s fun h => if memOpen h fn then doorbell h fn page slot sq cq else h := rfl
theorem exec_cmdNop (ctx slot : Nat) : exec (.cmdNop ctx slot) s =
    inData s (isQueue ctx slot) fun h => readCmd h ctx slot fun b => numAt b 0 1 == 0 := rfl
theorem exec_cmdRoute (ctx slot : Nat) : exec (.cmdRoute ctx slot) s =
    inData s (isQueue ctx slot) fun h => readCmd h ctx slot fun b =>
      numAt b 0 1 != 0 && !isRange 1 b && !isRange 2 b && !isRange 3 b := rfl
theorem exec_rangeFlush (ctx slot : Nat) : exec (.rangeFlush ctx slot) s =
    inData s (isQueue ctx slot) fun h => readCmd h ctx slot (isRange 1) := rfl
theorem exec_rangeClean (ctx slot : Nat) : exec (.rangeClean ctx slot) s =
    inData s (isQueue ctx slot) fun h => readCmd h ctx slot (isRange 2) := rfl
theorem exec_rangeInval (ctx slot : Nat) : exec (.rangeInval ctx slot) s =
    inData s (isQueue ctx slot) fun h => readCmd h ctx slot (isRange 3) := rfl
theorem exec_cmdDescriptorRead (ctx slot : Nat) : exec (.cmdDescriptorRead ctx slot) s =
    inData s (isQueue ctx slot) fun h => decodeNext h ctx slot := rfl
theorem exec_cmdFenceRelease (ctx slot : Nat) : exec (.cmdFenceRelease ctx slot) s =
    inData s (isQueue ctx slot) fun h => runQueue h ctx slot := rfl
theorem exec_cmdAcqInvalDone (ctx slot : Nat) : exec (.cmdAcqInvalDone ctx slot) s =
    inData s (isQueue ctx slot) fun h => acqDone h ctx slot := rfl
theorem exec_cmdTranslationDone (ctx slot : Nat) : exec (.cmdTranslationDone ctx slot) s =
    inData s (isQueue ctx slot) fun h => if issuing h ctx then translated h ctx slot else h := rfl
theorem exec_tileOpIssue (ctx slot : Nat) : exec (.tileOpIssue ctx slot) s =
    inData s (isQueue ctx slot) fun h => issueNext h ctx slot := rfl
theorem exec_topRow (opid tcErr memErr : Nat) (hurt : List Nat) : exec (.topRow opid tcErr memErr hurt) s =
    inData s true fun h => pushRow (flitErrors h opid tcErr memErr) opid hurt := rfl
theorem exec_topOut (house : Bool) (site opid row flit smask : Nat) (scale : Bool) (data : List Byte) (bad : List Nat) (form : Nat) : exec (.topOut house site opid row flit smask scale data bad form) s =
    inData s (house || (isLink site && formOk form)) fun h =>
      if house then drainHeld (houseOut h opid) opid else guestOut h site opid row flit smask scale data bad form := rfl
theorem exec_topCredit (site stn count form : Nat) : exec (.topCredit site stn count form) s =
    inData s (isLink site && decide (stn < 64) && formOk form) fun h => guestCredit h site stn count form := rfl
theorem exec_topDone (house : Bool) (site stn opid status form : Nat) : exec (.topDone house site stn opid status form) s =
    inData s (house || (isLink site && decide (stn < 64) && decide (status < 3) && formOk form)) fun h =>
      if house then houseDone h opid else guestDone h site stn opid status form := rfl
theorem exec_cmdFlushDone (ctx slot : Nat) : exec (.cmdFlushDone ctx slot) s =
    inData s (isQueue ctx slot) fun h => flushDone h ctx slot := rfl
theorem exec_cplRecordAck (ctx slot count : Nat) : exec (.cplRecordAck ctx slot count) s =
    inData s (isQueue ctx slot) fun h => recordAcked h ctx slot count := rfl
theorem exec_waitTableRetry (ctx slot : Nat) : exec (.waitTableRetry ctx slot) s =
    inData s (isQueue ctx slot) fun h => retryWait h ctx slot := rfl
theorem exec_queueCfgWrite (ctx which value : Nat) : exec (.queueCfgWrite ctx which value) s =
    dataReg s (decide (ctx < 8192) && decide (which < 3)) fun h => queueCfg h ctx which value := rfl
theorem exec_queueCreate (ctx : Nat) : exec (.queueCreate ctx) s = dataReg s (decide (ctx < 8192)) fun h => queueCreate h ctx := rfl
theorem exec_queueDestroy (ctx : Nat) : exec (.queueDestroy ctx) s = dataReg s (decide (ctx < 8192)) fun h => queueDestroy h ctx := rfl
theorem exec_queueDrained (ctx slot : Nat) : exec (.queueDrained ctx slot) s =
    inData s (isQueue ctx slot) fun h => if qState h ctx slot = 3 && drainedQueue h ctx slot then freeQueue h ctx slot else h := rfl
theorem exec_queueResume (ctx : Nat) : exec (.queueResume ctx) s = dataReg s (decide (ctx < 8192)) fun h => queueResume h ctx := rfl
theorem exec_routeWinWrite (ctx base count : Nat) : exec (.routeWinWrite ctx base count) s =
    dataReg s (decide (ctx < 8192) && decide (base < 65536) && decide (count < 131072)) fun h => routeWin h ctx base count := rfl
theorem exec_routeWrite (ctx : Nat) : exec (.routeWrite ctx) s = dataReg s (decide (ctx < 8192)) fun h => routeWrite h ctx := rfl
theorem exec_routeRead (ctx : Nat) : exec (.routeRead ctx) s = dataReg s (decide (ctx < 8192)) fun h => routeRead h ctx := rfl
theorem exec_crankMatmul (opid : Nat) : exec (.crankMatmul opid) s = inData s true fun h => crankRun h opid := rfl
theorem exec_crankWregParity (opid band : Nat) (second : Bool) : exec (.crankWregParity opid band second) s =
    inData s true fun h => wregParity h opid band second := rfl
theorem exec_crankStoreEcc (stn opid input row sector : Nat) (scale uncorr : Bool) : exec (.crankStoreEcc stn opid input row sector scale uncorr) s =
    inData s (isStore stn) fun h => storeEcc h stn opid input row sector scale uncorr := rfl
theorem exec_crankControlUe (n : Nat) : exec (.crankControlUe n) s = inData s (isCrank n) fun h => later h (.lost n) := rfl
theorem exec_crankStallTimeout (n : Nat) : exec (.crankStallTimeout n) s = inData s (isCrank n) fun h => stallTimeout h n := rfl
theorem exec_crankSelftest (n : Nat) : exec (.crankSelftest n) s = dataReg s (isCrank n) fun h => selftest h n := rfl
theorem exec_crankSelftestDone (n : Nat) (pass : Bool) : exec (.crankSelftestDone n pass) s =
    inData s (isCrank n) fun h => selftestDone h n pass := rfl
theorem exec_vecAdd (opid : Nat) : exec (.vecAdd opid) s = inData s true fun h => vecRun h 0x01 opid := rfl
theorem exec_vecSub (opid : Nat) : exec (.vecSub opid) s = inData s true fun h => vecRun h 0x02 opid := rfl
theorem exec_vecMul (opid : Nat) : exec (.vecMul opid) s = inData s true fun h => vecRun h 0x03 opid := rfl
theorem exec_vecMax (opid : Nat) : exec (.vecMax opid) s = inData s true fun h => vecRun h 0x04 opid := rfl
theorem exec_vecMin (opid : Nat) : exec (.vecMin opid) s = inData s true fun h => vecRun h 0x05 opid := rfl
theorem exec_vecScale (opid : Nat) : exec (.vecScale opid) s = inData s true fun h => vecRun h 0x06 opid := rfl
theorem exec_vecCopy (opid : Nat) : exec (.vecCopy opid) s = inData s true fun h => vecRun h 0x07 opid := rfl
theorem exec_vecExp (opid : Nat) : exec (.vecExp opid) s = inData s true fun h => vecRun h 0x10 opid := rfl
theorem exec_vecLog (opid : Nat) : exec (.vecLog opid) s = inData s true fun h => vecRun h 0x11 opid := rfl
theorem exec_vecRsqrt (opid : Nat) : exec (.vecRsqrt opid) s = inData s true fun h => vecRun h 0x12 opid := rfl
theorem exec_vecRecip (opid : Nat) : exec (.vecRecip opid) s = inData s true fun h => vecRun h 0x13 opid := rfl
theorem exec_vecTanh (opid : Nat) : exec (.vecTanh opid) s = inData s true fun h => vecRun h 0x14 opid := rfl
theorem exec_vecSigmoid (opid : Nat) : exec (.vecSigmoid opid) s = inData s true fun h => vecRun h 0x15 opid := rfl
theorem exec_vecSilu (opid : Nat) : exec (.vecSilu opid) s = inData s true fun h => vecRun h 0x16 opid := rfl
theorem exec_vecSiluMul (opid : Nat) : exec (.vecSiluMul opid) s = inData s true fun h => vecRun h 0x17 opid := rfl
theorem exec_vecGeluTanh (opid : Nat) : exec (.vecGeluTanh opid) s = inData s true fun h => vecRun h 0x18 opid := rfl
theorem exec_vecGeluErf (opid : Nat) : exec (.vecGeluErf opid) s = inData s true fun h => vecRun h 0x19 opid := rfl
theorem exec_vecRelu (opid : Nat) : exec (.vecRelu opid) s = inData s true fun h => vecRun h 0x1A opid := rfl
theorem exec_vecRmsnorm (opid : Nat) : exec (.vecRmsnorm opid) s = inData s true fun h => vecRun h 0x20 opid := rfl
theorem exec_vecLayernorm (opid : Nat) : exec (.vecLayernorm opid) s = inData s true fun h => vecRun h 0x21 opid := rfl
theorem exec_vecRowSum (opid : Nat) : exec (.vecRowSum opid) s = inData s true fun h => vecRun h 0x30 opid := rfl
theorem exec_vecRowMax (opid : Nat) : exec (.vecRowMax opid) s = inData s true fun h => vecRun h 0x31 opid := rfl
theorem exec_vecRowMin (opid : Nat) : exec (.vecRowMin opid) s = inData s true fun h => vecRun h 0x32 opid := rfl
theorem exec_vecRowSumsq (opid : Nat) : exec (.vecRowSumsq opid) s = inData s true fun h => vecRun h 0x33 opid := rfl
theorem exec_vecSoftmax (opid : Nat) : exec (.vecSoftmax opid) s = inData s true fun h => vecRun h 0x40 opid := rfl
theorem exec_vecSmState (opid : Nat) : exec (.vecSmState opid) s = inData s true fun h => vecRun h 0x41 opid := rfl
theorem exec_vecSmExp (opid : Nat) : exec (.vecSmExp opid) s = inData s true fun h => vecRun h 0x42 opid := rfl
theorem exec_vecSmRescale (opid : Nat) : exec (.vecSmRescale opid) s = inData s true fun h => vecRun h 0x43 opid := rfl
theorem exec_vecSmFinal (opid : Nat) : exec (.vecSmFinal opid) s = inData s true fun h => vecRun h 0x44 opid := rfl
theorem exec_drlConvert (opid : Nat) : exec (.drlConvert opid) s = inData s true fun h => drlRun h 1 opid := rfl
theorem exec_drlTranspose (opid : Nat) : exec (.drlTranspose opid) s = inData s true fun h => drlRun h 2 opid := rfl
theorem exec_drlGather (opid : Nat) : exec (.drlGather opid) s = inData s true fun h => drlRun h 3 opid := rfl
theorem exec_drlScatter (opid : Nat) : exec (.drlScatter opid) s = inData s true fun h => drlRun h 4 opid := rfl
theorem exec_drlPackKpw (opid : Nat) : exec (.drlPackKpw opid) s = inData s true fun h => drlRun h 5 opid := rfl
theorem exec_vdrStallTimeout (stn : Nat) : exec (.vdrStallTimeout stn) s = inData s (isVdr stn) fun h => stallTimeout h stn := rfl
theorem exec_vecSelftest (n : Nat) : exec (.vecSelftest n) s = dataReg s (decide (n < 8)) fun h => selftest h (0x10 + n) := rfl
theorem exec_drlSelftest (n : Nat) : exec (.drlSelftest n) s = dataReg s (decide (n < 4)) fun h => selftest h (0x20 + n) := rfl
theorem exec_vdrSelftestDone (stn : Nat) (pass : Bool) : exec (.vdrSelftestDone stn pass) s =
    inData s (isVdr stn) fun h => selftestDone h stn pass := rfl
theorem exec_redAdd (dpa : Nat) (codeErr : Bool) : exec (.redAdd dpa codeErr) s = inData s true fun h => redRun h 0 dpa codeErr := rfl
theorem exec_redMin (dpa : Nat) (codeErr : Bool) : exec (.redMin dpa codeErr) s = inData s true fun h => redRun h 1 dpa codeErr := rfl
theorem exec_redMax (dpa : Nat) (codeErr : Bool) : exec (.redMax dpa codeErr) s = inData s true fun h => redRun h 2 dpa codeErr := rfl
theorem exec_decPageDecode (opid input va : Nat) (codeErr : Bool) : exec (.decPageDecode opid input va codeErr) s =
    inData s (decide (input < 2)) fun h => decodePage h opid input va codeErr := rfl
theorem exec_casOpen (opid : Nat) : exec (.casOpen opid) s = inData s true fun h => casRun h 1 opid := rfl
theorem exec_casFork (opid : Nat) : exec (.casFork opid) s = inData s true fun h => casRun h 2 opid := rfl
theorem exec_casAppend (opid : Nat) : exec (.casAppend opid) s = inData s true fun h => casRun h 3 opid := rfl
theorem exec_casAdvance (opid : Nat) : exec (.casAdvance opid) s = inData s true fun h => casRun h 4 opid := rfl
theorem exec_casTrim (opid : Nat) : exec (.casTrim opid) s = inData s true fun h => casRun h 5 opid := rfl
theorem exec_casClose (opid : Nat) : exec (.casClose opid) s = inData s true fun h => casRun h 6 opid := rfl
theorem exec_casGatherK (opid : Nat) : exec (.casGatherK opid) s = inData s true fun h => casRun h 7 opid := rfl
theorem exec_casGatherV (opid : Nat) : exec (.casGatherV opid) s = inData s true fun h => casRun h 8 opid := rfl
theorem exec_casPoolBind (cas : Nat) : exec (.casPoolBind cas) s = dataReg s (decide (cas < 2)) fun h => casBind h (poolSel h cas) := rfl
theorem exec_casPoolUnbind (cas : Nat) : exec (.casPoolUnbind cas) s =
    dataReg s (decide (cas < 2)) fun h => casUnbind h (poolSel h cas) := rfl
theorem exec_casStallTimeout (n : Nat) : exec (.casStallTimeout n) s = inData s (decide (n < 2)) fun h => stallTimeout h (0x30 + n) := rfl
theorem exec_casSelftest (n : Nat) : exec (.casSelftest n) s = dataReg s (decide (n < 2)) fun h => selftest h (0x30 + n) := rfl
theorem exec_casSelftestDone (n : Nat) (pass : Bool) : exec (.casSelftestDone n pass) s =
    inData s (decide (n < 2)) fun h => selftestDone h (0x30 + n) pass := rfl
theorem exec_hbmTempRead (port temp : Nat) : exec (.hbmTempRead port temp) s =
    inData s (decide (port < 64) && decide (temp < 256)) fun h => if h.variant.portOn port then tempRead h port temp else h := rfl
theorem exec_holdWindowEnd (stack : Nat) : exec (.holdWindowEnd stack) s = inData s (decide (stack < 8)) fun h => holdEnds h stack := rfl
theorem exec_reducedPeriodEnd (stack : Nat) : exec (.reducedPeriodEnd stack) s =
    inData s (decide (stack < 8)) fun h => reducedEnds h stack := rfl
theorem exec_hbmCattrip (stack : Nat) : exec (.hbmCattrip stack) s =
    actUnit (decide (stack < 8)) s fun h => if h.dead = 0 && h.variant.stackOn stack then cattrip h else h := rfl
theorem exec_memScrubNow (port : Nat) : exec (.memScrubNow port) s = dataReg s (decide (port < 64)) fun h => scrubNow h port := rfl
theorem exec_hbmTruingWindow (port pc margin : Nat) (recent : Bool) : exec (.hbmTruingWindow port pc margin recent) s =
    inData s (decide (port < 64) && decide (pc < 8) && decide (margin < 64)) fun h => hbmTruing h port pc margin recent := rfl
theorem exec_hbmRetrainDone (port : Nat) (margins : List Nat) : exec (.hbmRetrainDone port margins) s =
    inData s (decide (port < 64) && margins.all fun m => decide (m < 64)) fun h => retrainDone h port margins := rfl
theorem exec_memCtlRetrain (port : Nat) : exec (.memCtlRetrain port) s = dataReg s (decide (port < 64)) fun h => memRetrain h port := rfl
theorem exec_hbmStepDown (stack : Nat) : exec (.hbmStepDown stack) s = inData s (decide (stack < 8)) fun h => stepDown h stack := rfl
theorem exec_hbmStepDownDone (stack : Nat) (failed : List Nat) : exec (.hbmStepDownDone stack failed) s =
    inData s (decide (stack < 8)) fun h => stepDownDone h stack failed := rfl
theorem exec_regionOpen (region : Nat) : exec (.regionOpen region) s = regionRow s region 1 := rfl
theorem exec_regionSeal (region : Nat) : exec (.regionSeal region) s = regionRow s region 2 := rfl
theorem exec_regionReload (region : Nat) : exec (.regionReload region) s = regionRow s region 3 := rfl
theorem exec_regionRelease (region : Nat) : exec (.regionRelease region) s = regionRow s region 4 := rfl
theorem exec_rdShared (agent txn ctx vline form dirErr memErr : Nat) : exec (.rdShared agent txn ctx vline form dirErr memErr) s =
    plainReq s 1 agent txn ctx vline form dirErr memErr := rfl
theorem exec_rdUnique (agent txn ctx vline form dirErr memErr : Nat) : exec (.rdUnique agent txn ctx vline form dirErr memErr) s =
    plainReq s 2 agent txn ctx vline form dirErr memErr := rfl
theorem exec_rdOnce (agent txn ctx vline smask form dirErr memErr : Nat) : exec (.rdOnce agent txn ctx vline smask form dirErr memErr) s =
    inData s (cohOk agent txn ctx vline form && decide (smask < 4)) fun h =>
      cohReq h { op := 3, agent := agent, txn := txn, ctx := ctx, vline := vline, line := 0, smask := smask } form dirErr memErr := rfl
theorem exec_upgrade (agent txn ctx vline form dirErr memErr : Nat) : exec (.upgrade agent txn ctx vline form dirErr memErr) s =
    plainReq s 4 agent txn ctx vline form dirErr memErr := rfl
theorem exec_wrLine (agent txn ctx vline smask : Nat) (data : List Byte) (poison : Bool) (form dirErr memErr : Nat) : exec (.wrLine agent txn ctx vline smask data poison form dirErr memErr) s =
    inData s (cohOk agent txn ctx vline form && decide (smask < 4)) fun h =>
      cohReq h { op := 5, agent := agent, txn := txn, ctx := ctx, vline := vline, line := 0, smask := smask,
                 data := sliceB data 0 64, bad := poison } form dirErr memErr := rfl
theorem exec_evictClean (agent txn ctx vline form dirErr : Nat) : exec (.evictClean agent txn ctx vline form dirErr) s =
    inData s (cohOk agent txn ctx vline form) fun h =>
      cohReq (dropCopy h agent ctx vline) { op := 6, agent := agent, txn := txn, ctx := ctx, vline := vline, line := 0 } form dirErr 0 := rfl
theorem exec_evictDirty (agent txn ctx vline : Nat) (data : List Byte) (poison : Bool) (form dirErr : Nat) : exec (.evictDirty agent txn ctx vline data poison form dirErr) s =
    inData s (cohOk agent txn ctx vline form) fun h =>
      cohReq (dropCopy h agent ctx vline) { op := 7, agent := agent, txn := txn, ctx := ctx, vline := vline, line := 0,
                                            data := sliceB data 0 64, bad := poison } form dirErr 0 := rfl
theorem exec_streamingRead (stn txn : Nat) : exec (.streamingRead stn txn) s = inData s true fun h => strGo h stn txn false := rfl
theorem exec_streamingWrite (stn txn : Nat) : exec (.streamingWrite stn txn) s = inData s true fun h => strGo h stn txn true := rfl
theorem exec_snpInv (agent home stxn : Nat) (wrote : Bool) (evicting : Nat) (data : List Byte) : exec (.snpInv agent home stxn wrote evicting data) s =
    inData s (decide (agent < 152) && decide (home < 64)) fun h => snooped h false agent home stxn wrote evicting data := rfl
theorem exec_snpShare (agent home stxn : Nat) (wrote : Bool) (evicting : Nat) (data : List Byte) : exec (.snpShare agent home stxn wrote evicting data) s =
    inData s (decide (agent < 152) && decide (home < 64)) fun h => snooped h true agent home stxn wrote evicting data := rfl
theorem exec_snpAll (agent home stxn : Nat) (wrote : Bool) (evicting : Nat) (data : List Byte) : exec (.snpAll agent home stxn wrote evicting data) s =
    inData s (decide (agent < 152) && decide (home < 64)) fun h => snooped h false agent home stxn wrote evicting data := rfl
theorem exec_snoopAck (agent home stxn : Nat) (evicted held : Bool) (form : Nat) : exec (.snoopAck agent home stxn evicted held form) s =
    inData s (decide (agent < 152) && decide (home < 64) && formOk form) fun h =>
      answer h agent 3 1 form fun h => snoopAck h agent home stxn evicted held := rfl
theorem exec_completionAck (agent home txn form : Nat) : exec (.completionAck agent home txn form) s =
    inData s (decide (agent < 152) && decide (home < 64) && formOk form) fun h =>
      answer h agent 3 1 form fun h => completionAck h agent home txn := rfl
theorem exec_ackData (agent home stxn : Nat) (data : List Byte) (bad form : Nat) : exec (.ackData agent home stxn data bad form) s =
    inData s (decide (agent < 152) && decide (home < 64) && formOk form) fun h =>
      answer h agent 5 (datLen 2) form fun h => ackData h agent home stxn data bad := rfl
theorem exec_cmp (agent txn : Nat) : exec (.cmp agent txn) s = inData s (decide (agent < 152)) fun h => cmpAt h agent txn := rfl
theorem exec_nackPoison (agent txn reason : Nat) : exec (.nackPoison agent txn reason) s =
    inData s (decide (agent < 152) && decide (txn < 1024) && decide (1 ≤ reason) && decide (reason < 5)) fun h => h := rfl
theorem exec_snoopTimeout (agent home stxn : Nat) : exec (.snoopTimeout agent home stxn) s =
    inData s (decide (agent < 152) && decide (home < 64)) fun h => snoopTimeout h home stxn agent := rfl
theorem exec_agentSweepDone (agent : Nat) : exec (.agentSweepDone agent) s =
    inData s (decide (agent < 152)) fun h => agentSwept h agent := rfl
theorem exec_contextSweepDone (ctx : Nat) (agents : List Nat) : exec (.contextSweepDone ctx agents) s =
    inData s (decide (ctx < 8192)) fun h => contextSwept h ctx agents := rfl
theorem exec_cohDirRead (port : Nat) : exec (.cohDirRead port) s = dataReg s (decide (port < 64)) fun h => dirRead h port := rfl
theorem exec_tcInvalAll (stn : Nat) : exec (.tcInvalAll stn) s = dataReg s (hasTc stn) fun h => tcInvalAll h stn := rfl
theorem exec_tcDropDone (stn : Nat) : exec (.tcDropDone stn) s = inData s (hasTc stn) fun h => tcDropDone h stn := rfl
theorem exec_semWaitGe (site n txn ctx sem thr : Nat) (acq : Bool) (form : Nat) : exec (.semWaitGe site n txn ctx sem thr acq form) s =
    actUnit (isLink site && decide (n < 64) && decide (sem < 131072) && formOk form) s fun h =>
      guestWaitGe h site n txn ctx sem thr acq form := rfl
theorem exec_semAdd (site n txn ctx sem value : Nat) (fast : Bool) (form : Nat) : exec (.semAdd site n txn ctx sem value fast form) s =
    actUnit (isLink site && decide (n < 64) && decide (sem < 131072) && formOk form) s fun h =>
      guestPost h site n txn ctx sem (value % 2 ^ 64) false fast form := rfl
theorem exec_semSub (site n txn ctx sem value : Nat) (fast : Bool) (form : Nat) : exec (.semSub site n txn ctx sem value fast form) s =
    actUnit (isLink site && decide (n < 64) && decide (sem < 131072) && formOk form) s fun h =>
      guestPost h site n txn ctx sem (value % 2 ^ 64) true fast form := rfl
theorem exec_semAcqRange (site txn base len form : Nat) : exec (.semAcqRange site txn base len form) s =
    actUnit (isLink site && formOk form) s fun h => guestAcqRange h site txn base len form := rfl
theorem exec_orderedPostRelease (anchor stn txn : Nat) : exec (.orderedPostRelease anchor stn txn) s =
    inData s (isLink anchor) fun h => postRelease h anchor stn txn := rfl
theorem exec_semInit : exec .semInit s = dataReg s true semInit := rfl
theorem exec_semFree : exec .semFree s = dataReg s true semFree := rfl
theorem exec_semGrant : exec .semGrant s = dataReg s true semGrant := rfl
theorem exec_semRevoke : exec .semRevoke s = dataReg s true semRevoke := rfl
theorem exec_barCreate : exec .barCreate s = dataReg s true barCreate := rfl
theorem exec_barDestroy : exec .barDestroy s = dataReg s true barDestroy := rfl
theorem exec_barForce : exec .barForce s = dataReg s true barForce := rfl
theorem exec_partBind (kind id : Nat) : exec (.partBind kind id) s =
    dataReg s (decide (kind < 4) && decide (id < 65536)) fun h => partBind h kind id := rfl
theorem exec_syncAudit : exec .syncAudit s = dataReg s true fun h => syncAudit h (fld h F.syncCtxSelCtx) := rfl
theorem exec_syncCtxCfgWrite (wdog vector : Nat) : exec (.syncCtxCfgWrite wdog vector) s =
    dataReg s (decide (wdog < 2 ^ 20) && decide (vector < 2 ^ 11)) fun h => syncCtxCfg h wdog vector := rfl
theorem exec_watchdogFire (ctx what : Nat) (ring : Bool) : exec (.watchdogFire ctx what ring) s =
    inData s (decide (ctx < 8192)) fun h => wdogFire h ctx what ring := rfl
theorem exec_semSet (sem half value : Nat) : exec (.semSet sem half value) s =
    dataReg s (decide (sem < 131072) && decide (half < 3)) fun h => semSet h sem half value := rfl
theorem exec_semWakeAll (sem : Nat) : exec (.semWakeAll sem) s = dataReg s (decide (sem < 131072)) fun h => semWord h sem true false := rfl
theorem exec_semClrAbandoned (sem : Nat) : exec (.semClrAbandoned sem) s =
    dataReg s (decide (sem < 131072)) fun h => semWord h sem false true := rfl
theorem exec_spokeTruingWindow (site group : Nat) : exec (.spokeTruingWindow site group) s =
    inData s (decide (site < 32) && decide (group < 32)) fun h => truingWindow h site group := rfl
theorem exec_linkTrueRpt (site group : Nat) (lanes : List (Nat × Nat × Nat × Nat)) : exec (.linkTrueRpt site group lanes) s =
    inData s (isLink site && decide (group < 32) && lanes.all fun e => decide (e.1 < 2) && decide (e.2.1 < 132)) fun h =>
      if !inService h site then h
      else if 32 ≤ site then linkProtocol (countRx h site 1) site
      else trueReport (countRx h site 1) site group lanes := rfl
theorem exec_trueRptTimeout (site : Nat) : exec (.trueRptTimeout site) s = inData s (decide (site < 32)) fun h => trueMissed h site := rfl
theorem exec_spokeQuietPoint (site : Nat) : exec (.spokeQuietPoint site) s =
    inData s (decide (site < 32)) fun h => if linkUp h site && siteState h site == 3 then decideMap h site else h := rfl
theorem exec_linkMapAck (site b1 : Nat) : exec (.linkMapAck site b1) s =
    inData s (isLink site) fun h => if inService h site then mapAck (countRx h site 1) site b1 else h := rfl
theorem exec_linkMapRpt (site errors : Nat) (failed : List (Nat × Nat × Nat)) : exec (.linkMapRpt site errors failed) s =
    inData s (isLink site && failed.all laneOk) fun h =>
      if !inService h site then h
      else if 32 ≤ site then linkProtocol (countRx h site 1) site
      else mapReport (countRx h site 1) site errors failed := rfl
theorem exec_stallBoundMiss (site : Nat) : exec (.stallBoundMiss site) s =
    inData s (isLink site) fun h =>
      let st := (link h site).stall
      if st = 1 || (st = 2 && site < 32) then isolate h (anchorOf h site) 3 else h := rfl
theorem exec_linkCredit (site : Nat) (counts : Option (List Nat)) : exec (.linkCredit site counts) s =
    inData s (isLink site && ((counts.getD []).all fun c => decide (c < 65536)) && decide ((counts.getD []).length ≤ 6)) fun h =>
      linkCredit h site counts := rfl
theorem exec_linkBeat (site : Nat) : exec (.linkBeat site) s =
    inData s (isLink site) fun h =>
      if !inService h site then h
      else if site < 32 then linkProtocol (countRx h site 1) site
      else beat (countRx h site 1) site := rfl
theorem exec_cellUe (site : Nat) (data : Bool) : exec (.cellUe site data) s = inData s (isLink site) fun h => cellUe h site data := rfl
theorem exec_strRd (site stn txn ctx va smask form : Nat) : exec (.strRd site stn txn ctx va smask form) s =
    inData s (strOk site stn txn ctx va smask form) fun h => strReq h site stn txn ctx va smask false form := rfl
theorem exec_strWr (site stn txn ctx va smask form : Nat) : exec (.strWr site stn txn ctx va smask form) s =
    inData s (strOk site stn txn ctx va smask form) fun h => strReq h site stn txn ctx va smask true form := rfl
theorem exec_strWdata (site stn txn smask : Nat) (data : List Byte) (bad form : Nat) : exec (.strWdata site stn txn smask data bad form) s =
    inData s (isLink site && decide (stn < 64) && decide (smask < 256) && formOk form) fun h => strData h site stn txn smask data bad form := rfl
theorem exec_heartbeatLost (site : Nat) : exec (.heartbeatLost site) s =
    inData s (isLink site) fun h =>
      if guestRuns h site && !(decide (32 ≤ site) && (link h site).stall != 0) then isolate h (anchorOf h site) 1 else h := rfl
theorem exec_guestResetRequest (site : Nat) : exec (.guestResetRequest site) s =
    inData s (isLink site) fun h => if guestRuns h site then isolate h (anchorOf h site) 2 else h := rfl
theorem exec_guestError (site : Nat) : exec (.guestError site) s =
    inData s (isLink site) fun h => if guestRuns h site then isolate h (anchorOf h site) 3 else h := rfl
theorem exec_guestPresence (site : Nat) (low : Bool) : exec (.guestPresence site low) s =
    actUnit (isLink site) s fun h => if linkOn h site && h.dead == 0 then presence h site low else h := rfl
theorem exec_guestPreq (site : Nat) (high : Bool) : exec (.guestPreq site high) s =
    inData s (isLink site) fun h => if siteState h (anchorOf h site) = 3 then setLink h site { link h site with preq := high } else h := rfl
theorem exec_spkTrueNow (site : Nat) : exec (.spkTrueNow site) s = dataReg s (decide (site < 32)) fun h => trueNow h site := rfl
theorem exec_sidebandRetry (site : Nat) : exec (.sidebandRetry site) s = inData s (isLink site) fun h => sbRetry h site := rfl
theorem exec_guestCmdEnd (site : Nat) (ok : Bool) : exec (.guestCmdEnd site ok) s =
    inData s (isLink site) fun h => guestCmdEnd h site ok := rfl
theorem exec_guestCmdTimeout (site : Nat) : exec (.guestCmdTimeout site) s = inData s (isLink site) fun h => guestCmdTimeout h site := rfl
theorem exec_sbReadyTimeout (site : Nat) : exec (.sbReadyTimeout site) s =
    inData s (isLink site) fun h => if (guest h site).step = 1 then checkRects (refuse h site 1) else h := rfl
theorem exec_violationWindowEnd (anchor : Nat) : exec (.violationWindowEnd anchor) s =
    inData s (isLink anchor) fun h => setGuest h anchor { guest h anchor with winCount := 0 } := rfl
theorem exec_siteIsolate (anchor : Nat) : exec (.siteIsolate anchor) s = dataReg s (isLink anchor) fun h => siteIsolate h anchor := rfl
theorem exec_siteReadmit (anchor : Nat) : exec (.siteReadmit anchor) s = dataReg s (isLink anchor) fun h => siteReadmit h anchor := rfl
theorem exec_autoReadmit (anchor : Nat) : exec (.autoReadmit anchor) s = inData s (isLink anchor) fun h => autoReadmit h anchor := rfl
theorem exec_leaseGrant (anchor : Nat) : exec (.leaseGrant anchor) s = dataReg s (isLink anchor) fun h => leaseGrant h anchor := rfl
theorem exec_leaseEnd (anchor : Nat) : exec (.leaseEnd anchor) s = dataReg s (isLink anchor) fun h => leaseEndSel h anchor := rfl
theorem exec_leaseDrainDone (anchor slot : Nat) : exec (.leaseDrainDone anchor slot) s =
    inData s (isLink anchor && decide (slot < 16)) fun h => drainDone h anchor slot := rfl
theorem exec_leaseDrainTimeout (anchor slot : Nat) : exec (.leaseDrainTimeout anchor slot) s =
    inData s (isLink anchor && decide (slot < 16)) fun h =>
      if leaseState h anchor slot = 2 && (leaseRec h anchor slot).step == 2 then isolate h anchor 3 else h := rfl
theorem exec_leaseGraceEnd (anchor ctx : Nat) : exec (.leaseGraceEnd anchor ctx) s =
    inData s (isLink anchor) fun h => setGuest h anchor { guest h anchor with grace := (guest h anchor).grace.erase ctx } := rfl
theorem exec_ucieSbTimeout (port : Nat) : exec (.ucieSbTimeout port) s = inData s (decide (port < 2)) fun h => sbRetry h (32 + port) := rfl
theorem exec_ucieLaneFail (port : Nat) (lanes : List (Nat × Nat × Nat)) : exec (.ucieLaneFail port lanes) s =
    inData s (decide (port < 2) && lanes.all uciLaneOk) fun h => uciLaneFail h port lanes := rfl
theorem exec_ucieRetrainDone (port : Nat) : exec (.ucieRetrainDone port) s = inData s (decide (port < 2)) fun h => retrained h port := rfl
theorem exec_ucieRetrainTimeout (port : Nat) : exec (.ucieRetrainTimeout port) s =
    inData s (decide (port < 2)) fun h => if (link h (32 + port)).stall = 2 then isolate h (32 + port) 5 else h := rfl
theorem exec_ucieLinkDown (port : Nat) : exec (.ucieLinkDown port) s =
    inData s (decide (port < 2)) fun h =>
      let s := 32 + port
      if !inService h s then h
      else isolate (raise h E.uciLinkDown port) s (if (link h s).stall != 0 then 5 else 4) := rfl
theorem exec_rimFlitUe (router port net syndrome : Nat) (parityHolds again : Bool) : exec (.rimFlitUe router port net syndrome parityHolds again) s =
    inData s (decide (router < 64) && decide (port < 7) && decide (net < 4)) fun h => flitError h router port net syndrome parityHolds again := rfl
theorem exec_rimRetryRequest (router port net n : Nat) : exec (.rimRetryRequest router port net n) s =
    inData s (decide (router < 64) && decide (port < 4) && decide (net < 4) && decide (1 ≤ n) && decide (n ≤ 16)) fun h =>
      addFld h F.rimPortFlitsFlits (rimBank router port net) n := rfl
theorem exec_rimStorageUe (router : Nat) : exec (.rimStorageUe router) s =
    inData s (decide (router < 64)) fun h => later (raise h E.rimFlitUe router) (.fatal 2) := rfl
theorem exec_rimRouteErr (router route : Nat) : exec (.rimRouteErr router route) s =
    inData s (decide (router < 64) && decide (route < 2 ^ 24)) fun h =>
      if badRoute h route then later (raise h E.rimRouteErr router) (.fatal 3) else h := rfl
theorem exec_rimCntClear (router : Nat) : exec (.rimCntClear router) s = dataReg s (decide (router < 64)) fun h => rimClear h router := rfl
theorem exec_ctxFuncWrite (ctx value : Nat) : exec (.ctxFuncWrite ctx value) s = dataReg s (isCtx ctx) fun h => funcWrite h ctx value := rfl
theorem exec_ctxPasidWrite (ctx value : Nat) : exec (.ctxPasidWrite ctx value) s =
    dataReg s (isCtx ctx) fun h => pasidWrite h ctx value := rfl
theorem exec_ctxCreate (ctx : Nat) : exec (.ctxCreate ctx) s = dataReg s (isCtx ctx) fun h => ctxCreate h ctx := rfl
theorem exec_ctxSuspend (ctx : Nat) : exec (.ctxSuspend ctx) s = dataReg s (isCtx ctx) fun h => ctxSuspend h ctx := rfl
theorem exec_ctxResume (ctx : Nat) : exec (.ctxResume ctx) s = dataReg s (isCtx ctx) fun h => ctxResume h ctx := rfl
theorem exec_ctxKill (ctx : Nat) : exec (.ctxKill ctx) s = dataReg s (isCtx ctx) fun h => ctxKill h ctx := rfl
theorem exec_ctxTeardown (ctx : Nat) : exec (.ctxTeardown ctx) s = dataReg s (isCtx ctx) fun h => ctxTeardown h ctx := rfl
theorem exec_teardownStepDone (ctx : Nat) : exec (.teardownStepDone ctx) s = inData s (isCtx ctx) fun h => tearRun 8 h ctx := rfl
theorem exec_translationCompletion (ctx va who : Nat) (write : Bool) (status size : Nat) (r w u : Bool) (addr : Nat) : exec (.translationCompletion ctx va who write status size r w u addr) s =
    inData s (isCtx ctx && decide (12 ≤ size) && decide (size < 64)) fun h =>
      match trFind h ctx va who write with
      | none => h
      | some t => trDone h t status size r w u addr := rfl
theorem exec_atsCompletionTimeout (ctx va who : Nat) (write : Bool) : exec (.atsCompletionTimeout ctx va who write) s =
    inData s (isCtx ctx) fun h => match trFind h ctx va who write with
      | none => h
      | some t => trTimeout h t := rfl
theorem exec_atsInvalidation (itag fn pasid : Nat) (global : Bool) (base len : Nat) : exec (.atsInvalidation itag fn pasid global base len) s =
    actUnit (decide (itag < 32) && decide (fn < 64)) s fun h =>
      if h.dead != 0 then h
      else if h.dataReset then emit h .invalComplete fn [itag]
      else atsInval h itag fn pasid global base len := rfl
theorem exec_atsInvalComplete (itag fn : Nat) : exec (.atsInvalComplete itag fn) s =
    inData s (decide (itag < 32) && decide (fn < 64)) fun h => invalDone h itag fn := rfl
theorem exec_faultHeadWrite (value : Nat) : exec (.faultHeadWrite value) s = ctlReg s fun h => faultHead h (value % 2 ^ 32) := rfl
theorem exec_vectorRegWrite (which unit value : Nat) : exec (.vectorRegWrite which unit value) s =
    match which with
    | 0 => dataReg s (isCtx unit) fun h => ctxCfgWrite h unit value
    | 1 => dataReg s true fun h => podVecWrite h value
    | 2 => ctlReg s fun h => setReg h .faultCfg 0 (value % 2 ^ 12)
    | 3 => ctlReg s fun h => setReg h .mbxCfg 0 (value % 2 ^ 12)
    | _ => actUnit false s fun h => h := rfl
theorem exec_wheelSlot (port : Nat) (waiting urgent : List Nat) (err : Nat) : exec (.wheelSlot port waiting urgent err) s =
    inData s (decide (port < 64) && waiting.all fun c => decide (c < 5)) fun h =>
      if h.live.contains port then wheelSlot h port waiting urgent err else h := rfl
theorem exec_wheelTurnStart (port : Nat) : exec (.wheelTurnStart port) s =
    inData s (decide (port < 64)) fun h => if h.live.contains port then turnStart h port else h := rfl
theorem exec_deadlineMiss (port router cls : Nat) : exec (.deadlineMiss port router cls) s =
    inData s (decide (port < 64) && decide (router < 64) && decide (cls < 5)) fun h =>
      if !h.live.contains port || fld h F.regCfgMode router != 2 then h
      else
        let w := wheel h port
        raise (setWheel h port { w with late := w.late ++ [cls] }) E.whlDeadlineMiss port := rfl
theorem exec_whlApply (port : Nat) : exec (.whlApply port) s =
    dataReg s (decide (port < 64)) fun h => if h.live.contains port then whlApply h port else h := rfl
theorem exec_regCfgWrite (router : Nat) (limit : Bool) (value : Nat) : exec (.regCfgWrite router limit value) s =
    dataReg s (decide (router < 64)) fun h => regWrite h router limit value := rfl
theorem exec_ethPortState (port : Nat) (up : Bool) : exec (.ethPortState port up) s =
    inData s (decide (port < 2)) fun h => ethPort h port up := rfl
theorem exec_podFrame (port dst src etherType : Nat) (bytes : List Byte) (full : Bool) : exec (.podFrame port dst src etherType bytes full) s =
    inData s (decide (port < 2)) fun h =>
      if bitOf (fld h F.podStatusPortUp) port then podReceive h dst src etherType bytes full else h := rfl
theorem exec_podPutPerformed (key : Nat) : exec (.podPutPerformed key) s = inData s true fun h => putPerformed h key := rfl
theorem exec_podRetxTimeout (hub : Nat) : exec (.podRetxTimeout hub) s = inData s (decide (hub < 4096)) fun h => retx h hub := rfl
theorem exec_podAckTimer (hub : Nat) : exec (.podAckTimer hub) s =
    inData s (decide (hub < 4096)) fun h => if h.podAck.contains hub then sendFrame h hub 0 [] else h := rfl
theorem exec_podUnreachable (hub : Nat) : exec (.podUnreachable hub) s = inData s (decide (hub < 4096)) fun h => unreachable_ h hub := rfl
theorem exec_podBeatTimer : exec .podBeatTimer s =
    inData s true fun h =>
      if podRole h = 1 then
        let (i, h) := podNew h
        podSend h h.podMgr ⟨7, false, 0, i, 0, []⟩
      else h := rfl
theorem exec_podWatchdog (hub : Nat) : exec (.podWatchdog hub) s = inData s (decide (hub < 4096)) fun h => podWatchdog h hub := rfl
theorem exec_podChOpen : exec .podChOpen s = dataReg s true chOpen := rfl
theorem exec_podChClose : exec .podChClose s = dataReg s true chClose := rfl
theorem exec_podChResume : exec .podChResume s = dataReg s true chResume := rfl
theorem exec_podCmdFetch (ch : Nat) : exec (.podCmdFetch ch) s = inData s (decide (ch < 256)) fun h => podFetch h ch := rfl
theorem exec_podCmdNop (ch : Nat) : exec (.podCmdNop ch) s = inData s (decide (ch < 256)) fun h => podNop h ch := rfl
theorem exec_podCmdPut (ch : Nat) : exec (.podCmdPut ch) s = inData s (decide (ch < 256)) fun h => podPut h ch 1 := rfl
theorem exec_podCmdReducePut (ch : Nat) : exec (.podCmdReducePut ch) s = inData s (decide (ch < 256)) fun h => podPut h ch 2 := rfl
theorem exec_podCmdSemAdd (ch : Nat) : exec (.podCmdSemAdd ch) s = inData s (decide (ch < 256)) fun h => podSem h ch 3 := rfl
theorem exec_podCmdSemSub (ch : Nat) : exec (.podCmdSemSub ch) s = inData s (decide (ch < 256)) fun h => podSem h ch 4 := rfl
theorem exec_podCmdArrive (ch : Nat) : exec (.podCmdArrive ch) s = inData s (decide (ch < 256)) fun h => podArrive h ch := rfl
theorem exec_configRequest (fn off : Nat) (write : Option (Nat × Nat)) : exec (.configRequest fn off write) s =
    actUnit (decide (fn < 64) && decide (off < 4096) && decide (off % 4 = 0)) s fun h => if h.pcie.up then cfgRequest h fn off write else h := rfl
theorem exec_bar4Read (tag addr len : Nat) : exec (.bar4Read tag addr len) s =
    actUnit (decide (1 ≤ len) && decide (len ≤ 4096) && decide (addr + len ≤ 2 ^ 39)) s fun h => if h.pcie.up then bar4Read h tag addr len else h := rfl
theorem exec_bar4Write (addr : Nat) (data : List Byte) (ep : Bool) : exec (.bar4Write addr data ep) s =
    actUnit (decide (data.length ≤ 4096) && decide (addr + data.length ≤ 2 ^ 39)) s fun h => if h.pcie.up then bar4Write h addr data ep else h := rfl
theorem exec_initiateFlr (fn : Nat) : exec (.initiateFlr fn) s =
    actUnit (decide (fn < 64)) s fun h => if endpointUp h && (ctlUp h || dataUp h) && funcOn h fn then initiateFlr h fn else h := rfl
theorem exec_flrDone (fn : Nat) : exec (.flrDone fn) s = actUnit (decide (fn < 64)) s fun h => flrDone h fn := rfl
theorem exec_d3hotEntry (fn : Nat) : exec (.d3hotEntry fn) s = cfgRow s fn fun h => d3hot h fn := rfl
theorem exec_d0Return (fn : Nat) : exec (.d0Return fn) s = cfgRow s fn fun h => d0 h fn := rfl
theorem exec_bar4Resize (size : Bool) (value : Nat) : exec (.bar4Resize size value) s =
    cfgRow s 0 fun h => if (func h 0).flr then h else if size then bar4Size h value else bar4Base h value := rfl
theorem exec_vfEnable (on : Bool) : exec (.vfEnable on) s = cfgRow s 0 fun h => if (func h 0).flr then h else vfEnable h on := rfl
theorem exec_hostCompletion (fn tag status : Nat) (ep : Bool) (data : List Byte) : exec (.hostCompletion fn tag status ep data) s =
    actUnit (decide (fn < 64) && decide (status < 3)) s fun h => if h.pcie.up then hostCompletion h fn tag status ep data else h := rfl
theorem exec_hostCompletionTimeout (tag : Nat) : exec (.hostCompletionTimeout tag) s = act s fun h => hostTimeout h tag := rfl
theorem exec_msixUnmask (fn vec : Nat) : exec (.msixUnmask fn vec) s =
    actUnit (decide (fn < 64) && decide (vec < vectors fn)) s fun h => if msixOpen h fn then msixMask h fn vec false else h := rfl
theorem exec_pmeTurnOff : exec .pmeTurnOff s = act s fun h => if endpointUp h then pmeTurnOff h else h := rfl
theorem exec_lcScrap (path peer value : Nat) : exec (.lcScrap path peer value) s = odRow s path peer OD.lcScrap (leBytes 4 value) := rfl
theorem exec_lcJtagTransition (goal : Nat) : exec (.lcJtagTransition goal) s = act s fun h => lcJtag h goal := rfl
theorem exec_attestNonce (path peer : Nat) (nonce : List Byte) : exec (.attestNonce path peer nonce) s =
    odRow s path peer OD.attestNonce nonce := rfl
theorem exec_attestRecordReady : exec .attestRecordReady s = act s attestReady := rfl
theorem exec_dbgNonce (path peer : Nat) : exec (.dbgNonce path peer) s =
    actUnit (decide (path ≤ 3)) s fun h =>
      if path != 0 then odRead h path peer OD.dbgNonce 48
      else if ctlUp h && lcState h != 3 then
        let (n, h) := dbgNonce h
        emit h .jtagAnswer 0 [] n
      else h := rfl
theorem exec_dbgResponse (path peer : Nat) (response : List Byte) : exec (.dbgResponse path peer response) s =
    odRow s path peer OD.dbgResponse response := rfl
theorem exec_dbgVerifyDone : exec .dbgVerifyDone s = act s dbgVerify := rfl
theorem exec_opdbg (path peer : Nat) (on : Bool) : exec (.opdbg path peer on) s = odRow s path peer OD.opdbg (leBytes 1 (b2n on)) := rfl
theorem exec_bindLoad (path peer region : Nat) : exec (.bindLoad path peer region) s =
    if region < 64 then odRow s path peer (OD.bindCmd region) [1] else .fault .noSuchUnit := rfl
theorem exec_bindAbort (path peer region : Nat) : exec (.bindAbort path peer region) s =
    if region < 64 then odRow s path peer (OD.bindCmd region) [2] else .fault .noSuchUnit := rfl
theorem exec_bindUnwrapDone (region : Nat) : exec (.bindUnwrapDone region) s =
    inData s (decide (region < 64)) fun h => loadUnwrap h region := rfl
theorem exec_bindChunk (region : Nat) : exec (.bindChunk region) s = inData s (decide (region < 64)) fun h => loadChunk h region := rfl
theorem exec_mgmtWatchdog : exec .mgmtWatchdog s = act s fun h => if h.dead != 0 then h else ctlRestart h := rfl
theorem exec_sramUe : exec .sramUe s = act s fun h => if h.dead != 0 then h else ctlRestart h := rfl
theorem exec_mbxRead (index sub length offset : Nat) : exec (.mbxRead index sub length offset) s =
    ctlReg s fun h => mbxRequest h 1 (index % 65536 * 256 + sub % 256) length offset [] := rfl
theorem exec_mbxWrite (index sub : Nat) (value : List Byte) : exec (.mbxWrite index sub value) s =
    ctlReg s fun h => mbxRequest h 2 (index % 65536 * 256 + sub % 256) value.length 0 value := rfl
theorem exec_mbxDescribe (index sub : Nat) : exec (.mbxDescribe index sub) s =
    ctlReg s fun h => mbxRequest h 3 (index % 65536 * 256 + sub % 256) 16 0 [] := rfl
theorem exec_mbxNotePop : exec .mbxNotePop s = ctlReg s notePop := rfl
theorem exec_kmpRead (src dst epoch seq index sub offset length : Nat) (tag : List Byte) (idle : Option Nat) : exec (.kmpRead src dst epoch seq index sub offset length tag idle) s =
    act s fun h => kmpRx h src dst (kmpPayload 1 0 epoch seq index sub offset length [] tag) idle := rfl
theorem exec_kmpDescribe (src dst epoch seq index sub offset : Nat) (tag : List Byte) (idle : Option Nat) : exec (.kmpDescribe src dst epoch seq index sub offset tag idle) s =
    act s fun h => kmpRx h src dst (kmpPayload 1 1 epoch seq index sub offset 0 [] tag) idle := rfl
theorem exec_kmpWrite (src dst epoch seq index sub offset : Nat) (value tag : List Byte) (idle : Option Nat) : exec (.kmpWrite src dst epoch seq index sub offset value tag idle) s =
    act s fun h => kmpRx h src dst (kmpPayload 2 0 epoch seq index sub offset value.length value tag) idle := rfl
theorem exec_kmpNotifyAck (src dst epoch seq : Nat) (tag : List Byte) : exec (.kmpNotifyAck src dst epoch seq tag) s =
    act s fun h => kmpRx h src dst (kmpPayload 5 0 epoch seq 0 0 0 0 [] tag) none := rfl
theorem exec_kmpResponseExpiry (peer seq : Nat) : exec (.kmpResponseExpiry peer seq) s = act s fun h => responseExpiry h peer seq := rfl
theorem exec_notifyResend (seq : Nat) : exec (.notifyResend seq) s = act s fun h => notifyResend h seq := rfl
theorem exec_fieldFrameRx (kind src dst : Nat) (payload : List Byte) (idle : Option Nat) : exec (.fieldFrameRx kind src dst payload idle) s =
    actUnit (decide (kind < 5)) s fun h => fieldFrame h kind src dst payload idle := rfl
theorem exec_fieldTxCollision (late aborted : Bool) : exec (.fieldTxCollision late aborted) s =
    act s fun h => txCollision h late aborted := rfl
theorem exec_plcaBeaconLoss : exec .plcaBeaconLoss s = act s beaconLoss := rfl
theorem exec_sbWrite (index sub : Nat) (value : List Byte) (pecOk : Bool) : exec (.sbWrite index sub value pecOk) s =
    actUnit (inRange value.length 1 32) s fun h => sbWrite h (index % 65536 * 256 + sub % 256) value pecOk := rfl
theorem exec_sbRead (index sub offset : Nat) (pecOk : Bool) : exec (.sbRead index sub offset pecOk) s =
    act s fun h => sbRead_ h (index % 65536 * 256 + sub % 256) offset pecOk := rfl
theorem exec_expertNonce (path peer : Nat) : exec (.expertNonce path peer) s =
    actUnit (inRange path 1 3) s fun h => odRead h path peer OD.expertNonce 32 := rfl
theorem exec_expertProof (path peer : Nat) (proof : List Byte) : exec (.expertProof path peer proof) s =
    odRow s path peer OD.expertProof proof := rfl
theorem exec_expertClose (path peer : Nat) : exec (.expertClose path peer) s = odRow s path peer OD.expertActive [0] := rfl
theorem exec_expertIdleTimeout (path peer : Nat) : exec (.expertIdleTimeout path peer) s =
    actUnit (inRange path 1 2) s fun h => if isExpert h path peer then endSession h path peer else h := rfl
theorem exec_proofLockoutEnd (path : Nat) : exec (.proofLockoutEnd path) s =
    actUnit (inRange path 1 2) s fun h => setCtl h { h.mg.ctl with locked := h.mg.ctl.locked.filter (· != path) } := rfl
theorem exec_storeCommit (ok : Bool) : exec (.storeCommit ok) s = act s fun h => tryCommit h ok false := rfl
theorem exec_storeCommitRetry (ok : Bool) : exec (.storeCommitRetry ok) s = act s fun h => tryCommit h ok true := rfl
theorem exec_overlaySwitch (path peer : Nat) (name : List Byte) : exec (.overlaySwitch path peer name) s =
    odRow s path peer OD.ovlActive name := rfl
theorem exec_ovlCreate (path peer : Nat) : exec (.ovlCreate path peer) s = odRow s path peer OD.ovlEditCmd [1] := rfl
theorem exec_ovlDelete (path peer : Nat) : exec (.ovlDelete path peer) s = odRow s path peer OD.ovlEditCmd [2] := rfl
theorem exec_ovlPut (path peer : Nat) : exec (.ovlPut path peer) s = odRow s path peer OD.ovlEditCmd [3] := rfl
theorem exec_ovlRemove (path peer : Nat) : exec (.ovlRemove path peer) s = odRow s path peer OD.ovlEditCmd [4] := rfl
theorem exec_ovlClear (path peer : Nat) : exec (.ovlClear path peer) s = odRow s path peer OD.ovlEditCmd [5] := rfl
theorem exec_storeCmd (path peer value : Nat) : exec (.storeCmd path peer value) s = odRow s path peer OD.storeCmd (leBytes 1 value) := rfl
theorem exec_coastEntry : exec .coastEntry s = act s coastEntry := rfl
theorem exec_parkEntry (abort : Nat) : exec (.parkEntry abort) s =
    actUnit (decide (abort ≤ 6) || inRange abort 17 23) s fun h => parkEntry h abort := rfl
theorem exec_parkWake (source : Nat) (voltageFail pllFail : Bool) (failed : List Nat) : exec (.parkWake source voltageFail pllFail failed) s =
    actUnit (inRange source 1 5) s fun h => parkWake h source (voltageFail || pllFail) failed := rfl
theorem exec_kickstandWake : exec .kickstandWake s = act s kickWake := rfl
theorem exec_rtcAlarm : exec .rtcAlarm s = act s rtcAlarm := rfl
theorem exec_wakeReq (path peer value : Nat) : exec (.wakeReq path peer value) s = odRow s path peer OD.wakeReq (leBytes 1 value) := rfl
theorem exec_avsInRegulation : exec .avsInRegulation s = act s avsDone := rfl
theorem exec_avsTimeout : exec .avsTimeout s = act s avsTimeout := rfl
theorem exec_avsRetry : exec .avsRetry s = act s avsRetry := rfl
theorem exec_limiterTick (power : Nat) (temps : List Int) : exec (.limiterTick power temps) s =
    actUnit (temps.length == 64 && decide (power < 65536)) s fun h => limiterTick h power temps := rfl
theorem exec_bootPhaseEnd (ms : Nat) (cellBlows fuseOdd rimOk : Bool) (hbms : List (Nat × Nat × Nat × Nat)) (fails : List (List Nat)) (failed : List Nat) : exec (.bootPhaseEnd ms cellBlows fuseOdd rimOk hbms fails failed) s =
    act s fun h => bootRow false h fun h => phaseEnd h ms cellBlows fuseOdd rimOk hbms fails failed := rfl
theorem exec_bootPhaseOverrun : exec .bootPhaseOverrun s =
    act s fun h => if bringingUp h && h.dead == 0 then raise h E.bootPhaseOver else h := rfl
theorem exec_pllLockTimeout : exec .pllLockTimeout s = act s fun h => if inPhase2 h then phase2Fails (stemUp h false) 1 else h := rfl
theorem exec_stemUpTimeout : exec .stemUpTimeout s = act s fun h => if inPhase2 h then stemTimeout h else h := rfl
theorem exec_gateRunEnd (site : Nat) (errors : List (Nat × Nat × Nat)) : exec (.gateRunEnd site errors) s =
    inData s (isLink site && errors.all (if site < 32 then laneOk else uciLaneOk)) fun h => gateRun h site errors := rfl
theorem exec_gateDeadline (anchor : Nat) : exec (.gateDeadline anchor) s =
    inData s (isLink anchor) fun h => if [6, 7].contains (guest h anchor).step then refuse h anchor 6 else h := rfl
theorem exec_fwAnswerTimeout (anchor : Nat) : exec (.fwAnswerTimeout anchor) s =
    inData s (isLink anchor) fun h => if (guest h anchor).step = 10 then fwNext (refuseFw h anchor 5) else h := rfl
theorem exec_fwuBegin (path peer : Nat) : exec (.fwuBegin path peer) s = odRow s path peer OD.fwuCmd [1] := rfl
theorem exec_fwuEraseDone : exec .fwuEraseDone s = act s eraseDone := rfl
theorem exec_fwuData (path peer : Nat) (chunk : List Byte) : exec (.fwuData path peer chunk) s = odRow s path peer OD.fwuData chunk := rfl
theorem exec_fwuEnd (path peer : Nat) : exec (.fwuEnd path peer) s = odRow s path peer OD.fwuCmd [2] := rfl
theorem exec_fwuAbort (path peer : Nat) : exec (.fwuAbort path peer) s = odRow s path peer OD.fwuCmd [3] := rfl
theorem exec_fwuActivate (path peer : Nat) : exec (.fwuActivate path peer) s = odRow s path peer OD.fwuCmd [4] := rfl
theorem exec_fwuConfirm (path peer : Nat) : exec (.fwuConfirm path peer) s = odRow s path peer OD.fwuCmd [5] := rfl
theorem exec_fwuRollback (path peer : Nat) : exec (.fwuRollback path peer) s = odRow s path peer OD.fwuCmd [6] := rfl
theorem exec_fwuDeleteGuest (path peer : Nat) : exec (.fwuDeleteGuest path peer) s = odRow s path peer OD.fwuCmd [7] := rfl
theorem exec_fwuAutoConfirm : exec .fwuAutoConfirm s = act s autoConfirm := rfl
theorem exec_trcClear : exec .trcClear s = ctlReg s trcClear := rfl
theorem exec_dbgMemRead (path peer : Nat) : exec (.dbgMemRead path peer) s = odRow s path peer OD.dbgMemCmd [1] := rfl
theorem exec_endpointCoreUe : exec .endpointCoreUe s = act s fun h => if h.pwr.on && h.dead == 0 then later h (.hubFatal 1) else h := rfl
theorem exec_supplyFault (supply : Nat) : exec (.supplyFault supply) s =
    actUnit (decide (supply < 6) || inRange supply 8 15) s fun h => supplyFault h supply := rfl
theorem exec_siteIoutPoll (site iout : Nat) (fault answers : Bool) : exec (.siteIoutPoll site iout fault answers) s =
    inData s (decide (site < 32) && decide (iout < 65536)) fun h => ioutPoll h site iout fault answers := rfl
theorem exec_hbeatToggle (site : Nat) : exec (.hbeatToggle site) s = inData s (decide (site < 32)) fun h => beat h site := rfl
theorem exec_vdrControlUe (stn : Nat) : exec (.vdrControlUe stn) s = inData s (isVdr stn) fun h => later h (.lost stn) := rfl
theorem exec_casControlUe (n : Nat) : exec (.casControlUe n) s = inData s (decide (n < 2)) fun h => later h (.lost (0x30 + n)) := rfl
theorem exec_sidebandTransferDone (site : Nat) (words : List Nat) : exec (.sidebandTransferDone site words) s =
    inData s (isLink site && words.all fun w => decide (w < 2 ^ 32)) fun h => sbWords h site words := rfl
theorem exec_signatureCheckDone (anchor : Nat) : exec (.signatureCheckDone anchor) s =
    inData s (isLink anchor) fun h => signatureDone h anchor := rfl
theorem exec_spokeTrainingDone (site : Nat) (locked : Bool) (failed : List (Nat × Nat × Nat)) : exec (.spokeTrainingDone site locked failed) s =
    inData s (isLink site && failed.all laneOk) fun h => spokeTrained h site locked failed := rfl
theorem exec_ucieTrainingDone (port : Nat) (able ok : Bool) (offer : Nat) (failed : List (Nat × Nat × Nat)) : exec (.ucieTrainingDone port able ok offer failed) s =
    inData s (decide (port < 2) && failed.all uciLaneOk) fun h => uciTrained h port able ok offer failed := rfl
theorem exec_regRead (fn off size : Nat) : exec (.regRead fn off size) s =
    actUnit (inBar0 fn off) s fun h => regReadTlp h fn off size := rfl
theorem exec_perstDeassert : exec .perstDeassert s = act s perstDeassert := rfl
theorem exec_pcieLinkUp (gts width : Nat) : exec (.pcieLinkUp gts width) s =
    actUnit ([2, 5, 8, 16, 32, 64].contains gts && [1, 2, 4, 8, 16].contains width) s fun h => pcieUp h gts width := rfl
theorem exec_plcaBeaconReturn : exec .plcaBeaconReturn s = act s beaconReturn := rfl
theorem exec_dadComplete (unique : Bool) : exec (.dadComplete unique) s = act s fun h => dadComplete h unique := rfl
theorem exec_dynamicAddressAssignment (addr : Nat) : exec (.dynamicAddressAssignment addr) s =
    actUnit (decide (addr < 128)) s fun h => if fieldOn h then setCtl h { h.mg.ctl with dynAddr := some addr } else h := rfl

end Sys2Proof.Machine
end

