-- ==== Sys2Proof/Tests/Slice0.lean ====
section
/-!
SUPPORT. Tests/Slice0.lean: for every statement with hypotheses, a theorem `hyp_<statement>` that shows a concrete state and operands
that meet them, clause by clause; small tests of single commands against the spec's numbers; ill-formed commands that the check refuses.
-/
namespace Sys2Proof.Tests
open Sys2Proof Sys2Proof.Machine

set_option Elab.async false

/-! ### Small states -/

/-- Both halves up, Ride, the link trained, the PF's memory space, ATS, PASID and bus mastering on. -/
def rideHub : Hub :=
  let h : Hub :=
    { ctlDown := false, dataReset := false, live := [0, 1], portCap := 2 ^ 33, pcie := { perst := false, up := true },
      pwr := { on := true }, mg := { slot := some 0, dad := 1 }, ctlStarts := 1, dataStarts := 1,
      funcs := [(0, { memEn := true, busMaster := true, atsEn := true, pasidEn := true, ariHier := true })] }
  setFld (setFld (setReg h .hubStatus 0 0x23) F.memStatusState 0 3) F.memStatusState 1 3

/-- The same hub with both halves down. -/
def downHub : Hub := { setReg rideHub .hubStatus 0 0 with ctlDown := true, dataReset := true }

/-- The state with this hub and no command waiting. -/
def idle (h : Hub) : State := { pending := [], hub := h }

/-! ### What the statements assume is met -/

theorem hyp_StepRunsFrontCommand : ({ pending := [.sramUe, .mbxNotePop], hub := rideHub } : State).pending = .sramUe :: [.mbxNotePop] := by decide

theorem hyp_IdleOnEmptyQueue : State.reset.pending = [] := by decide

/-- The outcome is a next state whose hub satisfies `p`, the queue being `q`. -/
def answers (o : Host.Outcome State Fault Refusal) (q : List Instr) (p : Hub → Bool) : Bool :=
  match o with
  | .next t => t.pending == q && p t.hub
  | _ => false

theorem hyp_StepKeepsInvariant :
    (State.reset.inv = true ∧ answers (step State.reset) [] (fun h => h == {}) = true) ∧
    (idle rideHub).inv = true ∧ answers (exec .sramUe (idle rideHub)) [] (fun h => h.ctlDown) = true := by and_intros <;> decide +kernel

theorem hyp_QueueUntouched : answers (exec .sramUe ((idle rideHub).withCommand .mbxNotePop)) [.mbxNotePop] (fun h => h.ctlDown) = true ∧
    answers (step ((idle rideHub).withCommand .sramUe)) [] (fun h => h.ctlDown) = true := by and_intros <;> decide +kernel

/-- A register access acts at once on `h`: what the statements about plain accesses ask for. -/
def opens (h : Hub) (fn off size : Nat) : Bool :=
  h.quiet && h.pwr.state == 0 && h.pcie.up && barOpen h fn off && inBar0 fn off && accessOk off size && halfUp h fn off

theorem hyp_RegWriteStores :
    (opens rideHub 0 0x3030008 8 = true ∧ placeAt rideHub 0 0x3030008 = .reg .trc 0 8 ∧ regAt .trc 8 = some (.trcMask, 0) ∧ plainReg .trcMask = true) ∧
    opens rideHub 0 0x1FFFC04 4 = true ∧ placeAt rideHub 0 0x1FFFC00 = .reg .ctx 8191 0x400 ∧ regAt .ctx 0x400 = some (.ctxQsel, 0) ∧
    plainReg .ctxQsel = true := by and_intros <;> decide +kernel

theorem hyp_CountersAndW1c :
    (E.hubFroze.cnt.lo + E.hubFroze.cnt.w ≤ 64 ∧ E.hubFroze.cnt.reg ≠ E.hubFroze.flag.reg) ∧
    (opens rideHub 0 0x28 8 = true ∧ placeAt rideHub 0 0x28 = .reg .hub 0 0x28 ∧ regAt .hub 0x28 = some (.hubEvtCnt, 0) ∧
      Reg.hubEvtCnt ∈ evtList.map (·.cnt.reg)) ∧
    opens rideHub 0 0x20 4 = true ∧ placeAt rideHub 0 0x20 = .reg .hub 0 0x20 ∧ regAt .hub 0x20 = some (.hubEvt, 0) ∧ Reg.hubEvt.info.w1c ≠ 0 ∧
    Reg.hubEvt.info.w1c &&& wordOf 0x10 0x20 4 ≠ 0 := by and_intros <;> decide +kernel

theorem hyp_HubGlobals : opens rideHub 0 0x38 8 = true ∧ opens rideHub 0 0x38 4 = true ∧
    odOn (setOdNum rideHub OD.drvResetOk 1 0) OD.drvResetOk = false := by and_intros <;> decide +kernel

theorem hyp_SyncDebugWindow :
    (rideHub.quiet = true ∧ memOpen rideHub 0 = true ∧ serving rideHub = true ∧ accessOk 0x2000000 8 = true ∧ debugOpen rideHub = false) ∧
    accessOk 0x21FFFFC 4 = true ∧ debugOpen (setOdNum rideHub OD.opdbg 1 1) = true := by and_intros <;> decide +kernel

theorem hyp_OddAccesses :
    (opens rideHub 0 0x8 3 = false ∧ barOpen rideHub 0 0x8 = true ∧ accessOk 0x8 3 = false ∧ accessOk 0x9 4 = false) ∧
    opens rideHub 0 0x3FFFFF8 8 = true ∧ placeAt rideHub 0 0x3FFFFF8 = .none := by and_intros <;> decide +kernel

theorem hyp_RegisterAccesses :
    (opens rideHub 0 0x20 4 = true ∧ isFlags rideHub 0 0x20 = true) ∧
    (barOpen downHub 0 0x10000 = true ∧ inBar0 0 0x10000 = true ∧ accessOk 0x10000 8 = true ∧ halfUp downHub 0 0x10000 = false) ∧
    rideHub.runs = true ∧ rideHub.ctlDown = false ∧ inBar0 0 0x400000 = true ∧ servedBy 0 0x400000 = 2 ∧ accessOk 0x400000 4 = true := by
  and_intros <;> decide +kernel

theorem hyp_StemCommands :
    (rideHub.alive = true ∧ ctlUp rideHub = true ∧ rideHub.dataReset = false ∧ rideHub.resyncFail < 2 ∧
      2 ≤ ({ rideHub with resyncFail := 2 } : Hub).resyncFail ∧ rideHub.runs = true ∧ frozen rideHub = false) ∧
    (frozen (setFld rideHub F.hubStatusFrozen 0 1) = true ∧ rideHub.frozenBy = 0) ∧
    (flag (setFld rideHub F.hubStatusRideThrough 0 1) F.hubStatusRideThrough = true ∧ dataUp rideHub = true) ∧
    (rideHub.ctlDown = false ∧ (entry? rideHub OD.rtcAlarm).isSome = true) ∧
    ({ rideHub with notices := [⟨1, 0, none, 0⟩] } : Hub).notices = ⟨1, 0, none, 0⟩ :: [] := by and_intros <;> decide +kernel

/-- A control half that is down beside a running data half. -/
def ctlGone : Hub := { setReg rideHub .hubStatus 0 0x26 with ctlDown := true }

theorem hyp_Restarts :
    (rideHub.dead = 0 ∧ odOn rideHub OD.drvResetOk = true ∧ flag rideHub F.hubCtlCtlRestart = false ∧
      ctlUp rideHub = true ∧ bringingUp rideHub = false) ∧
    odOn (setOdNum rideHub OD.drvResetOk 1 0) OD.drvResetOk = false ∧
    (ctlGone.alive = true ∧ ctlGone.ctlDown = true ∧ bringingUp ctlGone = false ∧
      ({ ctlGone with mg := { ctlGone.mg with resume := 1 } } : Hub).mg.resume = 1 ∧ ctlGone.mg.resume ≠ 1) ∧
    (firmwareStart 3 (lifeCycleBoot { ctlGone with ctlStarts := ctlGone.ctlStarts + 1 } false)).1.mg.slot.isSome = true := by
  and_intros <;> decide +kernel

theorem hyp_ControlRestartKeepsDataHalf : rideHub.quiet = true ∧ rideHub.dead = 0 ∧ rideHub.ctlDown = false ∧ bringingUp rideHub = false := by
  and_intros <;> decide +kernel

/-- A hub in phase `n` of a cold bring-up. -/
def bootHub (n : Nat) : Hub := setReg { ctlDown := false, dataReset := false, pwr := { on := true }, mg := { slot := some 0 } } .bootStatus 0 n

theorem hyp_BringUpCommands :
    (State.reset.hub.pwr.on = false ∧ State.reset.hub.pwr.state ≠ 3) ∧
    (∀ n ∈ List.range 8, bringingUp (bootHub n) = true ∧ (bootHub n).dead = 0 ∧ (bootHub n).warmRun = false ∧ (bootHub n).mg.warmReset = false ∧
      fld (bootHub n) F.bootStatusPhase = n) ∧
    fld (memPhase (phaseTime (bootHub 3) 3 7) [(7, 64, 50, 40)] [[]]) F.bootStatusPhase = 4 ∧
    (bringingUp { bootHub 7 with warmRun := true } = true ∧ ({ bootHub 2 with mg := { warmReset := true } } : Hub).pcie.waits = false) ∧
    inPhase2 (bootHub 2) = true := by and_intros <;> decide +kernel

theorem hyp_PortCapacity : (memPhase (bootHub 3) [(7, 64, 50, 40)] [[]]).live ≠ [] := by decide +kernel

theorem hyp_LinkCommands :
    (({ rideHub with pcie := { rideHub.pcie with perst := false } } : Hub).pcie.perst = false ∧ rideHub.pwr.on = true ∧ rideHub.dead = 0 ∧
      ({ rideHub with dead := 3 } : Hub).dead ≠ 0) ∧
    endpointUp rideHub = true ∧ rideHub.pwr.wakeLow = false ∧
    ([2, 5, 8, 16, 32, 64].contains 64 = true ∧ [1, 2, 4, 8, 16].contains 1 = true ∧
      ({ rideHub with pcie := { perst := false } } : Hub).pcie.up = false ∧ rideHub.alive = true) := by and_intros <;> decide +kernel

/-- The same hub with 63 VFs enabled, memory space on, context 8,191 its function 63's first slot. -/
def vfHub : Hub := setFunc (setFunc rideHub 0 { func rideHub 0 with vfEn := true, vfMse := true, numVfs := 63 }) 63
  { memEn := true, busMaster := true, slots := [(0, 8191)] }

theorem hyp_FunctionCommands :
    (endpointUp vfHub = true ∧ (ctlUp vfHub || dataUp vfHub) = true ∧ ctlUp vfHub = true ∧ funcOn vfHub 63 = true ∧ (func vfHub 63).flr = false ∧ (func vfHub 0).flr = false ∧
      (func vfHub 63).pm = 0 ∧ (func (setFunc vfHub 63 { pm := 3 }) 63).pm ≠ 0 ∧ (func vfHub 0).vfEn = true) ∧
    ((func rideHub 0).vfEn = false ∧ (func rideHub 0).ariHier = true) ∧
    (func (setFunc vfHub 63 { flr := true }) 63).flr = true ∧ (63 < vectors 63 ∧ 2047 < vectors 0 ∧ msixOpen vfHub 63 = true) ∧
    vfHub.pcie.up = true ∧ 4092 < 4096 ∧ 4092 % 4 = 0 := by and_intros <;> decide +kernel

theorem hyp_Bar4DropsTranslations :
    (rideHub.quiet = true ∧ endpointUp rideHub = true ∧ ctlUp rideHub = true ∧ (func rideHub 0).flr = false) ∧
    (func (setFunc rideHub 0 {}) 0).memEn = false ∧
    (⟨8191, 0x1000, true, 0xFFF0, false, true⟩ : TransReq) ∈ ({ rideHub with trReqs := [⟨8191, 0x1000, true, 0xFFF0, false, true⟩] } : Hub).trReqs ∧
    (⟨8191, 0x1000, true, 0xFFF0, false, true⟩ : TransReq).stale = true := by and_intros <;> decide +kernel

theorem hyp_HostAccesses :
    (rideHub.pcie.up = true ∧ rideHub.rides = true ∧ memOpen rideHub 0 = true ∧ 0 ≤ dpaLimit rideHub) ∧
    (0 + 4096 ≤ dpaLimit rideHub ∧ barBound rideHub 0 4096 = false ∧ dpaLimit rideHub < 2 ^ 39 - 1 + 1) ∧
    (endpointUp rideHub = true ∧ ctlUp rideHub = true ∧ (func rideHub 0).flr = false) ∧
    (([⟨7, 0, 1, 0, 64, false⟩] : List HostRead).find? fun r => r.tag == 7 && r.func == 0) = some ⟨7, 0, 1, 0, 64, false⟩ ∧
    (func rideHub 0).ctoDisable = false := by and_intros <;> decide +kernel

/-- The hub in power state `n`. -/
def inPower (n : Nat) : Hub := { rideHub with pwr := { rideHub.pwr with state := n } }

theorem hyp_PowerCommands :
    (rideHub.rides = true ∧ frozen rideHub = false ∧ rideHub.ops = [] ∧ rideHub.cmds = [] ∧ rideHub.ctlDown = false ∧
      odNum rideHub OD.expertHold ≠ 1) ∧
    (parkDue (setOdNum (inPower 1) OD.parkAfterMs 4 10) = true ∧ (refused (setOdNum (inPower 1) OD.parkAfterMs 4 10)).1 = false) ∧
    ((inPower 2).pwr.state = 2 ∧ (inPower 2).dead = 0 ∧ (inPower 3).pwr.state = 3) ∧
    (endpointUp rideHub = true ∧ (∀ c ∈ usedCtx rideHub, ctxState rideHub c < 2) ∧
      serving (setFld rideHub F.hubStatusReady 0 0) = false) ∧
    (odNum (setOdNum rideHub OD.rtcAlarm 8 5) OD.rtcAlarm ≠ 0 ∧ rideHub.pwr.rtc ≤ odNum (setOdNum rideHub OD.rtcAlarm 8 5) OD.rtcAlarm) ∧
    ({ rideHub with pwr := { avs := { busy := true, fails := 1 } } } : Hub).pwr.avs.fails < 2 := by and_intros <;> decide +kernel

theorem hyp_LimiterAndSupplies :
    ((List.replicate 64 (109 : Int)).length = 64 ∧ ctlUp rideHub = true ∧ rideHub.dead = 0 ∧ rideHub.alive = true) ∧
    (110 ≤ (List.replicate 64 (110 : Int)).getD 63 0 ∧ 63 ∈ ({ rideHub with pwr := { hot := [63] } } : Hub).pwr.hot) := by
  and_intros <;> decide +kernel

theorem hyp_RimCommands :
    (rideHub.runs = true ∧ rideHub.rides = true) ∧
    (secdedOutcome (flitBits 3) 0 false = .corrected ∧ secdedOutcome (flitBits 3) 95 false = .corrected ∧ secdedOutcome (flitBits 3) 3 true = .uncorrectable ∧ secdedOutcome (flitBits 3) 96 false = .uncorrectable) ∧
    odNum rideHub OD.rimRetryLimit ≤ tgetD ({ rideHub with rimTries := [(rimBank 63 3 3, 255)] } : Hub).rimTries (rimBank 63 3 3) 0 ∧
    badRoute rideHub 0xFFFFFF = true := by and_intros <;> decide +kernel

theorem hyp_CntClearFrame : rideHub.quiet = true ∧ rideHub.rides = true ∧ (Reg.rimPortErr ≠ .rimPortFlits ∨ rimBank 1 0 0 / 32 ≠ 0) := by
  and_intros <;> decide +kernel

theorem hyp_WheelCommands :
    (rideHub.runs = true ∧ rideHub.live.contains 1 = true ∧ ([0, 4].all fun c => decide (c < 5)) = true) ∧
    fld (setReg rideHub .regCfg 63 2) F.regCfgMode 63 = 2 ∧
    mapOk (ownerMap (presetSlots 0)) = true ∧ mapOk (mapOwners [0xFFFFFFFFFFFFFFFF, 0, 0, 0]) = false ∧
    regCfgOk (16 + 50 * 2 ^ 16 + 95 * 2 ^ 24) = true ∧ regCfgOk (16 + 50 * 2 ^ 16 + 54 * 2 ^ 24) = false ∧ ((List.range 64).any (regHouse rideHub)) = true := by and_intros <;> decide +kernel

/-- The same hub with context 5 in state `n`, assigned to the PF. -/
def ctxHub (n : Nat) : Hub := setFld (setReg rideHub .ctxFunc 5 64) F.ctxStatusState 5 n

theorem hyp_ContextCommands :
    (rideHub.rides = true ∧ ctxState rideHub 8191 = 0 ∧ 64 % 128 = 64 ∧ flag rideHub F.ctxFuncAssigned 8191 = false) ∧
    ctxState (ctxHub 1) 5 = 1 ∧ createResult (setFld (ctxHub 1) F.ctxCtlCreate 5 0) 5 = 0 ∧
    ((ctxHub 2).ctlDown = false ∧ ctxState (ctxHub 2) 5 = 2 ∧ ctxLive (ctxHub 3) 5 = true ∧ ctxState (ctxHub 4) 5 = 4) ∧
    (ctlGone.ctlDown = true ∧ ctlGone.held.contains (.ctxTeardown 5) = false) ∧
    2047 % 2 ^ 11 < vectors (ctxFunc (ctxHub 2) 5) ∧ ctlUp rideHub = true ∧
    (0 % 2 ^ 32 + 2 ^ 32 - fld rideHub F.faultHeadHead) % 2 ^ 32 ≤ (fld rideHub F.faultTailTail + 2 ^ 32 - fld rideHub F.faultHeadHead) % 2 ^ 32 ∧
    63 % 2 ^ 11 < vectors (ctxFunc rideHub (fld rideHub F.podChCfgCtx (fld rideHub F.podChSelCh))) := by and_intros <;> decide +kernel

theorem hyp_CreateResults :
    ((ctxHub 1).quiet = true ∧ (ctxHub 1).rides = true ∧ (ctxHub 1).ctlDown = false ∧ ctxState rideHub 8191 ≠ 1 ∧ ctxState (ctxHub 1) 5 = 1) ∧
    ((func (ctxHub 1) 0).atsEn && (func (ctxHub 1) 0).pasidEn && !(func (ctxHub 1) 0).flr && (func (ctxHub 1) 0).pm == 0) = true ∧
    (func (setFunc (ctxHub 1) 0 {}) 0).atsEn = false ∧
    (∃ d ∈ usedCtx (setFld (ctxHub 1) F.ctxStatusState 6 2), d ≠ 5 ∧ 2 ≤ ctxState (setFld (ctxHub 1) F.ctxStatusState 6 2) d ∧
      ctxFunc (setFld (ctxHub 1) F.ctxStatusState 6 2) d = ctxFunc (ctxHub 1) 5 ∧
      fld (setFld (ctxHub 1) F.ctxStatusState 6 2) F.ctxPasidPasid d = fld (ctxHub 1) F.ctxPasidPasid 5) ∧
    ¬ ∃ d ∈ usedCtx (ctxHub 1), d ≠ 5 ∧ 2 ≤ ctxState (ctxHub 1) d := by and_intros <;> decide +kernel

theorem hyp_RefusedContextActions :
    ∀ n ∈ [0, 1, 2, 4, 5, 6], (ctxHub n).quiet = true ∧ (ctxHub n).rides = true ∧ (ctxHub n).ctlDown = false ∧ ctxState (ctxHub n) 5 = n := by
  decide +kernel

/-- Context 5 ACTIVE with a translation requested for the page at 0, by the first dispatcher slice. -/
def transHub (write retried : Bool) : Hub := { ctxHub 2 with trReqs := [⟨5, 0, write, 0xFFF0, retried, false⟩] }

theorem hyp_TranslationCommands :
    ((transHub false false).runs = true ∧ trFind (transHub false false) 5 0 0xFFF0 false = some ⟨5, 0, false, 0xFFF0, false, false⟩ ∧
      trFind (transHub true true) 5 0 0xFFF0 true = some ⟨5, 0, true, 0xFFF0, true, false⟩) ∧
    (∃ e, resolve (transHub true false) 5 0 63 true true false 0 = .inl e ∧ (true || e.host) = true) ∧
    wasKilled (transHub true false) 5 = false ∧ (func (transHub true true) (ctxFunc (transHub true true) 5)).ctoDisable = false ∧ (rideHub.dead = 0 ∧ rideHub.dataReset = false) ∧
    (([⟨31, 63, []⟩] : List Inval).find? fun v => v.itag == 31 && v.func == 63) = some ⟨31, 63, []⟩ := by
  refine ⟨by decide +kernel, ⟨_, rfl, rfl⟩, by decide +kernel, by decide +kernel, by decide +kernel, by decide +kernel⟩

theorem hyp_FaultRing :
    ((fld rideHub F.faultTailTail + 2 ^ 32 - fld rideHub F.faultHeadHead) % 2 ^ 32 ≠ 4096 ∧
      (fld (setFld rideHub F.faultTailTail 0 4096) F.faultTailTail + 2 ^ 32 - fld rideHub F.faultHeadHead) % 2 ^ 32 = 4096) ∧
    rideHub.quiet = true ∧ ctlUp rideHub = true ∧
    (fld rideHub F.faultTailTail + 2 ^ 32 - fld rideHub F.faultHeadHead) % 2 ^ 32 < (1 % 2 ^ 32 + 2 ^ 32 - fld rideHub F.faultHeadHead) % 2 ^ 32 := by
  and_intros <;> decide +kernel


/-! ### Queues, commands and operations -/

/-- Context 5 ACTIVE with queue slot 63 ACTIVE, 16 slots at virtual address 0x10000, one command of 64 zero bytes (a NOP) behind SQ_TAIL, and
the page of that address translated to HBM. -/
def queueHub : Hub :=
  let h := setFld (setReg (setReg (ctxHub 2) .ctxQsqBase (qkey 5 63) 0x10000) .ctxQcfg (qkey 5 63) 0x404) F.ctxQstatState (qkey 5 63) 1
  { h with queues := [(qkey 5 63, { sqTail := 1 })], atc := [⟨5, 0x10000, 12, true, true, false, false, 0x100000⟩] }

/-- The same hub with the command's first byte 1 and byte 56 `k`. -/
def queueHubWith (op k : Nat) : Hub :=
  { queueHub with hbm := Memory.write (Memory.write [] 0x100000 (BitVec.ofNat 8 op)) 0x100038 (BitVec.ofNat 8 k) }

/-- The command itself, at step `n`. -/
def nopCmd (n : Nat) : Cmd := { ctx := 5, slot := 63, count := 0, raw := List.replicate 64 0, step := n, total := 1 }

/-- The queue with this command under way. -/
def cmdHub (x : Cmd) : Hub := { queueHub with cmds := [x] }

theorem hyp_CommandReads :
    (queueHub.runs = true ∧ issuing queueHub 5 = true ∧ qState queueHub 5 63 = 1 ∧ (qrec queueHub 5 63).nextRd ≠ (qrec queueHub 5 63).sqTail) ∧
    ((vaRead queueHub 5 (getReg queueHub .ctxQsqBase (qkey 5 63) + 0) 64 (dspWho queueHub 5 63)).1 = some (List.replicate 64 0, []) ∧
      numAt (List.replicate 64 0) 0 1 = 0 ∧ myTurn (cmdHub (nopCmd 2)) (nopCmd 2) = true) ∧
    (∀ k ∈ [1, 2, 3], (vaRead (queueHubWith 2 k) 5 0x10000 64 (dspWho queueHub 5 63)).1.any (fun r => isRange k r.1 && r.2.isEmpty) = true) ∧
    ((vaRead (queueHubWith 255 0) 5 0x10000 64 (dspWho queueHub 5 63)).1.any fun r =>
      numAt r.1 0 1 == 255 && !isRange 1 r.1 && !isRange 2 r.1 && !isRange 3 r.1) = true ∧
    ((cmdsOf (cmdHub (nopCmd 2)) 5 63).find? fun x => x.step == 2) = some (nopCmd 2) ∧
    ((cmdsOf (cmdHub { nopCmd 5 with rangeOp := some 7 }) 5 63).find? fun x => x.step == 5 && x.rangeOp.isSome) =
      some { nopCmd 5 with rangeOp := some 7 } ∧
    ((findOp (houseRange (cmdHub (nopCmd 5)) 7 []) 7).any fun o => !o.waitFor.isEmpty) = false ∧
    (((cmdsOf (cmdHub { nopCmd 9 with issued := 1 }) 5 63).find? fun x => x.issued != 0 && (x.step == 8 || x.step == 9)) =
      some { nopCmd 9 with issued := 1 } ∧ (nopCmd 9).rangeOp = none) ∧
    findCmd (cmdHub { nopCmd 12 with recAck := 2 }) 5 63 0 = some { nopCmd 12 with recAck := 2 } ∧
    ((cmdsOf (cmdHub { nopCmd 4 with tried := true }) 5 63).find? fun x => x.step == 4 && x.tried && !x.waiting) =
      some { nopCmd 4 with tried := true } := by and_intros <;> decide +kernel

/-- A tile operation that has computed and sent everything. -/
def doneOp : TileOp := { opid := 0x3FFFD, ctx := 5, slot := 63, count := 0, station := 7, computed := true }

theorem hyp_OperationCommands :
    (((cmdsOf (cmdHub (nopCmd 7)) 5 63).find? fun x => x.step == 7 && (decide (x.issued < x.total) || (x.opcode == 2 && x.rangeOp.isNone))) =
      some (nopCmd 7) ∧ issuing (cmdHub (nopCmd 7)) 5 = true ∧ qState (cmdHub (nopCmd 7)) 5 63 = 1 ∧ myTurn (cmdHub (nopCmd 7)) (nopCmd 7) = true ∧
      cqRoom (cmdHub (nopCmd 7)) 5 63 = true ∧ queueOps (cmdHub (nopCmd 7)) 5 63 < odNum (cmdHub (nopCmd 7)) OD.dspQueueOps ∧
      (nopCmd 7).opcode ≠ 2) ∧
    ({ nopCmd 7 with raw := 2 :: List.replicate 63 0 } : Cmd).opcode = 2 ∧
    ((cmdsOf (cmdHub { nopCmd 7 with raw := 2 :: List.replicate 63 0 }) 5 63).find? fun x =>
      x.step == 7 && (decide (x.issued < x.total) || (x.opcode == 2 && x.rangeOp.isNone))) = some { nopCmd 7 with raw := 2 :: List.replicate 63 0 } ∧
    (startRange (cmdHub { nopCmd 7 with raw := 2 :: List.replicate 63 0 }) { nopCmd 7 with raw := 2 :: List.replicate 63 0 } 0 [] []).isSome = true ∧
    (isLink 33 = true ∧ formOk 0 = true) ∧
    (findOp { queueHub with ops := [doneOp] } 0x3FFFD = some doneOp ∧ doneOp.range = 0 ∧ doneOp.doneSt = none ∧ (outFlits doneOp).length ≤ doneOp.outPos) := by
  and_intros <;> decide +kernel

theorem hyp_QueueCommands :
    (rideHub.rides = true ∧ qState rideHub 8191 (qsel rideHub 8191) = 0) ∧
    (let h := setReg (ctxHub 2) .ctxQcfg (qkey 5 0) (16 + 4 * 256 + 2047 * 2 ^ 16)
     qState h 5 0 = 0 ∧ fld h F.ctxQcfgSqLog2 (qkey 5 0) = 16 ∧ fld h F.ctxQcfgCqLog2 (qkey 5 0) = 4 ∧ fld h F.ctxQcfgVector (qkey 5 0) < vectors (ctxFunc h 5) ∧
      getReg h .ctxQsqBase (qkey 5 0) % 4096 = 0 ∧ getReg h .ctxQcqBase (qkey 5 0) % 4096 = 0 ∧ ctxLive h 5 = true ∧ (pickQueue h).isSome = true) ∧
    (let h := setFld (setFld (ctxHub 2) F.ctxQstatState (qkey 5 0) 2) F.ctxQposResumeAt (qkey 5 0) 0
     qState h 5 (qsel h 5) = 2 ∧ ctxLive h 5 = true ∧ (fld h F.ctxQposResumeAt (qkey 5 0) + 2 ^ 32 - qHead h 5 0) % 2 ^ 32 ≤
        ((qrec h 5 0).sqTail + 2 ^ 32 - qHead h 5 0) % 2 ^ 32) ∧
    (65535 + 1 ≤ 65536) ∧
    (let h := setFld rideHub F.ctxRouteWinCount 5 1
     fld h F.ctxRouteSelIndex 5 < fld h F.ctxRouteWinCount 5 ∧ routeResult (setReg h .ctxRouteSlot0 40 0xFFFF) 5 (slotImages (setReg h .ctxRouteSlot0 40 0xFFFF) 5) = 0 ∧
      (routeEntry h 5 (fld h F.ctxRouteSelIndex 5)).isSome = true) ∧
    (qState (setFld (ctxHub 2) F.ctxQstatState (qkey 5 63) 3) 5 63 = 3 ∧ drainedQueue (setFld (ctxHub 2) F.ctxQstatState (qkey 5 63) 3) 5 63 = true) ∧
    (memOpen queueHub 0 = true ∧ pageCtx queueHub 0 5 = some 5 ∧ pageCtx vfHub 63 0 = some 8191 ∧ wasKilled queueHub 5 = false ∧ ctxFunc queueHub 5 = 0) := by
  refine ⟨by decide +kernel, by decide +kernel, by decide +kernel, by decide, by decide +kernel, by decide +kernel, by decide +kernel⟩

theorem hyp_DoorbellCounts :
    (queueHub.quiet = true ∧ memOpen queueHub 0 = true ∧ queueHub.rides = true ∧ pageCtx queueHub 0 5 = some 5 ∧ qState queueHub 5 63 = 1) ∧
    ((1 % 2 ^ 32 + 2 ^ 32 - (qrec queueHub 5 63).sqTail) % 2 ^ 32 = 0 ∧
      2 ^ 31 ≤ ((2 ^ 31 + 1) % 2 ^ 32 + 2 ^ 32 - (qrec queueHub 5 63).sqTail) % 2 ^ 32 ∧
      0 < (16 % 2 ^ 32 + 2 ^ 32 - (qrec queueHub 5 63).sqTail) % 2 ^ 32 ∧
      (16 % 2 ^ 32 + 2 ^ 32 - qHead queueHub 5 63) % 2 ^ 32 ≤ 2 ^ fld queueHub F.ctxQcfgSqLog2 (qkey 5 63)) ∧
    qState queueHub 5 0 = 0 ∧ (wasKilled queueHub 5 = false ∧ ctxFunc queueHub 5 = 0) ∧
    (wasKilled (setFld queueHub F.ctxStatusState 5 5) 5 = true ∧ ctxFunc (setReg queueHub .ctxFunc 5 (64 + 63)) 5 ≠ 0) := by
  and_intros <;> decide +kernel

theorem hyp_QueueRefusals :
    (queueHub.quiet = true ∧ queueHub.rides = true ∧ qState (setFld queueHub F.ctxQselSlot 5 63) 5 (qsel (setFld queueHub F.ctxQselSlot 5 63) 5) ≠ 0) ∧
    (fld queueHub F.ctxQcfgSqLog2 (qkey 5 0) < 4 ∧ 16 < fld (setFld queueHub F.ctxQcfgCqLog2 (qkey 5 0) 17) F.ctxQcfgCqLog2 (qkey 5 0) ∧
      ctxLive queueHub 8191 = false ∧ getReg (setReg queueHub .ctxQcqBase (qkey 5 0) 0xFFF) .ctxQcqBase (qkey 5 0) % 4096 ≠ 0) ∧
    65536 < 65535 + 2 ∧ fld queueHub F.ctxRouteWinCount 5 ≤ fld queueHub F.ctxRouteSelIndex 5 := by and_intros <;> decide +kernel

theorem hyp_RouteReadsBack :
    let h := setReg (setFld rideHub F.ctxRouteWinCount 5 1) .ctxRouteSlot0 40 0xFFFF
    h.quiet = true ∧ h.rides = true ∧ fld h F.ctxRouteSelIndex 5 < fld h F.ctxRouteWinCount 5 ∧ routeResult h 5 (slotImages h 5) = 0 := by
  decide +kernel


/-! ### Stations, cassettes, decoders, adders -/

/-- A command with one slot at station `stn` and function `func`, cut by single rows, whose input A is a tile of one 64-byte row. -/
def stnCmd (stn func : Nat) : Cmd :=
  { nopCmd 7 with raw := 1 :: List.replicate 63 0, issued := 1, route := [stn + func * 2 ^ 16 + 2 * 2 ^ 33 + 2 ^ 38, 0xFFFF],
                  in0 := some ⟨0x10000, 2, 1, 1, 2, 64, 64, 0, 0, 0⟩ }

/-- Its operation, with its input at the station. -/
def stnOp (stn func : Nat) : TileOp :=
  let o : TileOp := { opid := 1, ctx := 5, slot := 63, count := 0, station := stn, func := func, rows := 1 }
  { o with posA := (opFlits (stnCmd stn func) o).length }

def stnHub (stn func : Nat) : Hub := { queueHub with cmds := [stnCmd stn func], ops := [stnOp stn func] }

/-- The operation stands ready at its station. -/
def stands (stn func : Nat) : Bool :=
  (stnHub stn func).runs && findOp (stnHub stn func) 1 == some (stnOp stn func) &&
    opCmd (stnHub stn func) (stnOp stn func) == some (stnCmd stn func) &&
    runsAt (stnHub stn func) (stnKind stn) (stnCmd stn func) (stnOp stn func)

theorem hyp_StationsCompute :
    (stands 7 0 = true ∧ (opFlits (stnCmd 7 0) (stnOp 7 0)).length = 1 ∧ houseEnd 7 = some (1, 7)) ∧
    ((vecOps.all fun op => stands 0x17 op && vecOp op == op) = true ∧ houseEnd 0x17 = some (2, 7)) ∧
    ([1, 2, 3, 4, 5].all fun op => stands 0x23 op && drlOp op == op) = true ∧ houseEnd 0x23 = some (3, 3) := by
  and_intros <;> decide +kernel

/-- A pool bound to context 5 at cassette 1, pool 31: one layer and head of 64 elements, one frame, two list blocks, one slot. -/
def thePool : Pool := { ctx := 5, base := 2 ^ 21, page := 16, layers := 1, heads := 1, dim := 64, fmt := 2, frames := 1, lists := 2, slot0 := 511, slots := 1 }

/-- A packed page that is stored raw: one row of 32 codes. -/
def rawPage : List Byte :=
  let head (c : List Byte) : List Byte := [0x4B, 0x50, 1, 6, 32, 0, 0, 0, 1, 0, 1, 0, 8, 0, 0, 0, 0, 1, 0, 0, 128, 0, 0, 0] ++ c ++ List.replicate 100 0
  head (leBytes 4 (kpwCrc (head [0, 0, 0, 0])))

/-- The queue hub with the page in memory and an operation that takes its row. -/
def pageHub : Hub :=
  let x := { stnCmd 7 0 with kpw0 := some (6, 32, 1, 1) }
  { queueHub with hbm := Memory.writeN [] 0x100000 rawPage, cmds := [x], ops := [{ stnOp 7 0 with posA := 0 }] }

/-- The registers of a pool to be bound. -/
def bindHub : Hub :=
  let k := 32 + 31
  let h := setFld (ctxHub 2) F.casPoolSelPool 1 31
  let h := setFld (setFld (setFld (setFld h F.casPoolGeomLayers k 1) F.casPoolGeomHeads k 1) F.casPoolGeomHeadDim k 64) F.casPoolGeomFormat k 2
  let h := setFld (setFld (setFld h F.casPoolSizeFrames k 1) F.casPoolSizeLists k 2) F.casPoolOwnContext k 5
  setFld (setFld h F.casPoolOwnSlotBase k 511) F.casPoolOwnSlotCount k 1

theorem hyp_CassettesDecodersAdders :
    (∀ op ∈ [1, 2, 3, 4, 5, 6, 7, 8], stands 0x31 (op + 31 * 16) = true ∧ houseEnd 0x31 = some (4, 1) ∧
      slotHeld (stnHub 0x31 (op + 31 * 16)) (stnCmd 0x31 (op + 31 * 16)) (stnOp 0x31 (op + 31 * 16)) = false ∧
      1 * 32 + bitsOf (stnOp 0x31 (op + 31 * 16)).func 8 4 = 63 ∧ (stnOp 0x31 (op + 31 * 16)).func % 16 = op ∧
      poolOf { stnHub 0x31 (op + 31 * 16) with pools := [(63, thePool)] } 63 = some thePool ∧
      fld (stnHub 0x31 (op + 31 * 16)) F.casPoolStatState 63 ≠ 2 ∧
      (stageOut (stnCmd 0x31 (op + 31 * 16)) 0).rows = 0) ∧
    (pageRows { stnCmd 7 0 with kpw0 := some (6, 32, 1, 1) } { stnOp 7 0 with posA := 0 } 0 0x10000 = [(0, 0)] ∧
      (vaRead pageHub 5 0x10000 64 7).1 = some (sliceB rawPage 0 64, []) ∧ kpwHeader (sliceB rawPage 0 64) = some ⟨6, 32, 1, true, 8, 256, 128⟩ ∧
      (atcFind (vaRead pageHub 5 0x10000 64 7).2 5 0x10000 false).isSome = true ∧
      (vaRead (vaRead pageHub 5 0x10000 64 7).2 5 0x10000 128 7).1 = some (sliceB rawPage 0 128, []) ∧
      ((kpwDecode (sliceB (sliceB rawPage 0 128) 0 65536)).isRight = true)) ∧
    (nextRed { rideHub with redQ := [⟨64, 2, 0, 0, [], false, .nobody, 0⟩] } 2 = some ⟨64, 2, 0, 0, [], false, .nobody, 0⟩ ∧
      lineBusy rideHub 1 = false ∧ dirFind rideHub 1 = none) ∧
    (bindHub.rides = true ∧ 1 * 32 + fld bindHub F.casPoolSelPool 1 = 63 ∧ tget bindHub.pools 63 = none ∧
      fld bindHub F.casPoolGeomPageLog 63 ≤ 4 ∧ 2 ≤ (poolRegs bindHub 63).fmt ∧ (poolRegs bindHub 63).fmt ≤ 5 ∧ (poolRegs bindHub 63).legal = true ∧
      ctxState bindHub (poolRegs bindHub 63).ctx = 2) ∧
    (thePool.next = none ∧ openSlots { bindHub with pools := [(63, thePool)] } 63 thePool = []) := by and_intros <;> decide +kernel

/-- Every house station LOST. -/
def lostHub : Hub := setFld (setFld (setFld (setFld rideHub F.crankStatusState 7 3) F.vecStatusState 7 3) F.drlStatusState 3 3) F.casStatusState 1 3

theorem hyp_StationFaults :
    (stands 7 0 = true ∧ (stnOp 7 0).computed = false) ∧
    (isStore 0x31 = true ∧ stnState rideHub 0x31 ≠ 0 ∧ (stnOp 7 0).station = 7 ∧
      findOp (stnEvt (stnHub 7 0) 7 E.crankEccUncorr E.vecEccUncorr E.drlEccUncorr E.casEccUncorr) 1 = some (stnOp 7 0) ∧
      outBad (spoilBuf (stnOp 7 0) 0 0 false 1) = outBad (stnOp 7 0)) ∧
    (stalled (stnHub 7 0) 7 = true ∧ stalled (stnHub 0x23 1) 0x23 = true ∧ isVdr 0x23 = true ∧ stalled (stnHub 0x31 1) (0x30 + 1) = true) ∧
    (lostHub.rides = true ∧ stnState lostHub 7 = 3 ∧ stnState lostHub (0x10 + 7) = 3 ∧ stnState lostHub (0x20 + 3) = 3 ∧ stnState lostHub (0x30 + 1) = 3) ∧
    (hasTc 0x23 = true ∧ rideHub.tcHold.contains 0x23 = false ∧ ({ rideHub with tcHold := [0x23] } : Hub).tcHold.contains 0x23 = true ∧
      (rideHub.ops.any fun o => o.station == 0x23 || o.waitFor.contains 0x23) = false) ∧
    (flag (setFld lostHub F.crankCtlSelftest 7 1) F.crankCtlSelftest 7 = true ∧ flag (setFld lostHub F.vecCtlSelftest 7 1) F.vecCtlSelftest 7 = true ∧
      flag (setFld lostHub F.casCtlSelftest 1 1) F.casCtlSelftest 1 = true ∧
      stnState (setFld (setFld lostHub F.crankCtlSelftest 7 0) F.crankStatusBist 7 1) 7 = 3) := by and_intros <;> decide +kernel

theorem hyp_IntegerSums : (crankFunc (12 + 13 * 256)).fmt = 12 ∨ ({ crankFunc 0 with fmt := 13 } : CrankFunc).fmt = 13 := by decide +kernel

/-- Stack 7 as `x`, its port 63 serving. -/
def stackHub (x : Stack) : Hub := setFld (setStack rideHub 7 x) F.memStatusState 63 3

theorem hyp_StackCommands :
    ((stackHub {}).runs = true ∧ (stackHub {}).variant.portOn 63 = true ∧ (stack (stackHub {}) 7).holding = false ∧
      odNum (stackHub {}) OD.thermHoldC < 114) ∧
    ((stack (stackHub { inWindow := true }) 7).inWindow = true ∧ (stack (stackHub { holding := true, lastTemp := 114 }) 7).holding = true ∧
      odNum (stackHub { holding := true, lastTemp := 114 }) OD.thermHoldC < (stack (stackHub { holding := true, lastTemp := 114 }) 7).lastTemp ∧
      (stack (stackHub { holding := true, lastTemp := 101 }) 7).lastTemp ≤ odNum (stackHub {}) OD.thermHoldC ∧ 101 < 102) ∧
    (stackStalled (stackHub { stepPend := true }) 7 = false ∧ (stack (stackHub { stepping := true }) 7).stepping = true) ∧
    (rideHub.dead = 0 ∧ rideHub.variant.stackOn 7 = true) ∧
    ((stackHub {}).rides = true ∧ memState (stackHub {}) 63 = 3 ∧ (port (stackHub {}) 63).scrubLeft = 0 ∧ (port (stackHub {}) 63).recent = false) ∧
    (odNum (stackHub {}) OD.trueMargin ≤ 63 ∧ 0 < odNum (stackHub {}) OD.trueMargin ∧ (port (stackHub {}) 63).wanted = false) ∧
    memState (setFld (stackHub {}) F.memStatusState 63 4) 63 = 4 := by and_intros <;> decide +kernel

/-- The hub with region 63 in state `n` over [2^21, 2^22). -/
def regionHub (n : Nat) : Hub := setRegion rideHub 63 { state := n, base := 2 ^ 21, size := 2 ^ 21 }

theorem hyp_RegionStates :
    ((regionHub 1).quiet = true ∧ dataUp (regionHub 1) = true ∧ ctlUp (regionHub 1) = true ∧ (regionHub 1).dead = 0) ∧
    (∀ n ∈ [0, 1, 2, 3], (region (regionHub n) 63).state = n ∧ (region (regionHub n) 63).bound = false ∧ (regionHub n).bindQ.contains 63 = false) ∧
    (let h := setOdNum (setOdNum (regionHub 2) (OD.regionBase 0) 8 (2 ^ 22)) (OD.regionSize 0) 8 (2 ^ 21)
     (region h 0).state = 0 ∧ odNum h (OD.regionBase 0) % 2 ^ 21 = 0 ∧ odNum h (OD.regionSize 0) % 2 ^ 21 = 0 ∧ odNum h (OD.regionSize 0) ≠ 0 ∧
      odNum h (OD.regionBase 0) + odNum h (OD.regionSize 0) ≤ usable h ∧ odOn h (OD.regionMirror 0) = false ∧
      (∀ e ∈ h.regions, e.2.state ≠ 0 → odNum h (OD.regionBase 0) + odNum h (OD.regionSize 0) ≤ e.2.base ∨ e.2.base + e.2.size ≤ odNum h (OD.regionBase 0)) ∧
      ¬ ∀ e ∈ h.regions, e.2.state ≠ 0 → 2 ^ 21 + 2 ^ 21 ≤ e.2.base ∨ e.2.base + e.2.size ≤ 2 ^ 21) := by
  refine ⟨by decide +kernel, by decide +kernel, by decide +kernel⟩


/-! ### Guests, agents, semaphores -/

/-- A guest ADMITTED on site 31 with every class and limit, one station, its agents, and lease slot 15 ACTIVE for context 5, whose window 7
covers the first 4 GiB; the page at 0x10000 is translated to HBM. -/
def guestHub : Hub :=
  let h := setFld (setFld (setFld queueHub F.siteStatusState 31 3) F.siteStatusAnchor 31 31) F.spkStatusState 31 3
  let h := setFld h F.spkStatusWidth 31 0
  let h := setReg (setFld h F.siteClassesClasses 31 63) .siteLimits 31 (2 ^ 64 - 1)
  let h := setFld (setFld h F.siteLeaseCtx (31 * 16 + 15) 5) F.siteLeaseState (31 * 16 + 15) 1
  let h := setFld (setReg h .siteWinBase ((31 * 16 + 15) * 8 + 7) 3) F.siteWinSizePages ((31 * 16 + 15) * 8 + 7) (2 ^ 20)
  { h with guests := [(31, { covered := [31], agentIds := [124, 125, 126, 127],
                             stations := [⟨stnNum 31 63, 31, true, true, 1, 1, 0, 0, 0⟩] })] }

/-- A message is taken (`Takes`), as a test. -/
def taken (h : Hub) (site cls n : Nat) (q : Ask) : Bool :=
  siteState h (anchorOf h site) == 3 && linkAlive h site && (guest h (anchorOf h site)).part == none && !q.seven &&
    (takeCells h site cls n).any fun k => permit k site q == none

/-- A transaction on line 1 that agent `a` still owes `t`'s answers to. -/
def txnHub (t : CohTxn) (st : Nat) : Hub :=
  { guestHub with cohTxns := [t], agentLines := [(151 * 2 ^ 33 + 1, ⟨st, 5, 1⟩)],
                  dir := [(16, ⟨1, 2, false, [some 151, none, none, none], 0, 5, 1⟩)] }

/-- Agent 124's RD_SHARED of line 1 at home 0, waiting for agent 151. -/
def theReq : CohReq := { op := 1, agent := 124, txn := 1023, ctx := 5, vline := 1, line := 1 }
def snoopTxn : CohTxn := { stxn := 1023, req := theReq, waits := [151] }

theorem hyp_CoherenceCommands :
    (guestHub.runs = true ∧ cohOk 127 1023 8191 (2 ^ 51 - 1) 0 = true ∧
      (∀ op ∈ [1, 2, 3, 4, 5, 6, 7], taken guestHub 31 (if op == 6 || op == 7 then 1 else 0) 2
          (cohAsk guestHub 31 { theReq with op := op, agent := 127, vline := 0x400 }) = true ∧
        (lookup guestHub 5 (64 * 0x400) (op == 2 || op == 4 || op == 5 || op == 7) (agentWho 127)).1.any (fun e => !e.host) = true)) ∧
    (∀ st ∈ [1, 2, 3], (txnHub snoopTxn st).runs = true ∧ snoopOf (txnHub snoopTxn st) 0 1023 151 = some snoopTxn ∧ snoopTxn.share = false ∧
      snoopOf (txnHub { snoopTxn with share := true } st) 0 1023 151 = some { snoopTxn with share := true } ∧
      ((tget (txnHub snoopTxn st).agentLines (151 * 2 ^ 33 + 1)).map (·.st)).getD 0 = st) ∧
    (agentLink 151 = none ∧ dirFind (txnHub snoopTxn 3) 1 = some (16, ⟨1, 2, false, [some 151, none, none, none], 0, 5, 1⟩) ∧
      (⟨1, 2, false, [some 151, none, none, none], 0, 5, 1⟩ : DirEntry).listed.contains 151 = true) ∧
    (cmpDue (txnHub { snoopTxn with req := { theReq with agent := 151 }, ack := some (151, 2) } 1) 151 1023 =
        some ({ snoopTxn with req := { theReq with agent := 151 }, ack := some (151, 2) }, 2) ∧
      ackDue (txnHub { snoopTxn with req := { theReq with agent := 151 }, waits := [], ack := some (151, 2) } 1) 151 0 1023 =
        some { snoopTxn with req := { theReq with agent := 151 }, waits := [], ack := some (151, 2) }) ∧
    (timeoutDue (txnHub snoopTxn 3) 0 1023 151 = some snoopTxn ∧ agentAnchor (txnHub snoopTxn 3) 151 = none ∧ agentAnchor guestHub 127 = some 31 ∧
      agentStation 149 = some 0x31) ∧
    (({ guestHub with sweeps := [(152, 0, [])] } : Hub).sweeps.contains (151 + 1, 0, []) = true ∧
      ({ guestHub with sweeps := [(0, 8191, [127])] } : Hub).sweeps.contains (0, 8191, [127]) = true ∧
      (sweepLeft guestHub 8191 [127]).isEmpty = true) ∧
    (debugOpen (setOdNum guestHub OD.opdbg 1 1) = true ∧ guestHub.rides = true ∧ guestHub.live.contains 1 = true) := by
  and_intros <;> decide +kernel

theorem hyp_AgentCopies :
    (txnHub snoopTxn 3).quiet = true ∧ (txnHub snoopTxn 3).runs = true ∧ snoopOf (txnHub snoopTxn 3) 0 1023 151 = some snoopTxn ∧
    tget (txnHub { snoopTxn with share := true } 2).agentLines (151 * 2 ^ 33 + 1) = some ⟨2, 5, 1⟩ ∧
    cmpDue (txnHub { snoopTxn with req := { theReq with agent := 151 }, ack := some (151, 2) } 1) 151 1023 =
      some ({ snoopTxn with req := { theReq with agent := 151 }, ack := some (151, 2) }, 2) := by and_intros <;> decide +kernel

/-- Semaphore 131,071 of context 5, selected, and barrier 511 selected with semaphores 0 and 131,071. -/
def semHub (m : Sem) : Hub :=
  let h := setFld (setFld guestHub F.syncSemSelSem 0 131071) F.syncSemSelCtx 0 5
  let h := setFld (setFld h F.syncBarSelBarrier 0 511) F.syncBarCfgReleaseSem 511 131071
  setSem (setFld (setFld h F.syncBarCfgCtx 511 5) F.syncBarMask0Mask (511 * 4 + 3) (2 ^ 63)) 131071 m

theorem hyp_SyncCommands :
    (taken guestHub 31 0 2 (askSem 5) = true ∧ guestWaits guestHub 31 < fld guestHub F.siteLimitsSemMax 31 ∧
      taken guestHub 31 0 2 { askSem 5 with vas := [(2 ^ 20 - 1) * 4096], rd := true } = true ∧ (2 : Nat) ^ 27 ≤ 2 ^ 27 ∧
      (pendingWrites guestHub 31 5).isEmpty = true ∧
      (pendingWrites { guestHub with strs := [⟨31, stnNum 31 63, 0, 5, true, 0, 1, none, 0, false, false⟩] } 31 5).isEmpty = false) ∧
    (([⟨31, 0, 5, 0, 1, false, stnNum 31 63, []⟩] : List HeldPost).find? fun p => p.anchor == 31 && p.stn == stnNum 31 63 && p.txn == 0).isSome = true ∧
    (fld (semHub {}) F.syncSemSelSem = 131071 ∧ (sem (semHub {}) 131071).alloc = false ∧ ctxLive (semHub {}) (fld (semHub {}) F.syncSemSelCtx) = true) ∧
    (sem (semHub { owner := 5, alloc := true }) 131071).owner = fld (semHub {}) F.syncSemSelCtx ∧
    (semWaiters (semHub { owner := 5, alloc := true }) 131071 = [] ∧ (sem (semHub { owner := 5, alloc := true }) 131071).barrier = false) ∧
    (flag (setFld (semHub { owner := 5, alloc := true }) F.syncSemGrantWait 0 1) F.syncSemGrantWait = true ∧
      ctxLive (setFld (semHub {}) F.syncSemGrantGrantee 0 5) (fld (setFld (semHub {}) F.syncSemGrantGrantee 0 5) F.syncSemGrantGrantee) = true) ∧
    (0 = fld (semHub {}) F.syncBarCfgArriveSem 511 ∧ 131071 = fld (semHub {}) F.syncBarCfgReleaseSem 511 ∧
      (tgetD (semHub {}).barriers 511 {}).state = 0 ∧ barMask (semHub {}) 511 = [255] ∧ fld (semHub {}) F.syncBarCfgCtx 511 = 5 ∧
      (tget ({ semHub {} with parts := [(5 * 256 + 255, (1, 0))] } : Hub).parts (5 * 256 + 255)).isSome = true) ∧
    (tget ({ semHub {} with barriers := [(511, { state := 1 })] } : Hub).barriers 511).isSome = true ∧
    (partIdOk 0 65535 = true ∧ partIdOk 1 63 = true ∧ partIdOk 2 0x97F = true ∧ partIdOk 3 4095 = true) ∧
    (600000 < 2 ^ 20 ∧ 63 < vectors (ctxFunc (semHub {}) (fld (semHub {}) F.syncCtxSelCtx))) ∧
    (debugOpen (setOdNum (semHub { owner := 5, alloc := true }) OD.opdbg 1 1) = true) ∧
    (frozen guestHub = false ∧ (([⟨0, 131071, 1, 5, .pod 0, none⟩] : List Wait).find? fun w => w.index == 0 && w.ctx == 5).isSome = true ∧
      odOn guestHub OD.syncWdogKill = true ∧ odOn (setOdNum guestHub OD.syncWdogKill 1 0) OD.syncWdogKill = false) := by
  and_intros <;> decide +kernel

theorem hyp_SemaphoreCounts :
    ((semHub {}).quiet = true ∧ (semHub {}).rides = true ∧ (sem (semHub {}) (fld (semHub {}) F.syncSemSelSem)).alloc = false) ∧
    ((sem (semHub { owner := 6, alloc := true }) 131071).alloc = true ∧ (sem (semHub { owner := 6, alloc := true }) 131071).owner ≠ 5 ∧
      ctxLive (semHub { owner := 6, alloc := true }) 5 = true) ∧
    ((setFld (semHub {}) F.syncSemSelCtx 0 8191).quiet = true ∧ (setFld (semHub {}) F.syncSemSelCtx 0 8191).rides = true ∧
      ctxLive (setFld (semHub {}) F.syncSemSelCtx 0 8191) 8191 = false) ∧
    (sem (semHub { owner := 5, alloc := true }) 131071).owner = 5 ∧
    (debugOpen (setOdNum (semHub { owner := 5, alloc := true }) OD.opdbg 1 1) = true ∧
      semWaiters (setOdNum (semHub { owner := 5, alloc := true }) OD.opdbg 1 1) 131071 = []) := by and_intros <;> decide +kernel

/-- The link of site 31 as `l`, and that of UCIe port 1, both in service. -/
def linkHub (l : Link) : Hub :=
  let h := setFld (setFld guestHub F.siteStatusState 33 3) F.uciStatusState 1 2
  setLink (setLink h 31 l) 33 l

theorem hyp_GuestLinkCommands :
    (strOk 31 63 1023 8191 (2 ^ 57 - 256) 255 0 = true ∧ taken guestHub 31 0 2 (askStr guestHub 31 63 5 (2 ^ 32 - 256) 255 true) = true ∧
      taken guestHub 31 0 2 (askStr guestHub 31 63 5 0 1 false) = true) ∧
    ((([⟨31, stnNum 31 63, 9, 5, true, 0, 255, none, 0, false, false⟩] : List StrReq).find? fun r =>
        r.stn == stnNum 31 63 && r.txn == 9 && r.write && r.data.isNone).isSome = true ∧
      (guest guestHub 31).dropW.contains (stnNum 31 63, 9) = false ∧ taken guestHub 31 5 (datLen (maskLen 255)) { cls := some 1, stn := some 63 } = true) ∧
    (linkUp (linkHub {}) 31 = true ∧ (link (linkHub {}) 31).truing = none ∧ (activeGroups (linkHub {}) 31).contains 31 = true ∧
      inService (linkHub { truing := some 31 }) 31 = true ∧ (link (linkHub { truing := some 31 }) 31).truing = some 31 ∧ (linkHub {}).rides = true ∧
      flag (linkHub {}) F.spkCtlTrueNow 31 = false ∧ siteState (linkHub {}) 31 = 3 ∧ (link (linkHub { stall := 1 }) 31).stall = 1 ∧
      (link (linkHub { stall := 2 }) 31).stall = 2 ∧ laneOk (1, 31, 131) = true) ∧
    (linkAlive (linkHub {}) 33 = true ∧ inService (linkHub {}) 33 = true ∧ guestRuns (linkHub {}) 31 = true ∧ guestRuns (linkHub {}) 33 = true ∧
      (65535 < 65536 ∧ [0, 0, 0, 0, 0, 65535].length ≤ 6)) ∧
    (uciLaneOk (1, 3, 67) = true ∧ (uciSettle (linkHub { stall := 2 }) 1).isSome = true) := by and_intros <;> decide +kernel

/-- The guest at site 31 in admission step `n`. -/
def admitHub (n : Nat) (g : Guest) : Hub :=
  setGuest (setFld guestHub F.siteStatusState 31 2) 31 { g with step := n, covered := [31] }

theorem hyp_AdmissionCommands :
    (isLink 33 = true ∧ linkOn rideHub 33 = true ∧ linkOn rideHub 31 = true ∧ rideHub.dead = 0 ∧
      siteState (setFld rideHub F.siteStatusState 31 1) 31 ≠ 3 ∧ siteState (setFld rideHub F.siteStatusState 31 1) 31 ≠ 0 ∧ rideHub.dataReset = false) ∧
    ((guest (admitHub 2 { sbXfer := some (0, 0, 16) }) 31).sbXfer = some (0, 0, 16) ∧ (guest (admitHub 2 { sbTries := 2 }) 31).sbTries < 3 ∧
      3 ≤ (guest (admitHub 2 { sbTries := 3 }) 31).sbTries ∧ (2 ^ 32 - 1 : Nat) < 2 ^ 32) ∧
    (∀ n ∈ [1, 4, 6, 7, 10], (admitHub n {}).runs = true ∧ (guest (admitHub n {}) 31).step = n ∧ anchorOf (admitHub n {}) 31 = 31) ∧
    ((guest (admitHub 6 {}) 31).covered.contains 31 = true ∧ (guest (admitHub 6 {}) 31).trained.contains 31 = false ∧
      (chooseWidth (failLanes (admitHub 6 {}) 31 []) 31 true).isSome = true ∧ (guest (admitHub 7 {}) 31).gated.contains 31 = false ∧
      (guest (admitHub 7 {}) 31).clearing.contains 31 = false ∧ (guest (admitHub 7 { clearing := [31] }) 31).clearing.contains 31 = true) ∧
    (∀ cmd ∈ [1, 2, 3, 4], (guest (admitHub 9 { sbCur := some (cmd, 5, 15) }) 31).sbCur = some (cmd, 5, 15)) ∧
    (guest (setGuest rideHub 33 { step := 6 }) 33).step = 6 ∧
    (siteState (admitHub 7 {}) 31 = 2 ∧ siteState guestHub 31 = 3 ∧ 0 ≤ numAt (guest guestHub 31).desc 32 1 * 10) := by
  and_intros <;> decide +kernel

theorem hyp_LeaseCommands :
    (let h := setFld (setFld guestHub F.siteLeaseState (31 * 16 + 15) 0) F.siteLeaseSelSlot 31 15
     h.rides = true ∧ siteState h 31 = 3 ∧ anchorOf h 31 = 31 ∧ slotUsed h 31 15 = false ∧ ((List.range 16).filter fun t => t != 15 && slotUsed h 31 t) = [] ∧
      ctxState h (leaseCtx h 31 15) = 2 ∧ winBad h 31 15 = false) ∧
    leaseState (leaseRes (setFld guestHub F.siteLeaseSelSlot 31 15) 31 0) 31 15 = 1 ∧
    (siteState guestHub 31 = 3 ∧ siteState (setFld guestHub F.siteStatusState 31 4) 31 = 4 ∧ guestHub.ctlDown = false) ∧
    (let h := setLeaseRec (setFld guestHub F.siteLeaseState (31 * 16 + 15) 2) 31 15 { step := 2 }
     leaseState h 31 15 = 2 ∧ (leaseRec h 31 15).step = 2 ∧ residentOps h 31 (leaseCtx h 31 15) = false) ∧
    (let h := setOdNum (setFld guestHub F.siteStatusState 31 4) (OD.siteAutoReadmit 31) 1 1
     siteState h 31 = 4 ∧ ((guest h 31).agentIds.all fun i => agentState h i == 0) = true ∧ (guest h 31).autoTries < odNum h (OD.siteAutoReadmit 31)) := by
  refine ⟨by decide +kernel, by decide +kernel, by decide +kernel, by decide +kernel, by decide +kernel⟩

theorem hyp_ViolationsCount :
    guestHub.quiet = true ∧ guestHub.runs = true ∧ inService guestHub 31 = true ∧ (guest guestHub 31).winCount + 1 ≤ odNum guestHub (OD.siteVioLimit 31) ∧
    odNum guestHub (OD.siteVioLimit 31) < (guest (setGuest guestHub 31 { winCount := 65535 }) 31).winCount + 1 := by and_intros <;> decide +kernel


/-! ### The pod, the dictionary, management -/

/-- Both ports up, hub 1 of the pod in role `r`, channel 0 in state `st` for context 5 and job 1, its ring of 16 entries at 0x10000 fed by
semaphore 0. -/
def podHub (r st : Nat) (c : PodCh) : Hub :=
  let h := setFld (setFld (setFld queueHub F.podStatusPortUp 0 3) F.podStatusRole 0 r) F.podStatusHub 0 1
  let h := setFld (setFld (setFld h F.podChCfgCtx 0 5) F.podChCfgJob 0 1) F.podChCfgRingLog2 0 4
  let h := setFld (setReg h .podChRing 0 0x10000) F.podChStatState 0 st
  { setSem h 0 { count := 1, alloc := true, owner := 5 } with podCh := [(0, c)], podTx := [(4095, { sent := [(1, ⟨0, false, 1, 0, 0, []⟩)] })], podAck := [4095] }

/-- A pod command of opcode `op` to hub 0 with one sector, 256 of them sent, and its run at step 2. -/
def podRaw (op : Nat) : List Byte := leBytes 1 op ++ List.replicate 23 0 ++ [1, 1] ++ List.replicate 38 0
def podRun (op : Nat) : PodRun := { k := 0, raw := podRaw op, step := 2, pos := 256 }

theorem hyp_PodCommands :
    ((podHub 1 1 {}).runs = true ∧ bitOf (fld (podHub 1 1 {}) F.podStatusPortUp) 1 = true ∧
      (([⟨4095, 1, 1, 7, 0, 0⟩] : List PodIn).find? fun m => m.key == 4095 && m.left == 0).isSome = true ∧
      ((tget (podHub 1 1 {}).podTx 4095).any fun t => t.sent != []) = true ∧ (podHub 1 1 {}).podAck.contains 4095 = true ∧ podRole (podHub 1 1 {}) = 1 ∧
      podRole (podHub 2 1 {}) = 2 ∧ fld (podHub 1 1 {}) F.podStatusMgr ≠ 2 ∧ 0 = (podHub 1 1 {}).podMgr) ∧
    (roster (setRoster (podHub 2 1 {}) 4095 1) 4095 = 1 ∧ roster (setRoster (podHub 2 1 {}) 4095 2) 4095 = 2) ∧
    ((podHub 1 0 {}).rides = true ∧ chState (podHub 1 0 {}) (chSel (podHub 1 0 {})) = 0 ∧ ctxState (podHub 1 0 {}) (fld (podHub 1 0 {}) F.podChCfgCtx 0) = 2 ∧
      fld (podHub 1 0 {}) F.podChCfgJob 0 ≠ 0 ∧ ((List.range 256).all fun d => chState (podHub 1 0 {}) d == 0) = true ∧ chGeom (podHub 1 0 {}) 0 = true) ∧
    (chState (podHub 1 1 {}) 0 = 1 ∧ chState (podHub 1 2 {}) 0 = 2) ∧
    (frozen (podHub 1 1 {}) = false ∧ (0 : Int) + 1 ≤ (sem (podHub 1 1 {}) (fld (podHub 1 1 {}) F.podChCfgFeedSem 0)).count ∧
      (vaRead (podHub 1 1 {}) 5 (getReg (podHub 1 1 {}) .podChRing 0) 64 (podWho 0)).1 = some (List.replicate 64 0, []) ∧
      podCmdOk (List.replicate 64 0) = true ∧ bitOf (numAt (List.replicate 64 0) 40 4) 17 = false) ∧
    (∀ op ∈ [0, 1, 2, 3, 4, 5], readyRun (podHub 1 1 { runs := [podRun op] }) 0 op = some (podRun op) ∧
      putsDone (podHub 1 1 { runs := [podRun op] }) 0 (podRun op) = true) ∧
    (numAt (podRaw 1) 24 4 = 257 ∧ numAt (podRaw 1) 16 8 + 32 * numAt (podRaw 1) 24 4 ≤ 2 ^ 40 ∧ 0 < (podRun 1).pos ∧
      numAt (List.replicate 64 0) 24 4 = 0 ∧ (vaSectors 5 (podWho 0) [0x10000] (podHub 1 1 {})).1 = some (List.replicate 32 0, [])) := by
  and_intros <;> decide +kernel

theorem hyp_ChannelRefusals :
    ((podHub 1 0 {}).quiet = true ∧ (podHub 1 0 {}).rides = true ∧ chSel (podHub 1 0 {}) = 0) ∧
    (chState (podHub 1 3 {}) 0 = 3 ∧ chState (podHub 1 3 {}) 0 ≠ 2 ∧ ctxState (setFld (podHub 1 0 {}) F.podChCfgCtx 0 8191) 8191 ≠ 2) ∧
    fld (setFld (podHub 1 0 {}) F.podChCfgJob 0 0) F.podChCfgJob 0 = 0 ∧
    (∃ d, d < 256 ∧ chState (setFld (setFld (podHub 1 0 {}) F.podChStatState 255 1) F.podChCfgJob 255 1) d ≠ 0 ∧
      fld (setFld (setFld (podHub 1 0 {}) F.podChStatState 255 1) F.podChCfgJob 255 1) F.podChCfgJob d = 1) ∧
    chGeom (setFld (podHub 1 0 {}) F.podChCfgRingLog2 0 17) 0 = false := by
  refine ⟨by decide +kernel, by decide +kernel, by decide +kernel, ⟨255, by decide +kernel⟩, by decide +kernel⟩

/-- The hub with a segment key, KMP peer fe80::1 (its last SEQ 6), and epoch 0. -/
def fieldHub : Hub :=
  { setOdBytes rideHub OD.segmentKey (List.replicate 32 0) with
      mg := { rideHub.mg with ctl := { rideHub.mg.ctl with peers := [⟨0xFE80 * 2 ^ 112 + 1, 6, []⟩], dirty := true } } }

/-- The code that a dictionary write answers. -/
def answerOf (path k : Nat) (b : List Byte) : Nat := (dictWrite rideHub path 0 k b).1

theorem hyp_DictionaryCommands :
    (ctlUp rideHub = true ∧ rideHub.ctlDown = false ∧ rideHub.dead = 0 ∧ answerOf 3 OD.wakeReq (leBytes 1 1) = 0) ∧
    ((fieldOn fieldHub = true ∧ fieldUp fieldHub = true ∧ isLinkLocal (0xFE80 * 2 ^ 112 + 1) = true) ∧
      (fieldHub.mg.ctl.peers.find? (·.addr == 0xFE80 * 2 ^ 112 + 1)) = some ⟨0xFE80 * 2 ^ 112 + 1, 6, []⟩ ∧
      (∃ t, let p := kmpPayload 1 0 0 7 0x1000 1 0 4 [] t
        40 ≤ p.length ∧ kmpWellFormed p = true ∧ numAt p 4 4 = fieldHub.mg.epoch ∧ 6 < numAt p 8 4 ∧
          p.drop (p.length - 16) = kmpTag (segKey fieldHub) (beBytes 16 (0xFE80 * 2 ^ 112 + 1)) (beBytes 16 (beNat (linkLocal fieldHub)))
            (p.take (p.length - 16)))) ∧
    (1 ≤ [(0 : Byte)].length ∧ (List.replicate 32 (0 : Byte)).length ≤ 32 ∧ rideHub.mg.ctl.sbBad = false) := by
  refine ⟨by decide +kernel, ⟨by decide +kernel, by decide +kernel, ⟨kmpTag (segKey fieldHub) (beBytes 16 (0xFE80 * 2 ^ 112 + 1))
    (beBytes 16 (beNat (linkLocal fieldHub))) ((kmpPayload 1 0 0 7 0x1000 1 0 4 [] []).take 24), by decide +kernel, by decide +kernel,
    by decide +kernel, by decide +kernel, rfl⟩⟩, by decide +kernel⟩

/-- Context 5's load for region 63 runs, at stage `n`. -/
def loadHub (n : Nat) : Hub :=
  setOdNum { ctxHub 2 with bindQ := [63], binds := [(63, { stage := n })] } (OD.bindSrcCtx 63) 2 5

theorem hyp_ManagementCommands :
    (ctlUp rideHub = true ∧ lcState rideHub ≠ 3 ∧ fieldHub.mg.ctl.dirty = true ∧ fieldHub.mg.ctl.storeOk = true ∧
      ({ attNonce := some [] } : Ctl).attNonce = some [] ∧ rideHub.mg.cells ≠ 0 ∧ ({ dbgWait := some ([], []) } : Ctl).dbgWait = some ([], []) ∧
      ({ rideHub with mg := { rideHub.mg with fwu := { state := 1 } } } : Hub).mg.fwu.state = 1) ∧
    (odNum (setOdNum rideHub OD.autoConfirmS 2 1) OD.autoConfirmS ≠ 0 ∧
      (slotInState { rideHub with mg := { rideHub.mg with flash := { slotB := { state := 3 } } } } 3).isSome = true) ∧
    (fieldOn rideHub = true ∧ ({ plca := true } : Ctl).plca = true ∧ odOn (setOdNum rideHub OD.plcaEn 1 1) OD.plcaEn = true ∧
      ({ rideHub with mg := { rideHub.mg with dad := 0 } } : Hub).mg.dad = 0 ∧ fieldUp fieldHub = true ∧
      (([⟨9, 1, 0, 0, 1, 6⟩] : List NotifyOut).find? fun n => n.seq == 9 && n.sends != 0) = some ⟨9, 1, 0, 0, 1, 6⟩) ∧
    (isExpert { rideHub with mg := { rideHub.mg with ctl := { rideHub.mg.ctl with expMbx := true } } } 2 0 = true ∧
      isExpert { rideHub with mg := { rideHub.mg with ctl := { rideHub.mg.ctl with expField := [7] } } } 1 7 = true) ∧
    (rideHub.pwr.on = true ∧ rideHub.dead = 0 ∧ (∃ n, lcState { rideHub with mg := { rideHub.mg with cells := n } } = 0) ∧
      ∃ n, lcState { rideHub with mg := { rideHub.mg with cells := n } } = 1) ∧
    (loading (loadHub 1) 63 1 = true ∧ loading (loadHub 2) 63 2 = true ∧ (loadHub 1).runs = true ∧ (loadHub 1).ctlDown = false) := by
  refine ⟨by decide +kernel, by decide +kernel, by decide +kernel, by decide +kernel, ⟨by decide +kernel, by decide +kernel, ⟨0, by decide +kernel⟩, ⟨2, by decide +kernel⟩⟩, by decide +kernel⟩

/-- An expert's hub whose active overlay holds TRUE_MARGIN. -/
def overlayHub : Hub :=
  { rideHub with mg := { rideHub.mg with ctl := { expMbx := true, overlays := [⟨[65], [(OD.trueMargin, [16])]⟩], active := [65] } } }

/-- What a write of entry `k` by the mailbox on `h` is answered. -/
def codeOf (h : Hub) (k : Nat) (b : List Byte) : Option Nat := (entry? h k).map fun r => writeCode h 2 0 k r b

theorem hyp_DictionaryWrites :
    (codeOf rideHub OD.deviceId [0] = some 2 ∧ codeOf overlayHub OD.trueMargin [16] = some 9 ∧ heldByOverlay overlayHub OD.trueMargin = true ∧
      (entry? overlayHub OD.trueMargin).any (fun r => !pathForbids overlayHub 2 OD.trueMargin r [16] && !accessForbids OD.trueMargin r [16]) = true ∧
      isExpert overlayHub 2 0 = true) ∧
    (codeOf { overlayHub with mg := { overlayHub.mg with ctl := { expMbx := true } } } OD.trueMargin [16] = some 0 ∧
      codeOf { overlayHub with mg := { overlayHub.mg with ctl := { expMbx := true } } } OD.podRtoUs [0xE8, 3] = some 0) := by
  and_intros <;> decide +kernel

theorem hyp_NoticeRing :
    rideHub.quiet = true ∧ ctlUp rideHub = true ∧ rideHub.noteRing = [] ∧ ({ rideHub with noteRing := [(1, 2, 3)] } : Hub).noteRing = (1, 2, 3) :: [] := by
  and_intros <;> decide +kernel


/-! ### Ill-formed commands: one for each check of each constructor -/

theorem test_ill_formed_0 : (([
    .regWrite 64 0 12 0, .regWrite 0 0x4000000 12 0, .regWrite 63 0x40000 12 0, .w1cWrite 64 0 12 0, .w1cWrite 0 0x4000000 12 0,
    .w1cWrite 63 0x40000 12 0, .stemReg false 0x4000000 12 0, .stemReg false 0x10000 12 0, .doorbellWrite 64 0 0 none none,
    .doorbellWrite 0 8192 0 none none, .doorbellWrite 0 0 64 none none, .cmdNop 8192 0, .cmdNop 0 64, .cmdRoute 8192 0, .cmdRoute 0 64,
    .rangeFlush 8192 0, .rangeFlush 0 64, .rangeClean 8192 0, .rangeClean 0 64, .rangeInval 8192 0, .rangeInval 0 64,
    .cmdDescriptorRead 8192 0, .cmdDescriptorRead 0 64, .cmdFenceRelease 8192 0, .cmdFenceRelease 0 64, .cmdAcqInvalDone 8192 0,
    .cmdAcqInvalDone 0 64, .cmdTranslationDone 8192 0, .cmdTranslationDone 0 64, .tileOpIssue 8192 0, .tileOpIssue 0 64,
    .topOut false 34 0 0 0 0 false [] [] 0, .topOut false 0 0 0 0 0 false [] [] 3, .topCredit 0 64 0 0, .topCredit 34 0 0 0,
    .topCredit 0 0 0 3, .topDone false 0 64 0 0 0, .topDone false 0 0 0 3 0, .topDone false 34 0 0 0 0, .topDone false 0 0 0 0 3,
    .cmdFlushDone 8192 0, .cmdFlushDone 0 64, .cplRecordAck 8192 0 0, .cplRecordAck 0 64 0, .waitTableRetry 8192 0, .waitTableRetry 0 64,
    .queueCfgWrite 8192 0 0, .queueCfgWrite 0 3 0, .queueCreate 8192, .queueDestroy 8192] : List Instr).any Instr.wf) = false := by decide +kernel

theorem test_ill_formed_1 : (([
    .queueDrained 8192 0, .queueDrained 0 64, .queueResume 8192, .routeWinWrite 8192 0 0, .routeWinWrite 0 65536 0,
    .routeWinWrite 0 0 131072, .routeWrite 8192, .routeRead 8192, .crankStoreEcc 8 0 0 0 0 false false, .crankControlUe 8,
    .crankStallTimeout 8, .crankSelftest 8, .crankSelftestDone 8 false, .vdrStallTimeout 0x24, .vecSelftest 8, .drlSelftest 4,
    .vdrSelftestDone 0x24 false, .decPageDecode 0 2 0 false, .casPoolBind 2, .casPoolUnbind 2, .casStallTimeout 2, .casSelftest 2,
    .casSelftestDone 2 false, .hbmTempRead 64 0, .hbmTempRead 0 256, .holdWindowEnd 8, .reducedPeriodEnd 8, .hbmCattrip 8,
    .memScrubNow 64, .hbmTruingWindow 64 0 0 false, .hbmTruingWindow 0 8 0 false, .hbmTruingWindow 0 0 64 false, .hbmRetrainDone 64 [],
    .hbmRetrainDone 0 [64], .memCtlRetrain 64, .hbmStepDown 8, .hbmStepDownDone 8 [], .regionOpen 64, .regionSeal 64, .regionReload 64,
    .regionRelease 64, .rdShared 152 0 0 0 0 0 0, .rdShared 0 1024 0 0 0 0 0, .rdShared 0 0 8192 0 0 0 0, .rdShared 0 0 0 (2 ^ 51) 0 0 0,
    .rdShared 0 0 0 0 3 0 0, .rdUnique 152 0 0 0 0 0 0, .rdUnique 0 1024 0 0 0 0 0, .rdUnique 0 0 8192 0 0 0 0,
    .rdUnique 0 0 0 (2 ^ 51) 0 0 0] : List Instr).any Instr.wf) = false := by decide +kernel

theorem test_ill_formed_2 : (([
    .rdUnique 0 0 0 0 3 0 0, .rdOnce 0 0 0 0 4 0 0 0, .rdOnce 152 0 0 0 0 0 0 0, .rdOnce 0 1024 0 0 0 0 0 0, .rdOnce 0 0 8192 0 0 0 0 0,
    .rdOnce 0 0 0 (2 ^ 51) 0 0 0 0, .rdOnce 0 0 0 0 0 3 0 0, .upgrade 152 0 0 0 0 0 0, .upgrade 0 1024 0 0 0 0 0,
    .upgrade 0 0 8192 0 0 0 0, .upgrade 0 0 0 (2 ^ 51) 0 0 0, .upgrade 0 0 0 0 3 0 0, .wrLine 0 0 0 0 4 [] false 0 0 0,
    .wrLine 152 0 0 0 0 [] false 0 0 0, .wrLine 0 1024 0 0 0 [] false 0 0 0, .wrLine 0 0 8192 0 0 [] false 0 0 0,
    .wrLine 0 0 0 (2 ^ 51) 0 [] false 0 0 0, .wrLine 0 0 0 0 0 [] false 3 0 0, .evictClean 152 0 0 0 0 0, .evictClean 0 1024 0 0 0 0,
    .evictClean 0 0 8192 0 0 0, .evictClean 0 0 0 (2 ^ 51) 0 0, .evictClean 0 0 0 0 3 0, .evictDirty 152 0 0 0 [] false 0 0,
    .evictDirty 0 1024 0 0 [] false 0 0, .evictDirty 0 0 8192 0 [] false 0 0, .evictDirty 0 0 0 (2 ^ 51) [] false 0 0,
    .evictDirty 0 0 0 0 [] false 3 0, .snpInv 152 0 0 false 0 [], .snpInv 0 64 0 false 0 [], .snpShare 152 0 0 false 0 [],
    .snpShare 0 64 0 false 0 [], .snpAll 152 0 0 false 0 [], .snpAll 0 64 0 false 0 [], .snoopAck 152 0 0 false false 0,
    .snoopAck 0 64 0 false false 0, .snoopAck 0 0 0 false false 3, .completionAck 152 0 0 0, .completionAck 0 64 0 0,
    .completionAck 0 0 0 3, .ackData 152 0 0 [] 0 0, .ackData 0 64 0 [] 0 0, .ackData 0 0 0 [] 0 3, .cmp 152 0, .nackPoison 152 0 1,
    .nackPoison 0 1024 1, .nackPoison 0 0 5, .nackPoison 0 0 0, .snoopTimeout 152 0 0, .snoopTimeout 0 64 0] : List Instr).any Instr.wf) = false := by decide +kernel

theorem test_ill_formed_3 : (([
    .agentSweepDone 152, .contextSweepDone 8192 [], .cohDirRead 64, .tcInvalAll 0x30, .tcDropDone 0x30, .semWaitGe 0 64 0 0 0 0 false 0,
    .semWaitGe 0 1 0 0 131072 0 false 0, .semWaitGe 34 1 0 0 0 0 false 0, .semWaitGe 0 1 0 0 0 0 false 3, .semAdd 0 64 0 0 0 0 false 0,
    .semAdd 0 1 0 0 131072 0 false 0, .semAdd 34 1 0 0 0 0 false 0, .semAdd 0 1 0 0 0 0 false 3, .semSub 0 64 0 0 0 0 false 0,
    .semSub 0 1 0 0 131072 0 false 0, .semSub 34 1 0 0 0 0 false 0, .semSub 0 1 0 0 0 0 false 3, .semAcqRange 34 0 0 1 0,
    .semAcqRange 0 0 0 1 3, .orderedPostRelease 34 0 0, .partBind 4 0, .partBind 0 65536, .syncCtxCfgWrite 1048576 0,
    .syncCtxCfgWrite 0 2048, .watchdogFire 8192 0 false, .semSet 131072 0 0, .semSet 0 3 0, .semWakeAll 131072, .semClrAbandoned 131072,
    .spokeTruingWindow 32 0, .spokeTruingWindow 0 32, .linkTrueRpt 0 32 [], .linkTrueRpt 34 0 [], .linkTrueRpt 0 0 [(2, 0, 0, 0)],
    .linkTrueRpt 0 0 [(0, 132, 0, 0)], .trueRptTimeout 32, .spokeQuietPoint 32, .linkMapAck 34 0, .linkMapRpt 34 0 [],
    .linkMapRpt 0 0 [(2, 0, 0)], .linkMapRpt 0 0 [(0, 32, 0)], .linkMapRpt 0 0 [(0, 0, 132)], .stallBoundMiss 34, .linkCredit 34 none,
    .linkCredit 0 (some [65536]), .linkCredit 0 (some [0, 0, 0, 0, 0, 0, 0]), .linkBeat 34, .cellUe 34 false, .strRd 34 0 0 0 0 0 0,
    .strRd 0 64 0 0 0 0 0] : List Instr).any Instr.wf) = false := by decide +kernel

theorem test_ill_formed_4 : (([
    .strRd 0 0 1024 0 0 0 0, .strRd 0 0 0 8192 0 0 0, .strRd 0 0 0 0 (2 ^ 57) 0 0, .strRd 0 0 0 0 1 0 0, .strRd 0 0 0 0 0 256 0,
    .strRd 0 0 0 0 0 0 3, .strWr 34 0 0 0 0 0 0, .strWr 0 64 0 0 0 0 0, .strWr 0 0 1024 0 0 0 0, .strWr 0 0 0 8192 0 0 0,
    .strWr 0 0 0 0 (2 ^ 57) 0 0, .strWr 0 0 0 0 1 0 0, .strWr 0 0 0 0 0 256 0, .strWr 0 0 0 0 0 0 3, .strWdata 0 64 0 0 [] 0 0,
    .strWdata 0 0 0 256 [] 0 0, .strWdata 34 0 0 0 [] 0 0, .strWdata 0 0 0 0 [] 0 3, .heartbeatLost 34, .guestResetRequest 34,
    .guestError 34, .guestPresence 34 false, .guestPreq 34 false, .spkTrueNow 32, .sidebandRetry 34, .guestCmdEnd 34 false,
    .guestCmdTimeout 34, .sbReadyTimeout 34, .violationWindowEnd 34, .siteIsolate 34, .siteReadmit 34, .autoReadmit 34, .leaseGrant 34,
    .leaseEnd 34, .leaseDrainDone 0 16, .leaseDrainDone 34 0, .leaseDrainTimeout 0 16, .leaseDrainTimeout 34 0, .leaseGraceEnd 34 0,
    .ucieSbTimeout 2, .ucieLaneFail 2 [], .ucieLaneFail 0 [(0, 4, 0)], .ucieLaneFail 0 [(0, 0, 68)], .ucieRetrainDone 2,
    .ucieRetrainTimeout 2, .ucieLinkDown 2, .rimFlitUe 64 0 0 0 false false, .rimFlitUe 0 7 0 0 false false,
    .rimFlitUe 0 0 4 0 false false, .rimRetryRequest 64 0 0 1] : List Instr).any Instr.wf) = false := by decide +kernel

theorem test_ill_formed_5 : (([
    .rimRetryRequest 0 4 0 1, .rimRetryRequest 0 0 4 1, .rimRetryRequest 0 0 0 0, .rimRetryRequest 0 0 0 17, .rimStorageUe 64,
    .rimRouteErr 64 0, .rimRouteErr 0 16777216, .rimCntClear 64, .ctxFuncWrite 8192 0, .ctxPasidWrite 8192 0, .ctxCreate 8192,
    .ctxSuspend 8192, .ctxResume 8192, .ctxKill 8192, .ctxTeardown 8192, .teardownStepDone 8192,
    .translationCompletion 0 0 0 false 0 64 false false false 0, .translationCompletion 0 0 0 false 0 11 false false false 0,
    .translationCompletion 8192 0 0 false 0 12 false false false 0, .atsCompletionTimeout 8192 0 0 false,
    .atsInvalidation 32 0 0 false 0 1, .atsInvalidation 0 64 0 false 0 1, .atsInvalComplete 32 0, .atsInvalComplete 0 64,
    .vectorRegWrite 4 0 0, .vectorRegWrite 0 8192 0, .wheelSlot 64 [] [] 0, .wheelSlot 0 [5] [] 0, .wheelTurnStart 64,
    .deadlineMiss 64 0 0, .deadlineMiss 0 64 0, .deadlineMiss 0 0 5, .whlApply 64, .regCfgWrite 64 false 0, .ethPortState 2 false,
    .podFrame 2 0 0 0 [] false, .podRetxTimeout 4096, .podAckTimer 4096, .podUnreachable 4096, .podWatchdog 4096, .podCmdFetch 256,
    .podCmdNop 256, .podCmdPut 256, .podCmdReducePut 256, .podCmdSemAdd 256, .podCmdSemSub 256, .podCmdArrive 256,
    .configRequest 64 0 none, .configRequest 0 4096 none, .configRequest 0 2 none] : List Instr).any Instr.wf) = false := by decide +kernel

theorem test_ill_formed_6 : (([
    .bar4Read 0 0 0, .bar4Read 0 0 4097, .bar4Read 0 (2 ^ 39) 1, .bar4Write 0 (List.replicate 4097 0) false,
    .bar4Write (2 ^ 39) [0] false, .initiateFlr 64, .flrDone 64, .d3hotEntry 64, .d0Return 64, .hostCompletion 64 0 0 false [],
    .hostCompletion 0 0 3 false [], .msixUnmask 64 0, .msixUnmask 0 2048, .msixUnmask 63 64, .lcScrap 0 0 0, .lcScrap 4 0 0,
    .attestNonce 0 0 [], .attestNonce 4 0 [], .dbgNonce 4 0, .dbgResponse 0 0 [], .dbgResponse 4 0 [], .opdbg 0 0 false,
    .opdbg 4 0 false, .bindLoad 1 0 64, .bindLoad 0 0 0, .bindLoad 4 0 0, .bindAbort 1 0 64, .bindAbort 0 0 0, .bindAbort 4 0 0,
    .bindUnwrapDone 64, .bindChunk 64, .fieldFrameRx 5 0 0 [] none, .sbWrite 0 0 [] false, .sbWrite 0 0 (List.replicate 33 0) false,
    .expertNonce 0 0, .expertNonce 4 0, .expertProof 0 0 [], .expertProof 4 0 [], .expertClose 0 0, .expertClose 4 0,
    .expertIdleTimeout 0 0, .expertIdleTimeout 3 0, .proofLockoutEnd 0, .proofLockoutEnd 3, .overlaySwitch 0 0 [], .overlaySwitch 4 0 [],
    .ovlCreate 0 0, .ovlCreate 4 0, .ovlDelete 0 0, .ovlDelete 4 0] : List Instr).any Instr.wf) = false := by decide +kernel

theorem test_ill_formed_7 : (([
    .ovlPut 0 0, .ovlPut 4 0, .ovlRemove 0 0, .ovlRemove 4 0, .ovlClear 0 0, .ovlClear 4 0, .storeCmd 0 0 0, .storeCmd 4 0 0,
    .parkEntry 7, .parkEntry 24, .parkWake 0 false false [], .parkWake 6 false false [], .wakeReq 0 0 0, .wakeReq 4 0 0,
    .limiterTick 65536 (List.replicate 64 0), .limiterTick 0 [], .gateRunEnd 34 [], .gateRunEnd 0 [(0, 0, 132)],
    .gateRunEnd 33 [(0, 0, 68)], .gateDeadline 34, .fwAnswerTimeout 34, .fwuBegin 0 0, .fwuBegin 4 0, .fwuData 0 0 [], .fwuData 4 0 [],
    .fwuEnd 0 0, .fwuEnd 4 0, .fwuAbort 0 0, .fwuAbort 4 0, .fwuActivate 0 0, .fwuActivate 4 0, .fwuConfirm 0 0, .fwuConfirm 4 0,
    .fwuRollback 0 0, .fwuRollback 4 0, .fwuDeleteGuest 0 0, .fwuDeleteGuest 4 0, .dbgMemRead 0 0, .dbgMemRead 4 0, .supplyFault 6,
    .supplyFault 16, .siteIoutPoll 32 0 false false, .siteIoutPoll 0 65536 false false, .hbeatToggle 32, .vdrControlUe 0x24,
    .casControlUe 2, .sidebandTransferDone 34 [], .sidebandTransferDone 0 [2 ^ 32], .signatureCheckDone 34,
    .spokeTrainingDone 34 false []] : List Instr).any Instr.wf) = false := by decide +kernel

theorem test_ill_formed_8 : (([
    .spokeTrainingDone 0 false [(2, 0, 0)], .spokeTrainingDone 0 false [(0, 32, 0)], .spokeTrainingDone 0 false [(0, 0, 132)],
    .ucieTrainingDone 2 false false 0 [], .ucieTrainingDone 0 false false 0 [(0, 4, 0)], .ucieTrainingDone 0 false false 0 [(0, 0, 68)],
    .regRead 64 0 12, .regRead 0 0x4000000 12, .regRead 63 0x40000 12, .pcieLinkUp 3 1, .pcieLinkUp 2 3, .dynamicAddressAssignment 128] : List Instr).any Instr.wf) = false := by decide +kernel


/-! ### Single commands and operations against the spec's numbers -/

/-- HUB.ALIVE reads its sentinel (R30). -/
theorem test_alive : answers (exec (.regRead 0 0x10 4) (idle rideHub)) [] (fun h => h.out.head? == some ⟨.regRead, 0, [0x10, 4, 0x4B414C45], []⟩) = true := by
  decide +kernel

/-- A W1C write clears HUB.EVT.FROZE and leaves its counter (R34). -/
theorem test_w1c : answers (exec (.w1cWrite 0 0x20 4 0x1F) (idle (raise rideHub E.hubFroze))) [] (fun h =>
    !flag h E.hubFroze.flag && fld h E.hubFroze.cnt == 1) = true := by decide +kernel

/-- One port of 64 out of the interleave leaves 504 GiB - 64 MiB (R416's example). -/
theorem test_usable : usable { live := List.range 63, portCap := 2 ^ 33 } = 504 * 2 ^ 30 - 64 * 2 ^ 20 := by decide +kernel

/-- With two live ports, granule 2 (group 1, hash 1) lies on L[1], granule 3 on L[0], both at local 4 KiB (R159). -/
theorem test_interleave : portOf rideHub 0x2000 = 1 ∧ localAddr rideHub 0x2FFF = 0x1FFF ∧ portOf rideHub 0x3000 = 0 := by decide +kernel

/-- Codes (193, 184), (128, 120), (96, 88) of the rim's protected words (R345), and 9 check bits of a sector (R347). -/
theorem test_check_bits : checkBits 184 = 8 ∧ checkBits 120 = 7 ∧ checkBits 88 = 7 ∧ checkBits 256 = 9 := by decide +kernel

/-- Data bit 0 stands at position 3: check bits 0 and 1, parity 1 (R346 for k = 4). -/
theorem test_secded : secded 4 1 = 1 + 3 * 2 ^ 4 + 1 * 2 ^ 7 := by decide +kernel

/-- 3 · 5 + (-4) · 2 in INT8 gives 7 (R94); 2^31 saturates (R95). -/
theorem test_crank_int8 :
    crankElem { crankFunc 0 with fmt := 13 } 12 none [(some 0, [numOfInt 3 0, numOfInt (-4) 0])] [(some 0, [numOfInt 5 0, numOfInt 2 0])] = (7, 0, 0) ∧
    crankElem { crankFunc 0 with fmt := 13 } 12 none [(some 0, [numOfInt (2 ^ 16) 0])] [(some 0, [numOfInt (2 ^ 15) 0])] = (2 ^ 31 - 1, 0, 1) := by
  decide +kernel

/-- A doorbell one past the ring of 16 halts the queue (R57). -/
theorem test_overrun : answers (exec (.doorbellWrite 0 5 63 (some 17) none) (idle queueHub)) [] (fun h => qState h 5 63 == 2) = true := by decide +kernel

/-- CREATE of a FREE context is refused with RESULT 1 and CFG_REFUSED (R356). -/
theorem test_create_free : answers (exec (.ctxCreate 8191) (idle rideHub)) [] (fun h =>
    fld h F.ctxCtlResult 8191 == 1 && flag h F.ctxEvtCfgRefused 8191 && ctxState h 8191 == 0) = true := by decide +kernel

/-- SEAL takes LOADING to ACTIVE (R172). -/
theorem test_seal : answers (exec (.regionSeal 63) (idle (regionHub 1))) [] (fun h => (region h 63).state == 2) = true := by decide +kernel

/-- The amount is unsigned and the count signed: a guest's SEM_ADD of 2^64 - 1 saturates and raises SYNC.EVT.SAT (R237). -/
theorem test_sem_add_saturates : answers (exec (.semAdd 31 63 7 5 131071 (2 ^ 64 - 1) true 0) (idle (semHub { count := 5, owner := 5, alloc := true }))) []
    (fun h => (sem h 131071).count == 2 ^ 63 - 1 && flag h E.syncSat.flag) = true := by decide +kernel

/-- SNP_INV at an agent that holds the line in M is answered with its data, and the copy is gone (R201). -/
theorem test_snoop_dirty : answers (exec (.snpInv 151 0 1023 false 0 (List.replicate 64 9)) (idle (txnHub snoopTxn 3))) [] (fun h =>
    h.agentLines.isEmpty && h.out.head?.map (·.kind) == some .snpAckData) = true := by decide +kernel

/-- A command to a unit that does not exist is the fault noSuchUnit. -/
theorem test_no_such_unit : exec (.regionSeal 64) State.reset = .fault .noSuchUnit := rfl

/-- A hub without power takes COLD_POWER_UP and stands in phase 0 (R508). -/
theorem test_power_up : answers (exec .coldPowerUp State.reset) [] (fun h => h.pwr.on && fld h F.bootStatusPhase == 0) = true := by decide +kernel

end Sys2Proof.Tests
end

section
/-!
Proofs of the statements of 00_scope.md, part 1: accesses through BAR0 (R11, R12, R20).
-/
namespace Sys2Proof.Machine

/-! ### What an access of BAR0 comes to -/

/-- A command leaves one hub only. -/
theorem DoesOnly.unique {c : Instr} {s : State} {h k : Hub} (hh : DoesOnly c s h) (hk : DoesOnly c s k) : h = k := by
  injection hh.symm.trans hk with e
  injection e

section
variable {s : State} {h : Hub} {fn off size v : Nat}

/-- A write that the function takes is the write at the half that serves the offset. -/
theorem regWrite_does (hp : s.hub.pcie.up = true) (ho : barOpen s.hub fn off = true) (hb : inBar0 fn off = true) :
    Does (.regWrite fn off size v) s (barWrite s.hub fn off size v) :=
  .of_actUnit (exec_regWrite s fn off size v) hb (by simp [regWriteTlp, hp, ho])

/-- A read that the function takes is completed with what the half that serves the offset reads. -/
theorem regRead_does (hp : s.hub.pcie.up = true) (ho : barOpen s.hub fn off = true) (hb : inBar0 fn off = true) :
    Does (.regRead fn off size) s (emit (barRead s.hub fn off size).2 .regRead fn [off, size, (barRead s.hub fn off size).1]) :=
  .of_actUnit (exec_regRead s fn off size) hb (by simp [regReadTlp, hp, ho])

theorem barWrite_odd (ha : accessOk off size = false) : barWrite h fn off size v = h := by simp [barWrite, ha]

theorem barRead_odd (ha : accessOk off size = false) : barRead h fn off size = (0, h) := by simp [barRead, ha]

theorem barWrite_down (ha : accessOk off size = true) (hu : halfUp h fn off = false) :
    barWrite h fn off size v = raise h E.hubRegDropped := by simp [barWrite, ha, hu, regDropped]

theorem barRead_down (ha : accessOk off size = true) (hu : halfUp h fn off = false) :
    barRead h fn off size = (0, raise h E.hubRegDropped) := by simp [barRead, ha, hu, regDropped]

theorem barWrite_up (ha : accessOk off size = true) (hu : halfUp h fn off = true) :
    barWrite h fn off size v =
      (let k := if servedBy fn off = 2 then hostCalls h else h
       placeWrite k (fn == 0) (placeAt k fn (off / 8 * 8)) (touched off size) (wordOf v off size)) := by
  simp [barWrite, ha, hu]

theorem barRead_up (ha : accessOk off size = true) (hu : halfUp h fn off = true) :
    barRead h fn off size =
      (let k := if servedBy fn off = 2 then hostCalls h else h
       let x := placeRead k (placeAt k fn (off / 8 * 8))
       (partOf x.1 off size, x.2)) := by
  simp [barRead, ha, hu]

/-- In Ride no access wakes the hub or ends Coast. -/
theorem served_ride (hs : h.pwr.state = 0) : (if servedBy fn off = 2 then hostCalls h else h) = h := by
  rw [hostCalls_ride hs, ite_self]

theorem barWrite_ride (hs : h.pwr.state = 0) (ha : accessOk off size = true) (hu : halfUp h fn off = true) :
    barWrite h fn off size v = placeWrite h (fn == 0) (placeAt h fn (off / 8 * 8)) (touched off size) (wordOf v off size) := by
  simp only [barWrite_up ha hu, served_ride hs]

/-- A reserved place ignores writes (R12). -/
theorem barWrite_reserved (hs : h.pwr.state = 0) (ha : accessOk off size = true) (hu : halfUp h fn off = true)
    (hn : placeAt h fn (off / 8 * 8) = .none) : barWrite h fn off size v = h := by
  rw [barWrite_ride hs ha hu, hn]
  rfl

/-- A reserved place reads 0 (R12). -/
theorem barRead_reserved (hs : h.pwr.state = 0) (ha : accessOk off size = true) (hu : halfUp h fn off = true)
    (hn : placeAt h fn (off / 8 * 8) = .none) : barRead h fn off size = (0, h) := by
  simp [barRead_up ha hu, served_ride hs, hn, placeRead, partOf]

/-- A data half that runs, over a stem that is up, takes the management core's accesses (R456). -/
theorem stem_open (hc : h.ctlDown = false) (hr : h.runs = true) (ha : accessOk off size = true) :
    (h.ctlDown || h.dataReset || h.dead != 0 || decide (2 ≤ h.pwr.state) || !accessOk off size) = false := by
  simp only [Hub.runs, Bool.and_eq_true, Bool.not_eq_true', beq_iff_eq, decide_eq_true_eq] at hr
  obtain ⟨⟨hd, hz⟩, hp⟩ := hr
  simp [hc, hd, hz, ha, hp]

theorem stemReg_write (hc : h.ctlDown = false) (hr : h.runs = true) (ha : accessOk off size = true) :
    stemReg h true off size v =
      emit (placeWrite h true (placeAt h 0 (off / 8 * 8)) (touched off size) (wordOf v off size)) .stemReg 1 [off] := by
  simp [stemReg, stem_open hc hr ha]

theorem stemReg_read (hc : h.ctlDown = false) (hr : h.runs = true) (ha : accessOk off size = true) :
    stemReg h false off size v =
      (let x := placeRead h (placeAt h 0 (off / 8 * 8))
       emit x.2 .stemReg 0 [off, partOf x.1 off size]) := by
  simp [stemReg, stem_open hc hr ha]

theorem stemReg_does (write : Bool) (hb : inBar0 0 off = true) (hd : servedBy 0 off = 2) :
    Does (.stemReg write off size v) s (stemReg s.hub write off size v) :=
  .of_actUnit (exec_stemReg s write off size v) (by simp [hb, hd]) rfl

end

/-! ### Odd accesses -/

/-- Settles O12: both kinds of access come to nothing in `barRead` and `barWrite`, and the read's completion keeps the hub quiet. -/
theorem oddAccesses : Obligations.OddAccesses := by
  intro s fn off size v hq hs hp ho hb
  have answers0 (e : barRead s.hub fn off size = (0, s.hub)) :
      DoesOnly (.regRead fn off size) s (emit s.hub .regRead fn [off, size, 0]) :=
    Does.only (by simpa only [e] using regRead_does (size := size) hp ho hb) (quiet_emit _ _ _ _ hq)
  have drops (e : barWrite s.hub fn off size v = s.hub) : DoesOnly (.regWrite fn off size v) s s.hub :=
    Does.only (e ▸ regWrite_does hp ho hb) hq
  constructor
  · intro ha
    exact ⟨answers0 (barRead_odd ha), drops (barWrite_odd ha)⟩
  · intro ha hu hn
    exact ⟨answers0 (barRead_reserved hs ha hu hn), drops (barWrite_reserved hs ha hu hn)⟩

/-! ### Register accesses -/

/-- Settles O13: each command goes through its gate to `barRead`, `barWrite` or `stemReg`, whose cases are the statement's. -/
theorem registerAccesses : Obligations.RegisterAccesses := by
  refine ⟨fun s fn off size v hp ho hb ha => ⟨fun hu => ⟨?_, ?_, ?_⟩, fun hu => ⟨?_, ?_⟩⟩,
    fun s off size v hc hr hb hd ha => ⟨?_, ?_⟩⟩
  · simpa only [barRead_up ha hu] using regRead_does (size := size) hp ho hb
  · simpa only [barWrite_up ha hu] using regWrite_does (size := size) (v := v) hp ho hb
  · intro hf
    simp only [exec_w1cWrite, exec_regWrite, actUnit_eq hb, hf, if_true]
  · simpa only [barRead_down ha hu] using regRead_does (size := size) hp ho hb
  · exact barWrite_down ha hu ▸ regWrite_does (size := size) (v := v) hp ho hb
  · exact stemReg_write hc hr ha ▸ stemReg_does true hb hd
  · exact stemReg_read hc hr ha ▸ stemReg_does false hb hd

/-! ### A plain register whose RW bits the access does not address -/

/-- A write that addresses no W1C, RW or W1S bit of a register leaves the hub as it is (R11). -/
theorem regStore_untouched (h : Hub) (pf : Bool) {r : Reg} (u i : Nat) {m : Nat} (w : Nat) (hc : r.info.w1c &&& m = 0)
    (hw : (r.info.rw ||| r.info.w1s) &&& m = 0) : regStore h pf r u i m w = h := by
  simp [regStore, hc, hw]

/-- Storing into a register that the register file does not list adds an entry, whatever the value. -/
theorem setReg_ne_self {h : Hub} {r : Reg} {i : Nat} (v : Nat) (hn : tget h.regs (i * 1024 + r.num) = none) : setReg h r i v ≠ h := by
  intro e
  have hr := congrArg (fun k => tget k.regs (i * 1024 + r.num)) e
  simp [setReg, hn] at hr

/-- Both halves serve, in Ride, with the link up and the PF's memory space enabled; HUB.STATUS is the only register written so far. -/
def freshState : State :=
  { pending := [], hub := { regs := [(Reg.hubStatus.num, 0x23)], ctlDown := false, dataReset := false, pcie := { up := true },
                            funcs := [(0, { memEn := true })] } }

/-- Refutes O8: a 4-byte write to the upper half of CTX.QSEL (BAR0 0x100_0404) addresses none of its RW bits, which are 5..0. The hub
stays as it is, its list of written registers included, while `setReg` would add CTX.QSEL to that list. -/
theorem not_regWriteStores : ¬ Obligations.RegWriteStores := by
  intro h
  have hq : freshState.hub.quiet = true := by decide
  have ho : barOpen freshState.hub 0 0x1000404 = true := by decide
  have hb : inBar0 0 0x1000404 = true := by decide
  have ha : accessOk 0x1000404 4 = true := by decide
  have hu : halfUp freshState.hub 0 0x1000404 = true := by decide
  have hp : placeAt freshState.hub 0 (0x1000404 / 8 * 8) = .reg .ctx 0 0x400 := by decide
  have hr : regAt .ctx 0x400 = some (.ctxQsel, 0) := by decide
  obtain ⟨new, hset, -⟩ := h freshState 0 0x1000404 4 1 .ctx 0 0x400 .ctxQsel 0 hq rfl rfl ho hb ha hu hp hr (by decide)
  have hsame : barWrite freshState.hub 0 0x1000404 4 1 = freshState.hub := by
    simp only [barWrite_ride rfl ha hu, hp, placeWrite, hr]
    exact regStore_untouched _ _ _ _ _ (by decide) (by decide)
  have hkeep : DoesOnly (.regWrite 0 0x1000404 4 1) freshState freshState.hub :=
    Does.only (hsame ▸ regWrite_does rfl ho hb) hq
  exact setReg_ne_self new (by decide) (hset.unique hkeep)

end Sys2Proof.Machine
end

section
/-!
Proofs of the statements of 00_scope.md, part 2: the driver's semaphore registers and the debug window (R234, R253, R255).
-/
namespace Sys2Proof.Machine

/-! ### What an event leaves in the registers -/

theorem getReg_sendMsix (h : Hub) (f v : Nat) (r : Reg) (i : Nat) : getReg (sendMsix h f v) r i = getReg h r i := by
  simp only [getReg, sendMsix_regs, sendMsix_variant]

/-- An event changes the register of its flag and the one of its counter. -/
theorem getReg_raise_reg (h : Hub) {e : Evt} (i : Nat) {r : Reg} (j : Nat) (hf : r ≠ e.flag.reg) (hc : r ≠ e.cnt.reg) :
    getReg (raise h e i) r j = getReg h r j := by
  have hk : getReg (addFld (setFld h e.flag i 1) e.cnt i 1) r j = getReg h r j := by
    rw [addFld, setFld, getReg_setReg_reg _ _ _ _ hc, setFld, getReg_setReg_reg _ _ _ _ hf]
  simp only [raise]
  split
  · split
    · rw [getReg_sendMsix, hk]
    · exact hk
  · exact hk

theorem fld_raise_reg (h : Hub) {e : Evt} (i : Nat) {f : Fld} (j : Nat) (hf : f.reg ≠ e.flag.reg) (hc : f.reg ≠ e.cnt.reg) :
    fld (raise h e i) f j = fld h f j := by
  rw [fld, getReg_raise_reg h i j hf hc, fld]

theorem ctxState_raise (h : Hub) {e : Evt} (i c : Nat) (hf : e.flag.reg ≠ .ctxStatus) (hc : e.cnt.reg ≠ .ctxStatus) :
    ctxState (raise h e i) c = ctxState h c :=
  fld_raise_reg h i c hf.symm hc.symm

/-! ### The result of a semaphore action (R255) -/

section
variable (h : Hub) (r : Nat)

/-- RESULT is written, and a refusal also raises SYNC.EVT.CFG_REFUSED. -/
theorem semRes_cases : semRes h r = setFld h F.syncSemCtlResult 0 r ∨ semRes h r = raise (setFld h F.syncSemCtlResult 0 r) E.syncCfgRefused := by
  simp only [semRes, syncRefused]
  split
  · exact .inl rfl
  · exact .inr rfl

@[simp] theorem semRes_sems : (semRes h r).sems = h.sems := by
  rcases semRes_cases h r with e | e <;> simp [e]

@[simp] theorem semRes_grants : (semRes h r).grants = h.grants := by
  rcases semRes_cases h r with e | e <;> simp [e]

@[simp] theorem semRes_hbm : (semRes h r).hbm = h.hbm := by
  rcases semRes_cases h r with e | e <;> simp [e]

@[simp] theorem sem_semRes (n : Nat) : sem (semRes h r) n = sem h n := by simp only [sem, semRes_sems]

@[simp] theorem ctxState_semRes (c : Nat) : ctxState (semRes h r) c = ctxState h c := by
  have hs : ctxState (setFld h F.syncSemCtlResult 0 r) c = ctxState h c := ctxState_setReg h _ _ c (by decide)
  rcases semRes_cases h r with e | e
  · rw [e, hs]
  · rw [e, ctxState_raise _ _ _ (by decide) (by decide), hs]

/-- RESULT reads back the code, cut to its eight bits. -/
@[simp] theorem fld_semRes : fld (semRes h r) F.syncSemCtlResult = r % 2 ^ 8 := by
  have hs : fld (setFld h F.syncSemCtlResult 0 r) F.syncSemCtlResult = r % 2 ^ 8 := fld_setFld_same h _ _ _ (by decide)
  rcases semRes_cases h r with e | e
  · rw [e, hs]
  · rw [e, fld_raise_reg _ _ _ (by decide) (by decide), hs]

theorem quiet_semRes (hq : h.quiet = true) : (semRes h r).quiet = true := by
  have hs : (setFld h F.syncSemCtlResult 0 r).quiet = true := quiet_setFld _ _ (by decide) hq
  rcases semRes_cases h r with e | e
  · rwa [e]
  · rw [e]
    exact quiet_raise _ _ (by decide) (by decide) hs

end

/-! ### One semaphore written or freed -/

section
variable (h : Hub) (n : Nat) (m : Sem)

@[simp] theorem sem_setSem_same : sem (setSem h n m) n = m := tgetD_tset_same _ _ _ _

theorem sem_setSem_ne {i : Nat} (hi : i ≠ n) : sem (setSem h n m) i = sem h i := tgetD_tset_ne _ _ _ hi

@[simp] theorem setSem_grants : (setSem h n m).grants = h.grants := rfl
@[simp] theorem setSem_hbm : (setSem h n m).hbm = h.hbm := rfl
@[simp] theorem ctxState_setSem (c : Nat) : ctxState (setSem h n m) c = ctxState h c := rfl

theorem quiet_setSem (hq : h.quiet = true) : (setSem h n m).quiet = true := quiet_of_same rfl rfl ⟨rfl, rfl, rfl, rfl, rfl, rfl, rfl⟩ hq

/-- Semaphore `n` free, with no grant on it. -/
def dropSem : Hub := { h with sems := tdel h.sems n, grants := dropIf h.grants fun g => g.sem == n }

@[simp] theorem sem_dropSem_same : sem (dropSem h n) n = {} := by simp [sem, dropSem, tgetD]

theorem sem_dropSem_ne {i : Nat} (hi : i ≠ n) : sem (dropSem h n) i = sem h i := by simp [sem, dropSem, tgetD, tget_tdel_ne _ hi]

@[simp] theorem dropSem_hbm : (dropSem h n).hbm = h.hbm := rfl
@[simp] theorem ctxState_dropSem (c : Nat) : ctxState (dropSem h n) c = ctxState h c := rfl

theorem mem_dropSem_grants (g : Grant) : g ∈ (dropSem h n).grants ↔ g ∈ h.grants ∧ g.sem ≠ n := by simp [dropSem, dropIf]

theorem quiet_dropSem (hq : h.quiet = true) : (dropSem h n).quiet = true := quiet_of_same rfl rfl ⟨rfl, rfl, rfl, rfl, rfl, rfl, rfl⟩ hq

end

@[simp] theorem sem_raise (h : Hub) (e : Evt) (i n : Nat) : sem (raise h e i) n = sem h n := by simp only [sem, raise_sems]

@[simp] theorem ctxState_handSet (h : Hub) (c : Nat) : ctxState (raise h E.syncHandSet) c = ctxState h c :=
  ctxState_raise h 0 c (by decide) (by decide)

/-! ### What the actions come to -/

section
variable {h : Hub}

theorem semInit_dead (hl : ctxLive h (fld h F.syncSemSelCtx) = false) : semInit h = semRes h 5 := by simp [semInit, hl]

theorem semInit_other (hl : ctxLive h (fld h F.syncSemSelCtx) = true) (ha : (sem h (fld h F.syncSemSelSem)).alloc = true)
    (ho : (sem h (fld h F.syncSemSelSem)).owner ≠ fld h F.syncSemSelCtx) : semInit h = semRes h 1 := by
  simp [semInit, hl, ha, ho]

theorem semInit_free (hl : ctxLive h (fld h F.syncSemSelCtx) = true) (ha : (sem h (fld h F.syncSemSelSem)).alloc = false) :
    semInit h = semRes (setSem h (fld h F.syncSemSelSem)
      { count := toSigned 64 (fld h F.syncSemValValue), owner := fld h F.syncSemSelCtx, alloc := true,
        baseline := toSigned 64 (fld h F.syncSemValValue) }) 0 := by
  simp [semInit, hl, ha]

theorem semFree_other (ho : (sem h (fld h F.syncSemSelSem)).owner ≠ fld h F.syncSemSelCtx) : semFree h = semRes h 1 := by
  simp [semFree, ho]

theorem semFree_owner (ha : (sem h (fld h F.syncSemSelSem)).alloc = true)
    (ho : (sem h (fld h F.syncSemSelSem)).owner = fld h F.syncSemSelCtx) (hw : semWaiters h (fld h F.syncSemSelSem) = [])
    (hb : (sem h (fld h F.syncSemSelSem)).barrier = false) : semFree h = semRes (dropSem h (fld h F.syncSemSelSem)) 0 := by
  simp [semFree, dropSem, ha, ho, hw, hb]

/-- A semaphore that nobody waits on releases nobody. -/
theorem releaseMet_nobody {n : Nat} (hw : semWaiters h n = []) : releaseMet h n = h := by simp [releaseMet, each, hw]

/-- The count that a write of `v` to the whole of a count, to its lower half or to its upper half leaves. -/
def countSet (old half v : Nat) : Nat := if half = 0 then v else if half = 1 then setBits old 0 32 v else setBits old 32 32 v

theorem countSet_lower (old v : Nat) : countSet old 1 v = old / 2 ^ 32 * 2 ^ 32 + v % 2 ^ 32 := by
  show setBits old 0 32 v = _
  simp only [setBits]
  omega

theorem countSet_upper {old : Nat} (v : Nat) (ho : old < 2 ^ 64) : countSet old 2 v = v % 2 ^ 32 * 2 ^ 32 + old % 2 ^ 32 := by
  show setBits old 32 32 v = _
  simp only [setBits]
  omega

theorem ofSigned_lt (v : Int) : ofSigned 64 v < 2 ^ 64 := by
  simp only [ofSigned]
  omega

/-- SEM.SET in a debug session, on an allocated semaphore that nobody waits on: its count is set and the write is marked. -/
theorem semSet_open {n half v : Nat} (hd : debugOpen h = true) (ha : (sem h n).alloc = true) (hw : semWaiters h n = []) :
    semSet h n half v =
      raise (setSem (setSem h n { sem h n with handSet := true }) n
        { sem h n with handSet := true, count := toSigned 64 (countSet (ofSigned 64 (sem h n).count) half v) }) E.syncHandSet := by
  have hw' (m₁ m₂ : Sem) : semWaiters (setSem (setSem h n m₁) n m₂) n = [] := hw
  simp only [semSet, handSet, hd, ha, sem_setSem_same, releaseMet_nobody (hw' _ _), countSet]
  rfl

end

/-! ### The statement -/

/-- A semaphore action of a quiet hub in Ride leaves the hub its meaning leaves, where that is quiet. -/
theorem DoesOnly.of_dataReg {c : Instr} {s : State} {ok : Bool} {f : Hub → Hub} (he : exec c s = dataReg s ok f) (hk : ok = true)
    (hr : s.hub.rides = true) {k : Hub} (hf : f s.hub = k) (hq : k.quiet = true) : DoesOnly c s k :=
  (Does.of_dataReg he hk hr hf).only hq

/-- Settles O50: each action is its equation above, and the frame of `semRes`, `setSem` and `dropSem` gives the rest. The three halves
that SEM.SET can name are one argument over `countSet`. -/
theorem semaphoreCounts : Obligations.SemaphoreCounts := by
  intro s hq hr n c v m same
  have refused (r : Nat) : (semRes s.hub r).sems = s.hub.sems ∧ (semRes s.hub r).grants = s.hub.grants ∧ same n (semRes s.hub r) :=
    ⟨semRes_sems _ _, semRes_grants _ _, fun i _ => sem_semRes _ _ i, semRes_hbm _ _, ctxState_semRes _ _⟩
  have hqr (r : Nat) := quiet_semRes s.hub r hq
  refine ⟨fun ha hl => ?_, fun hl _ => ?_, fun ha ho => ⟨fun hl => ?_, ?_⟩, fun ha ho hw hb => ?_, fun j w hj hd ha hw => ?_⟩
  · refine ⟨_, .of_dataReg (exec_semInit s) rfl hr (semInit_free hl ha) (quiet_semRes _ _ (quiet_setSem _ _ _ hq)), ?_⟩
    simp +contextual [n, c, v, same, sem_setSem_ne]
  · exact ⟨_, .of_dataReg (exec_semInit s) rfl hr (semInit_dead hl) (hqr 5), fld_semRes _ _, refused 5⟩
  · exact ⟨_, .of_dataReg (exec_semInit s) rfl hr (semInit_other hl ha ho) (hqr 1), fld_semRes _ _, refused 1⟩
  · exact ⟨_, .of_dataReg (exec_semFree s) rfl hr (semFree_other ho) (hqr 1), fld_semRes _ _, refused 1⟩
  · refine ⟨_, .of_dataReg (exec_semFree s) rfl hr (semFree_owner ha ho hw hb) (quiet_semRes _ _ (quiet_dropSem _ _ hq)), ?_⟩
    simp +contextual [n, same, sem_dropSem_ne, mem_dropSem_grants]
  · have written (half : Nat) (hh : half < 3) : ∃ k, DoesOnly (.semSet j half w) s k ∧
        (sem k j).count = toSigned 64 (countSet (ofSigned 64 (sem s.hub j).count) half w) ∧ (sem k j).handSet = true ∧
        k.grants = s.hub.grants ∧ same j k := by
      refine ⟨_, .of_dataReg (exec_semSet s j half w) (by simp [hj, hh]) hr (semSet_open hd ha hw)
        (quiet_raise _ _ (by decide) (by decide) (quiet_setSem _ _ _ (quiet_setSem _ _ _ hq))), ?_⟩
      simp +contextual [same, sem_setSem_ne]
    obtain ⟨k₀, d₀, c₀, m₀, g₀, f₀⟩ := written 0 (by decide)
    obtain ⟨k₁, d₁, c₁, -, g₁, f₁⟩ := written 1 (by decide)
    obtain ⟨k₂, d₂, c₂, -, g₂, f₂⟩ := written 2 (by decide)
    rw [countSet_lower] at c₁
    rw [countSet_upper w (ofSigned_lt _)] at c₂
    exact ⟨⟨k₀, d₀, c₀, m₀, g₀, f₀⟩, ⟨k₁, d₁, c₁, g₁, f₁⟩, k₂, d₂, c₂, g₂, f₂⟩

end Sys2Proof.Machine
end

section
/-!
Proofs of the statements of 00_scope.md, part 3: writes of the object dictionary (R13, R461, R462, R485).
-/
namespace Sys2Proof.Machine

/-! ### What a notice leaves alone -/

/-- `k` has the variant, the management state and the HBM of `h`, and every dictionary value but the count of frames sent. -/
def Hub.sameStore (k h : Hub) : Prop :=
  k.variant = h.variant ∧ k.mg = h.mg ∧ k.hbm = h.hbm ∧ ∀ j, j ≠ OD.txFrames → tget k.od j = tget h.od j

theorem Hub.sameStore_refl (h : Hub) : h.sameStore h := ⟨rfl, rfl, rfl, fun _ _ => rfl⟩

theorem Hub.sameStore_trans {a b c : Hub} (h : a.sameStore b) (k : b.sameStore c) : a.sameStore c := by
  obtain ⟨hv, hm, hh, ho⟩ := h
  obtain ⟨kv, km, kh, ko⟩ := k
  exact ⟨hv.trans kv, hm.trans km, hh.trans kh, fun j hj => (ho j hj).trans (ko j hj)⟩

theorem Hub.sameStore_odNum {k h : Hub} (hs : k.sameStore h) {j : Nat} (hj : j ≠ OD.txFrames) : odNum k j = odNum h j := by
  obtain ⟨hv, -, -, ho⟩ := hs
  simp only [odNum, hv, ho j hj]

theorem setFld_sameStore (h : Hub) (f : Fld) (i v : Nat) : (setFld h f i v).sameStore h := by simp [Hub.sameStore]
theorem raise_sameStore (h : Hub) (e : Evt) (i : Nat) : (raise h e i).sameStore h := by simp [Hub.sameStore]
theorem sendMsix_sameStore (h : Hub) (f v : Nat) : (sendMsix h f v).sameStore h := by simp [Hub.sameStore]

theorem kmpSend_sameStore (h : Hub) (k : OutKind) (key : List Byte) (dst : Nat) (body : List Byte) :
    (kmpSend h k key dst body).sameStore h :=
  ⟨rfl, rfl, rfl, fun _ hj => tget_tset_ne _ _ hj⟩

/-- What each step keeps, a walk over a list keeps. -/
theorem each_sameStore {α : Type} {f : Hub → α → Hub} (hf : ∀ h x, (f h x).sameStore h) (xs : List α) (h : Hub) :
    (each xs h f).sameStore h := by
  induction xs generalizing h with
  | nil => exact h.sameStore_refl
  | cons x xs ih => exact Hub.sameStore_trans (ih (f h x)) (hf h x)

theorem sendNotify_sameStore (h : Hub) (n : NotifyOut) : (sendNotify h n).sameStore h := kmpSend_sameStore _ _ _ _ _

/-- A notice reaches the mailbox ring and the field network; no stored value, overlay or byte of memory changes. -/
theorem deliverNotice_sameStore (h : Hub) (code detail : Nat) : (deliverNotice h code detail).sameStore h := by
  unfold deliverNotice
  extract_lets n counted entered noted rung
  have hc : counted.sameStore h := ⟨rfl, rfl, rfl, fun _ _ => rfl⟩
  have he : entered.sameStore h := raise_sameStore _ _ _
  have hn : noted.sameStore h := Hub.sameStore_trans (setFld_sameStore _ _ _ _) he
  have hr : rung.sameStore h := by
    simp only [rung]
    split
    · split
      · exact Hub.sameStore_trans (sendMsix_sameStore _ _ _) hn
      · exact hn
    · exact Hub.sameStore_trans (raise_sameStore _ _ _) hc
  split
  · exact hr
  · refine Hub.sameStore_trans (each_sameStore (fun k d => ?_) _ _) hr
    extract_lets q numbered
    have hk : numbered.sameStore k := ⟨rfl, rfl, rfl, fun _ _ => rfl⟩
    split
    · exact hk
    · refine Hub.sameStore_trans (sendNotify_sameStore _ _) ?_
      split
      · exact hk
      · exact hk

/-! ### What a write's checks answer -/

/-- A write that a check refuses changes nothing; OD 0x8000.04 aside, which records its refusal (R13). -/
theorem dictWrite_refused {h : Hub} {path peer k : Nat} {b : List Byte} {r : OdRow} (he : entry? h k = some r)
    (hc : writeCode h path peer k r b ≠ 0) (hk : k ≠ OD.lcScrap) :
    dictWrite h path peer k b = (writeCode h path peer k r b, h) := by
  simp [dictWrite, he, hk]

theorem dictWrite_accepted {h : Hub} {path peer k : Nat} {b : List Byte} {r : OdRow} (he : entry? h k = some r)
    (hc : writeCode h path peer k r b = 0) : dictWrite h path peer k b = applyWrite h path peer k r b := by
  simp only [dictWrite, he, hc]

/-- An entry of the active overlay is refused with code 9 once path, access and level allow the write. -/
theorem writeCode_held {h : Hub} {path peer k : Nat} {r : OdRow} {b : List Byte} (hp : pathForbids h path k r b = false)
    (ha : accessForbids k r b = false) (hl : r.level = .expert → isExpert h path peer = true) (ho : heldByOverlay h k = true) :
    writeCode h path peer k r b = 9 := by
  have hx : (decide (r.level = .expert) && !isExpert h path peer) = false := by
    by_cases h' : r.level = .expert <;> simp [h', hl]
  simp [writeCode, hp, ha, ho, hx]

/-! ### Stored tuning entries -/

/-- Tuning entries that a write only stores: no rule of theirs gives the write a further effect. -/
def tuningKeys : List Nat := [OD.trueMargin, OD.spkMargin, OD.guestRdSite, OD.guestSem, OD.thermHoldC, OD.pcieRdTags, OD.podRtoUs]

theorem entry?_odRow {h : Hub} {k : Nat} {r : OdRow} (he : entry? h k = some r) : odRow? k = some r := by
  simp only [entry?] at he
  split at he
  · contradiction
  · exact he

/-- They are expert-RW and not volatile, and so stored (R461). -/
theorem tuning_stored {k : Nat} {r : OdRow} (hk : k ∈ tuningKeys) (hr : odRow? k = some r) : isStored k r = true := by
  have hall : ∀ k ∈ tuningKeys, (odRow? k).all (isStored k) = true := by decide +kernel
  simpa [hr] using hall k hk

theorem tuning_entryEffect {k : Nat} (hk : k ∈ tuningKeys) (h : Hub) : entryEffect h k = h := by
  have hall : ∀ k ∈ tuningKeys, k ∉ [OD.regPreset, OD.regMapEn, OD.crankClkMax, OD.expertKey, OD.mac, OD.plcaEn] := by decide
  have := hall k hk
  simp only [List.mem_cons, List.not_mem_nil, or_false, not_or] at this
  simp [entryEffect, this]

theorem tuning_applyWrite {h : Hub} {path peer k : Nat} {r : OdRow} (b : List Byte) (hk : k ∈ tuningKeys) (hs : isStored k r = true) :
    applyWrite h path peer k r b = (0, storeValue h path k b) := by
  simp only [tuningKeys, List.mem_cons, List.not_mem_nil, or_false] at hk
  rcases hk with rfl | rfl | rfl | rfl | rfl | rfl | rfl <;> simp only [applyWrite, hs] <;> rfl

/-- The value `b` of entry `k` stored: base and effective value, waiting for the commit. -/
def valueStored (h : Hub) (k : Nat) (b : List Byte) : Hub :=
  markDirty { setCtl h { h.mg.ctl with base := tset h.mg.ctl.base k b } with od := tset h.od k b }

/-- Storing a tuning value is that, and CONFIG_CHANGED goes out. -/
theorem tuning_storeValue {k : Nat} (hk : k ∈ tuningKeys) (h : Hub) (path : Nat) (b : List Byte) :
    storeValue h path k b = configChanged (valueStored h k b) path k := by
  have hall : ∀ k ∈ tuningKeys, k ≠ OD.houseStations := by decide
  simp only [storeValue, if_neg (hall k hk), tuning_entryEffect hk]
  rfl

theorem odNum_valueStored (h : Hub) (k : Nat) (b : List Byte) : odNum (valueStored h k b) k = leNat b := by
  have : tget (valueStored h k b).od k = some b := tget_tset_same _ _ _
  simp only [odNum, this]

/-- Settles O59: the checks answer their code with the hub as it was; an accepted tuning value is stored, and its notice touches
neither the store nor a tuning entry. -/
theorem dictionaryWrites : Obligations.DictionaryWrites := by
  intro h path peer k b r he
  refine ⟨fun hc hk => dictWrite_refused he hc hk, fun hp ha hl ho hk => ?_, fun hc hk => ?_⟩
  · have hc := writeCode_held hp ha hl ho
    rw [dictWrite_refused he (by simp [hc]) hk, hc]
  · intro t
    have hw : dictWrite h path peer k b = (0, configChanged (valueStored h k b) path k) := by
      rw [dictWrite_accepted he hc, tuning_applyWrite b hk (tuning_stored hk (entry?_odRow he)), tuning_storeValue hk]
    have hx : ∀ k ∈ tuningKeys, k ≠ OD.txFrames := by decide
    have hs : t.sameStore (valueStored h k b) := by
      simp only [t, hw]
      exact deliverNotice_sameStore _ _ _
    have ⟨_, hm, hh, _⟩ := hs
    rw [hw, Hub.sameStore_odNum hs (hx k hk), odNum_valueStored, hm, hh]
    exact ⟨rfl, rfl, tget_tset_same _ _ _, fun j hj => tget_tset_ne _ _ hj, rfl, rfl, rfl, rfl⟩

end Sys2Proof.Machine
end

section
/-!
Proofs of the statements of 01_architecture.md, part 1: event counters and W1C writes, the hub globals, the sync debug window (R29,
R31, R34).
-/
namespace Sys2Proof.Machine

/-! ### Event counters (R33, R34) -/

/-- An event's counter goes up by one and wraps at its width. -/
theorem fld_raise_cnt (h : Hub) {e : Evt} (i : Nat) (hw : e.cnt.lo + e.cnt.w ≤ 64) (hr : e.cnt.reg ≠ e.flag.reg) :
    fld (raise h e i) e.cnt i = (fld h e.cnt i + 1) % 2 ^ e.cnt.w := by
  have counted : fld (addFld (setFld h e.flag i 1) e.cnt i 1) e.cnt i = (fld h e.cnt i + 1) % 2 ^ e.cnt.w := by
    rw [addFld, fld_setFld_same _ _ _ _ hw, fld_setFld_reg _ _ _ _ hr]
  simp only [raise]
  split
  · split
    · rwa [fld, getReg_sendMsix]
    · exact counted
  · exact counted

/-- What the register tables say of each flag and its counter. -/
theorem evtList_tables : ∀ e ∈ evtList, e.cnt.lo + e.cnt.w ≤ 64 ∧ e.cnt.reg ≠ e.flag.reg ∧ (e.cnt.w = 16 ∨ e ∈ wideEvts) ∧
    e.cnt.reg.info.rw = 0 ∧ e.cnt.reg.info.w1c = 0 ∧ e.cnt.reg.info.w1s = 0 ∧ e.flag.reg.info.w1c.testBit e.flag.lo = true := by
  decide +kernel

/-! ### A write at a register -/

section
variable {h : Hub} {fn off size v : Nat}

/-- In Ride a write at a register stores into it. -/
theorem barWrite_reg {b : Block} {u o : Nat} {r : Reg} {i : Nat} (hs : h.pwr.state = 0) (ha : accessOk off size = true)
    (hu : halfUp h fn off = true) (hp : placeAt h fn (off / 8 * 8) = .reg b u o) (hr : regAt b o = some (r, i)) :
    barWrite h fn off size v = regStore h (fn == 0) r u i (touched off size) (wordOf v off size) := by
  rw [barWrite_ride hs ha hu, hp]
  simp only [placeWrite, hr]

/-- A register whose bits software cannot write keeps its value (R12). -/
theorem regStore_readOnly (pf : Bool) {r : Reg} (u i m w : Nat) (hc : r.info.w1c = 0) (hw : r.info.rw = 0) (hs : r.info.w1s = 0) :
    regStore h pf r u i m w = h :=
  regStore_untouched h pf u i w (by simp [hc]) (by simp [hw, hs])

/-- A write that addresses a flag clears flags, whatever else the register holds. -/
theorem regStore_flags (pf : Bool) {r : Reg} (u i : Nat) {m : Nat} (w : Nat) (hc : r.info.w1c &&& m ≠ 0) :
    regStore h pf r u i m w =
      setReg h r (bankOf h r u i) (w1cClear (getReg h r (bankOf h r u i)) r.info.w1c (w &&& m)) := by
  simp [regStore, hc]

/-- A write that addresses RW or W1S bits, and no flag, has the register's effect. -/
theorem regStore_effect (pf : Bool) {r : Reg} (u i : Nat) {m : Nat} (w : Nat) (hc : r.info.w1c &&& m = 0)
    (hw : (r.info.rw ||| r.info.w1s) &&& m ≠ 0) :
    ∃ new, regStore h pf r u i m w = regEffect h pf r u i new (w &&& m &&& r.info.w1s) := by
  simp only [regStore, hc, bne_self_eq_false, Bool.false_eq_true, if_false, if_neg hw]
  exact ⟨_, rfl⟩

/-- An access carries bits only where it addresses them. -/
theorem wordOf_and_touched : wordOf v off size &&& touched off size = wordOf v off size := by
  apply Nat.eq_of_testBit_eq
  intro n
  simp only [wordOf, touched]
  split
  · simp [Nat.testBit_mod_two_pow, -Nat.reducePow, -Nat.reduceSub]
  · simp +contextual [Nat.testBit_mul_two_pow, Nat.testBit_mod_two_pow, Nat.testBit_two_pow_sub_one, -Nat.reducePow, -Nat.reduceSub]

/-- A flag written with 1 is a flag addressed. -/
theorem touched_of_written {mask : Nat} (hw : mask &&& wordOf v off size ≠ 0) : mask &&& touched off size ≠ 0 := by
  intro h0
  rw [← wordOf_and_touched, Nat.and_comm (wordOf _ _ _), ← Nat.and_assoc, h0, Nat.zero_and] at hw
  exact hw rfl

/-- W1C_WRITE at a register of flags is the write (R34). -/
theorem w1cWrite_does {s : State} (hp : s.hub.pcie.up = true) (ho : barOpen s.hub fn off = true) (hb : inBar0 fn off = true)
    (hf : isFlags s.hub fn off = true) : Does (.w1cWrite fn off size v) s (barWrite s.hub fn off size v) :=
  .of_actUnit (exec_w1cWrite s fn off size v) hb (by simp [hf, regWriteTlp, hp, ho])

theorem isFlags_reg {b : Block} {u o : Nat} {r : Reg} {i : Nat} (hp : placeAt h fn (off / 8 * 8) = .reg b u o)
    (hr : regAt b o = some (r, i)) (hc : r.info.w1c ≠ 0) : isFlags h fn off = true := by
  simp [isFlags, hp, hr, hc]

end

/-- Settles O9: the count is `fld_raise_cnt`; a counter has no bit that a write reaches; a W1C write is `w1cClear` of the register. -/
theorem countersAndW1c : Obligations.CountersAndW1c := by
  refine ⟨fun h e i hw hr => fld_raise_cnt h i hw hr, evtList_tables, fun s fn off size v b u o r i hq hs hp ho hb ha hu hpl hr =>
    ⟨fun hm => ?_, fun hc hw => ?_⟩⟩
  · obtain ⟨e, he, rfl⟩ := List.mem_map.1 hm
    obtain ⟨-, -, -, hrw, hw1c, hw1s, -⟩ := evtList_tables e he
    have hsame : barWrite s.hub fn off size v = s.hub := by
      rw [barWrite_reg hs ha hu hpl hr, regStore_readOnly _ _ _ _ _ hw1c hrw hw1s]
    exact Does.only (hsame ▸ regWrite_does hp ho hb) hq
  · have hne : r ≠ .ctxStatus := by
      rintro rfl
      exact hc rfl
    refine ⟨w1cClear (getReg s.hub r (bankOf s.hub r u i)) r.info.w1c (wordOf v off size &&& touched off size),
      Does.only ?_ (quiet_setReg _ _ hne hq), fun n => ?_⟩
    · rw [← regStore_flags (fn == 0) u i _ (touched_of_written hw), ← barWrite_reg hs ha hu hpl hr]
      exact w1cWrite_does hp ho hb (isFlags_reg hpl hr hc)
    · rw [w1cClear_testBit, Nat.testBit_and, Bool.and_assoc, Bool.and_comm ((wordOf _ _ _).testBit n)]

/-! ### The hub globals (R30, R31) -/

/-- A virtual function's map holds no hub global register (R418). -/
theorem vfPlace_ne_hub (h : Hub) (f o u x : Nat) : vfPlace h f o ≠ .reg .hub u x := by
  simp only [vfPlace]
  repeat' split
  all_goals simp

theorem quiet_regDropped {h : Hub} (hq : h.quiet = true) : (regDropped h).quiet = true := quiet_raise _ _ (by decide) (by decide) hq

/-- A write to HUB.CTL is dropped whole where the operator forbids driver-initiated resets (R31). -/
theorem hubCtlWrite_forbidden {h : Hub} (new w : Nat) (ho : odOn h OD.drvResetOk = false) : hubCtlWrite h new w = regDropped h := by
  simp [hubCtlWrite, ho]

/-- An access of HUB.CTL as a word or at its low half addresses bits that software writes. -/
theorem hubCtl_written {size : Nat} (hs : size = 4 ∨ size = 8) :
    accessOk 0x38 size = true ∧ Reg.hubCtl.info.w1c &&& touched 0x38 size = 0 ∧
      (Reg.hubCtl.info.rw ||| Reg.hubCtl.info.w1s) &&& touched 0x38 size ≠ 0 := by
  rcases hs with rfl | rfl <;> decide

/-- Settles O10: the map of a VF has no `.reg .hub`, and the effect of a HUB.CTL write starts with the operator's check. -/
theorem hubGlobals : Obligations.HubGlobals := by
  refine ⟨fun h f o u x hf => ?_, fun s size v hq hs hp ho hz hd => ?_⟩
  · rw [placeAt, if_neg hf]
    exact vfPlace_ne_hub h f o u x
  · obtain ⟨ha, hc, hw⟩ := hubCtl_written hz
    have hdrop : barWrite s.hub 0 0x38 size v = regDropped s.hub := by
      rw [barWrite_reg (b := .hub) (u := 0) (o := 0x38) (r := .hubCtl) (i := 0) hs ha rfl rfl (by decide)]
      obtain ⟨new, he⟩ := regStore_effect (h := s.hub) (0 == 0) 0 0 (wordOf v 0x38 size) hc hw
      exact he.trans (hubCtlWrite_forbidden _ _ hd)
    have hd : Does (.regWrite 0 0x38 size v) s (regDropped s.hub) := hdrop ▸ regWrite_does hp ho (by decide)
    exact hd.only (quiet_regDropped hq)

/-! ### The sync debug window (R29, R253) -/

section
variable {h : Hub} {off : Nat}

/-- In Ride a read is that of its place. -/
theorem barRead_ride {fn size : Nat} (hs : h.pwr.state = 0) (ha : accessOk off size = true) (hu : halfUp h fn off = true) :
    barRead h fn off size =
      (partOf (placeRead h (placeAt h fn (off / 8 * 8))).1 off size, (placeRead h (placeAt h fn (off / 8 * 8))).2) := by
  simp only [barRead_up ha hu, served_ride hs]

/-- Each 16 bytes of the window are a semaphore slot. -/
theorem placeAt_window (h : Hub) (hlo : 0x2000000 ≤ off) (hhi : off < 0x2200000) :
    placeAt h 0 (off / 8 * 8) = .semSlot ((off - 0x2000000) / 16) (off / 8 * 8 % 16) := by
  have hslot : (off / 8 * 8 - 0x2000000) / 16 = (off - 0x2000000) / 16 := by omega
  have hhi' : off / 8 * 8 < 0x2200000 := by omega
  rw [placeAt, if_pos rfl, pfPlace]
  repeat rw [if_neg (by omega)]
  rw [if_pos hhi', hslot]

/-- The data half serves the window. -/
theorem halfUp_window (h : Hub) (hlo : 0x2000000 ≤ off) (hhi : off < 0x2200000) : halfUp h 0 off = serving h := by
  have h2 : servedBy 0 off = 2 := by
    have : 0x400000 ≤ off := by omega
    simp [servedBy, this, show ¬ off < 0x100 by omega, show ¬ off < 0x20000 by omega, show off < 0x3000000 by omega]
  simp [halfUp, h2]

theorem dead_of_serving (hv : serving h = true) : h.dead = 0 := by
  simp only [serving, Bool.and_eq_true, beq_iff_eq] at hv
  exact hv.2

theorem placeRead_window_closed (n w : Nat) (hd : debugOpen h = false) : placeRead h (.semSlot n w) = (0, h) := by
  simp [placeRead, hd]

theorem placeRead_window_open (n w : Nat) (hd : debugOpen h = true) :
    placeRead h (.semSlot n w) = (if w = 0 then ofSigned 64 (sem h n).count else semWord1 h n, h) := by
  by_cases hw : w = 0 <;> simp [placeRead, hd, hw]

theorem handSet_closed (n : Nat) (f : Hub → Hub) (hd : debugOpen h = false) : handSet h n f = h := by
  simp [handSet, hd]

theorem placeWrite_window_closed (pf : Bool) (n w m x : Nat) (hd : debugOpen h = false) :
    placeWrite h pf (.semSlot n w) m x = h := by
  simp only [placeWrite, semStore, semSet, semWord, handSet_closed _ _ hd, ite_self]

end

/-- Settles O11: an access of the window is one of a semaphore slot, which is closed or open with the debug session. -/
theorem syncDebugWindow : Obligations.SyncDebugWindow := by
  intro s off size v hq hs hp hm hv hlo hhi ha
  have hu : halfUp s.hub 0 off = true := (halfUp_window s.hub hlo hhi).trans hv
  have ho : barOpen s.hub 0 off = true := by
    simp [barOpen, hm, dead_of_serving hv]
  have hb : inBar0 0 off = true := by simp [inBar0, show off < 67108864 by omega]
  have reads {x : Nat} (e : placeRead s.hub (placeAt s.hub 0 (off / 8 * 8)) = (x, s.hub)) :
      DoesOnly (.regRead 0 off size) s (emit s.hub .regRead 0 [off, size, partOf x off size]) := by
    have hr := regRead_does (size := size) hp ho hb
    rw [barRead_ride hs ha hu, e] at hr
    exact hr.only (quiet_emit _ _ _ _ hq)
  rw [placeAt_window s.hub hlo hhi] at reads
  refine ⟨fun hd => ⟨?_, ?_⟩, fun hd h8 => ?_⟩
  · have hzero : partOf 0 off size = 0 := by simp [partOf]
    simpa only [hzero] using reads (placeRead_window_closed _ _ hd)
  · have hsame : barWrite s.hub 0 off size v = s.hub := by
      rw [barWrite_ride hs ha hu, placeAt_window s.hub hlo hhi, placeWrite_window_closed _ _ _ _ _ hd]
    exact Does.only (hsame ▸ regWrite_does hp ho hb) hq
  · have hword : off / 8 * 8 % 16 = off % 16 := by
      have : off % 8 = 0 := by simpa [accessOk, h8] using ha
      omega
    simpa only [hword] using reads (placeRead_window_open _ _ hd)

end Sys2Proof.Machine
end

section
/-!
Proofs of the statements of 01_architecture.md, part 2: the two halves, the stem link between them, and restarts (R16 to R20, R30, R31).
-/
namespace Sys2Proof.Machine

/-! ### Registers returned to their reset values -/

/-- A filter that keeps every entry of a key keeps what the table holds there. -/
theorem tget_dropIf_keep {α : Type} (t : List (Nat × α)) {p : Nat × α → Bool} {k : Nat} (hp : ∀ v, p (k, v) = false) :
    tget (dropIf t p) k = tget t k := by
  induction t with
  | nil => rfl
  | cons e r ih =>
    obtain ⟨j, v⟩ := e
    by_cases hj : j = k
    · subst hj
      simp [dropIf, tget, hp]
    · cases he : p (j, v) <;> simp_all [dropIf, tget]

theorem Reg.all_num (r : Reg) : Reg.all[r.num]? = some r := by cases r <;> rfl

/-- A register outside the reset keeps its value. -/
theorem getReg_resetRegs (h : Hub) {p : Reg → Nat → Bool} {r : Reg} {i : Nat} (hp : p r i = false) :
    getReg (resetRegs h p) r i = getReg h r i := by
  have hlt := Reg.num_lt r
  have hnum : (i * 1024 + r.num) % 1024 = r.num := by omega
  have hbank : (i * 1024 + r.num) / 1024 = i := by omega
  have hkeep : tget (resetRegs h p).regs (i * 1024 + r.num) = tget h.regs (i * 1024 + r.num) :=
    tget_dropIf_keep _ fun _ => by simp only [hnum, hbank, Reg.all_num, hp]
  simp only [getReg, hkeep]
  rfl

theorem usedCtx_resetRegs {h : Hub} {p : Reg → Nat → Bool} {c : Nat} (hc : c ∈ usedCtx (resetRegs h p)) : c ∈ usedCtx h := by
  simp only [usedCtx, List.mem_map, List.mem_filter] at hc ⊢
  obtain ⟨e, ⟨he, hn⟩, hk⟩ := hc
  exact ⟨e, ⟨List.mem_of_mem_filter he, hn⟩, hk⟩

/-! ### The control half stops (R17, R30) -/

section
variable {h : Hub}

/-- The control half's own registers are reset with it, no others. -/
theorem getReg_clearCtl {r : Reg} (i : Nat) (hr : ctlBlock r.info.block = false) : getReg (clearCtl h) r i = getReg h r i :=
  getReg_resetRegs h (p := fun r _ => ctlBlock r.info.block) hr

theorem ctxState_clearCtl (c : Nat) : ctxState (clearCtl h) c = ctxState h c := by
  have : getReg (clearCtl h) .ctxStatus c = getReg h .ctxStatus c := getReg_clearCtl c (by decide)
  simp only [ctxState, fld, F.ctxStatusState, this]

theorem quiet_clearCtl (hq : h.quiet = true) : (clearCtl h).quiet = true := by
  rw [Hub.quiet_iff] at hq ⊢
  obtain ⟨htodo, hops, hcmds, hstrs, hreads, -, hctx⟩ := hq
  refine ⟨htodo, hops, hcmds, hstrs, hreads, rfl, fun c hc => ?_⟩
  rw [ctxState_clearCtl]
  exact hctx c (usedCtx_resetRegs (p := fun r _ => ctlBlock r.info.block) hc)

section
variable (hc : h.ctlDown = false) (hb : bringingUp h = false)
include hc hb

/-- Outside a bring-up a restart clears what the control half alone holds, and CTL_UP. -/
theorem ctlRestart_stops : ctlRestart h =
    { setFld (clearCtl h) F.hubStatusCtlUp 0 0 with
      ctlDown := true, mg := { (clearCtl h).mg with resume := if fld h F.bootStatusPhase = 15 then 3 else 0 } } := by
  simp [ctlRestart, hc, hb]

/-- The control half is down, and the data half's work is as before. -/
theorem ctlRestart_work : (ctlRestart h).ctlDown = true ∧ (ctlRestart h).hbm = h.hbm ∧ (ctlRestart h).ops = h.ops ∧
    (ctlRestart h).cmds = h.cmds ∧ (ctlRestart h).queues = h.queues ∧ (ctlRestart h).guests = h.guests ∧
    (ctlRestart h).sems = h.sems ∧ (ctlRestart h).atc = h.atc := by
  rw [ctlRestart_stops hc hb]
  exact ⟨rfl, rfl, rfl, rfl, rfl, rfl, rfl, rfl⟩

theorem getReg_ctlRestart_eq (r : Reg) (i : Nat) :
    getReg (ctlRestart h) r i = getReg (setFld (clearCtl h) F.hubStatusCtlUp 0 0) r i := by
  rw [ctlRestart_stops hc hb]
  rfl

/-- Registers of the data half and of the hub globals but HUB.STATUS are as before. -/
theorem getReg_ctlRestart {r : Reg} (i : Nat) (hr : ctlBlock r.info.block = false) (hs : r ≠ .hubStatus) :
    getReg (ctlRestart h) r i = getReg h r i := by
  rw [getReg_ctlRestart_eq hc hb, setFld, getReg_setReg_reg _ _ _ _ (show r ≠ F.hubStatusCtlUp.reg from hs), getReg_clearCtl i hr]

theorem ctlUp_ctlRestart : ctlUp (ctlRestart h) = false := by
  have hz : fld (ctlRestart h) F.hubStatusCtlUp = 0 := by
    rw [fld, getReg_ctlRestart_eq hc hb]
    exact fld_setFld_same _ _ _ _ (by decide)
  simp [ctlUp, flag, hz]

/-- Of HUB.STATUS only CTL_UP changes. -/
theorem hubStatus_ctlRestart {n : Nat} (hn : n ≠ 0) :
    (getReg (ctlRestart h) .hubStatus 0).testBit n = (getReg h .hubStatus 0).testBit n := by
  have hlt : getReg h .hubStatus 0 < 2 ^ 64 := getReg_lt h .hubStatus 0 (show 0 < 2 ^ 64 by decide)
  have hnew : getReg (ctlRestart h) .hubStatus 0 = setBits (getReg h .hubStatus 0) 0 1 0 := by
    rw [getReg_ctlRestart_eq hc hb, setFld, F.hubStatusCtlUp, getReg_setReg_same, getReg_clearCtl 0 (by decide)]
    exact Nat.mod_eq_of_lt (setBits_lt hlt (by decide))
  rw [hnew, setBits_testBit, if_neg (by omega)]

theorem quiet_ctlRestart (hq : h.quiet = true) : (ctlRestart h).quiet = true := by
  rw [ctlRestart_stops hc hb]
  exact quiet_setFld (f := F.hubStatusCtlUp) 0 0 (by decide) (quiet_clearCtl hq)

end

end

theorem mgmtWatchdog_does {s : State} (hd : s.hub.dead = 0) : Does .mgmtWatchdog s (ctlRestart s.hub) :=
  .of_act (exec_mgmtWatchdog s) (by simp [hd])

/-- Settles O16: the watchdog's effect is `ctlRestart_stops`, whose registers and fields the frame lemmas give. -/
theorem controlRestartKeepsDataHalf : Obligations.ControlRestartKeepsDataHalf := by
  intro s hq hd hc hb
  have hreg {r : Reg} (hr : ctlBlock r.info.block = false) (hs : r ≠ .hubStatus) (i : Nat) := getReg_ctlRestart hc hb i hr hs
  refine ⟨ctlRestart s.hub, (mgmtWatchdog_does hd).only (quiet_ctlRestart hc hb hq), ctlUp_ctlRestart hc hb, ?_⟩
  have hctx (c : Nat) : ctxState (ctlRestart s.hub) c = ctxState s.hub c := by
    simp only [ctxState, fld, F.ctxStatusState, hreg (r := .ctxStatus) (by decide) (by decide)]
  obtain ⟨hdown, hhbm, hops, hcmds, hqueues, hguests, hsems, hatc⟩ := ctlRestart_work hc hb
  exact ⟨hdown, hhbm, hops, hcmds, hqueues, hguests, hsems, hatc, hctx, hreg (by decide) (by decide) 0,
    hreg (by decide) (by decide) 0, hreg (by decide) (by decide) 0, hreg (by decide) (by decide) 0, hreg (by decide) (by decide) 0,
    fun n hn => hubStatus_ctlRestart hc hb hn⟩

/-! ### The stem link's commands (R16, R18, R19, R544) -/

theorem Hub.alive_iff (h : Hub) : h.alive = true ↔ h.pwr.on = true ∧ h.dead = 0 := by simp [Hub.alive]

theorem beatsMissed_control (h : Hub) : beatsMissed h true =
    if dataUp (ctlRestart h) then setFld (ctlRestart h) F.hubStatusRideThrough 0 1 else ctlRestart h := rfl

theorem beatsMissed_data (h : Hub) : beatsMissed h false = h := rfl

theorem stemWordUe_resyncs (h : Hub) : stemWordUe h true = raise { h with resyncFail := 0 } E.hubStemResync := rfl

section
variable {h : Hub}

theorem stemWordUe_fails (hf : h.resyncFail < 2) : stemWordUe h false = { h with resyncFail := h.resyncFail + 1 } := by
  simp [stemWordUe, Nat.not_le.2 hf]

/-- A third failure in a row counts as missed beats. -/
theorem stemWordUe_third (hf : 2 ≤ h.resyncFail) : stemWordUe h false = beatsMissed { h with resyncFail := 0 } true := by
  simp [stemWordUe, hf]

theorem freeze_running (hf : frozen h = false) : freeze h = raise (setFld h F.hubStatusFrozen 0 1) E.hubFroze := by
  simp [freeze, hf]

/-- A data half that no fatal source froze resumes (R18, R19). -/
theorem unfreeze_resumes (hf : frozen h = true) (hs : h.frozenBy = 0) : unfreeze h = runAll (setFld h F.hubStatusFrozen 0 0) := by
  simp [unfreeze, hf, hs]

end

section
variable {s : State}

theorem stemBeatTimeout_does (ha : s.hub.alive = true) (ofControl : Bool) :
    Does (.stemBeatTimeout ofControl) s (beatsMissed s.hub ofControl) := by
  obtain ⟨hp, hd⟩ := s.hub.alive_iff.1 ha
  exact .of_act (exec_stemBeatTimeout s ofControl) (by simp [hp, hd])

theorem stemWordUe_does (ha : s.hub.alive = true) (ok : Bool) : Does (.stemWordUe ok) s (stemWordUe s.hub ok) := by
  obtain ⟨hp, hd⟩ := s.hub.alive_iff.1 ha
  exact .of_act (exec_stemWordUe s ok) (by simp [hp, hd])

end

/-- Settles O14: each command passes its gate, and the equations of `beatsMissed`, `stemWordUe`, `freeze` and `unfreeze` are the
statement's cases. -/
theorem stemCommands : Obligations.StemCommands := by
  intro s ha
  obtain ⟨-, hd⟩ := s.hub.alive_iff.1 ha
  refine ⟨fun hc => ?_, fun hr => ?_, fun n => ⟨?_, ?_⟩, ?_, ?_, ?_, fun hf => ?_, fun hf => ?_, fun hr hf => ?_, fun hr hf hs => ?_,
    fun hr ht hu => ?_, fun k r hc he => ?_, fun n r hc hn => ?_⟩
  · exact .of_act (exec_stemBeatSend s true) (by simp [hd, hc])
  · exact .of_act (exec_stemBeatSend s false) (by simp [hd, hr])
  · exact .of_act (exec_stemBeat s true n) rfl
  · exact .of_act (exec_stemBeat s false n) rfl
  · exact beatsMissed_control s.hub ▸ stemBeatTimeout_does ha true
  · exact beatsMissed_data s.hub ▸ stemBeatTimeout_does ha false
  · exact stemWordUe_resyncs s.hub ▸ stemWordUe_does ha true
  · exact stemWordUe_fails hf ▸ stemWordUe_does ha false
  · exact stemWordUe_third hf ▸ stemWordUe_does ha false
  · exact .of_inData (exec_stemFreeze s) rfl hr (by rw [freeze_running hf])
  · exact .of_inData (exec_stemResume s) rfl hr (unfreeze_resumes hf hs)
  · exact .of_inData (exec_rideThroughFreeze s) rfl hr (by simp [ht, hu])
  · exact .of_act (exec_stemDict s k) (by simp [hc, hd, he])
  · exact .of_act (exec_stemNotice s) (by simp [hc, hn])

/-! ### Restarts of either half (R18, R19, R31, R519) -/

section
variable {h : Hub}

/-- Both requests of a driver are dropped where the operator forbids them (R31). -/
theorem driverResets_forbidden (hd : h.dead = 0) (ho : odOn h OD.drvResetOk = false) :
    hubDataReset h = regDropped h ∧ hubCtlRestart h = regDropped h := by
  simp [hubDataReset, hubCtlRestart, hd, ho]

theorem hubCtlRestart_restarts (hd : h.dead = 0) (ho : odOn h OD.drvResetOk = true) (hf : flag h F.hubCtlCtlRestart = false) :
    hubCtlRestart h = ctlRestart (setFld h F.hubCtlCtlRestart 0 1) := by
  simp [hubCtlRestart, hd, ho, hf]

theorem hubDataReset_resets (hd : h.dead = 0) (ho : odOn h OD.drvResetOk = true) (hc : ctlUp h = true) (hb : bringingUp h = false) :
    hubDataReset h = dataHalfReset (setFld h F.hubCtlDataReset 0 1) := by
  simp [hubDataReset, hd, ho, hc, hb]

section
variable (ha : h.alive = true) (hc : h.ctlDown = true) (hb : bringingUp h = false)
include ha hc hb

/-- A control half that is down returns, while no bring-up runs. -/
theorem ctlReturn_open : (h.dead != 0 || !h.pwr.on || !h.ctlDown || bringingUp h) = false := by
  obtain ⟨hp, hd⟩ := h.alive_iff.1 ha
  simp [hp, hd, hc, hb]

/-- A half that went down in a cold bring-up begins that bring-up again at the ROM's phase (R519). -/
theorem ctlReturn_cold (b : Bool) (hr : h.mg.resume = 1) :
    ctlReturn h b = beginBringUp { h with ctlStarts := h.ctlStarts + 1, mg := { h.mg with resume := 0 } } false 1 := by
  have hcold : (h.mg.resume == 1) = true := by simp [hr]
  simp only [ctlReturn, ctlReturn_open ha hc hb, hcold, Bool.false_eq_true, if_false, if_true]

/-- Another one serves again with the image the ROM picked, and meets the data half. -/
theorem ctlReturn_serves {b bad : Bool} {k : Hub} (hr : h.mg.resume ≠ 1)
    (hf : firmwareStart 3 (lifeCycleBoot { h with ctlStarts := h.ctlStarts + 1 } b) = (k, bad)) (hs : k.mg.slot.isSome = true) :
    ctlReturn h b =
      (let m := raise (meetData (ctlServes k bad)) E.hubCtlRestarted
       { m with mg := { m.mg with resume := 0 } }) := by
  have hwarm : (h.mg.resume == 1) = false := by simp [hr]
  have himage : k.mg.slot.isNone = false := Option.isNone_eq_false_iff.2 hs
  simp only [ctlReturn, ctlReturn_open ha hc hb, hwarm, hf, himage, Bool.false_eq_true, if_false]

end

end

/-- Settles O15: every gate is open, and the equations of the requests and of `ctlReturn` are the statement's cases. -/
theorem restarts : Obligations.Restarts := by
  refine ⟨fun s hd => ⟨mgmtWatchdog_does hd, ?_⟩, fun s hd ho hf => ?_, fun s hd ho hc hb => ?_, fun s hd ho => ?_,
    fun s b ha hc hb hr => ?_, fun s b bad k ha hc hb hr hf hs => ?_⟩
  · exact .of_act (exec_sramUe s) (by simp [hd])
  · exact .of_act (exec_hubCtlCtlRestart s) (hubCtlRestart_restarts hd ho hf)
  · exact .of_act (exec_hubCtlDataReset s) (hubDataReset_resets hd ho hc hb)
  · obtain ⟨hdata, hctl⟩ := driverResets_forbidden hd ho
    exact ⟨.of_act (exec_hubCtlDataReset s) hdata, .of_act (exec_hubCtlCtlRestart s) hctl⟩
  · exact .of_act (exec_ctlHalfReturn s b) (ctlReturn_cold ha hc hb b hr)
  · exact .of_act (exec_ctlHalfReturn s b) (ctlReturn_serves ha hc hb hr hf hs)

end Sys2Proof.Machine
end

section
/-!
Proofs of the statements of 01_architecture.md, part 3: resets and D-states of functions, virtual functions, MSI-X, configuration
requests (R17, R417, R421, R425 to R428).
-/
namespace Sys2Proof.Machine

/-! ### What each action comes to -/

section
variable {h : Hub} {fn : Nat}

/-- A virtual function's reset is its own alone (R425). -/
theorem initiateFlr_vf (hf : (func h fn).flr = false) (hn : fn ≠ 0) : initiateFlr h fn = flrOne h fn := by
  simp [initiateFlr, hf, hn]

/-- The physical function takes its VFs with it (R426). -/
theorem initiateFlr_pf (hf : (func h 0).flr = false) : initiateFlr h 0 = flrOne (if (func h 0).vfEn then vfGone h else h) 0 := by
  simp [initiateFlr, hf]

theorem flrDone_ends (hf : (func h fn).flr = true) : flrDone h fn = setFunc h fn { func h fn with flr := false } := by
  simp [flrDone, hf]

/-- D3hot suspends the function's ACTIVE contexts (R428). -/
theorem d3hot_enters (hf : (func h fn).flr = false) (hp : (func h fn).pm = 0) :
    d3hot h fn =
      (let cs := (funcCtxs h fn).filter fun c => ctxState h c == 2
       each cs (setFunc h fn { func h fn with pm := 3, suspended := cs }) suspendCtx) := by
  simp [d3hot, hf, hp]

theorem vfEnable_sets (hv : (func h 0).vfEn = false) (ha : (func h 0).ariHier = true) :
    vfEnable h true = setFunc h 0 { func h 0 with vfEn := true } := by
  simp [vfEnable, hv, ha]

theorem vfEnable_clears (hv : (func h 0).vfEn = true) :
    vfEnable h false = setFunc (vfGone h) 0 { func (vfGone h) 0 with vfEn := false } := by
  simp [vfEnable, hv]

section
variable (hc : ctlUp h = true) (hf : (func h fn).flr = false) (ho : funcOn h fn = true)
include hc hf ho

theorem cfgRequest_read (off : Nat) :
    cfgRequest h fn off none = emit (cfgRead h fn off).2 .cfgCpl fn [off, (cfgRead h fn off).1] := by
  simp [cfgRequest, hc, hf, ho]

/-- A write reaches the bytes that its byte enables name. -/
theorem cfgRequest_write (off be v : Nat) :
    cfgRequest h fn off (some (be, v)) =
      emit (cfgWrite h fn off ((List.range 4).foldl (fun a i => if bitOf be i then a + 255 * 256 ^ i else a) 0) (v % 2 ^ 32))
        .cfgCpl fn [off] := by
  simp [cfgRequest, hc, hf, ho]

end

end

/-! ### Their gates -/

section
variable {s : State} {fn : Nat}

/-- A configuration action reaches a function that configuration requests reach (R411). -/
theorem Does.of_cfgRow {c : Instr} {f : Hub → Hub} {k : Hub} (he : exec c s = cfgRow s fn f) (hu : endpointUp s.hub = true)
    (hc : ctlUp s.hub = true) (ho : funcOn s.hub fn = true) (hn : fn < 64) (hf : f s.hub = k) : Does c s k :=
  .of_actUnit he (by simp [hn]) (by simp [hu, hc, ho, hf])

/-- Initiate FLR reaches its function while either half is up (R17). -/
theorem initiateFlr_does (hu : endpointUp s.hub = true) (hc : (ctlUp s.hub || dataUp s.hub) = true) (ho : funcOn s.hub fn = true)
    (hn : fn < 64) : Does (.initiateFlr fn) s (initiateFlr s.hub fn) :=
  .of_actUnit (exec_initiateFlr s fn) (by simp [hn]) (by simp only [hu, hc, ho, Bool.and_self, if_true])

theorem configRequest_does {off : Nat} (w : Option (Nat × Nat)) (hp : s.hub.pcie.up = true) (hn : fn < 64) (hl : off < 4096)
    (hm : off % 4 = 0) : Does (.configRequest fn off w) s (cfgRequest s.hub fn off w) :=
  .of_actUnit (exec_configRequest s fn off w) (by simp [hn, hl, hm]) (by simp [hp])

end

/-- Settles O20: each command passes its gate, and the equations of the actions are the statement's cases. -/
theorem functionCommands : Obligations.FunctionCommands := by
  refine ⟨fun s fn hu hc ho hn => ⟨fun hf h0 => ?_, fun hf => ?_⟩,
    fun s fn hu hc ho hn => ⟨fun hf hp => ?_, fun _ _ => ?_, fun hf hv ha => ?_, fun hf hv => ?_⟩,
    fun s fn hn hf => ?_, fun s fn vec hn hv ho => ?_, fun s fn off be v hp hc hf ho hn hl hm => ⟨?_, ?_⟩⟩
  · exact initiateFlr_vf hf h0 ▸ initiateFlr_does hu hc ho hn
  · exact initiateFlr_pf hf ▸ initiateFlr_does hu hc rfl (by decide)
  · exact .of_cfgRow (exec_d3hotEntry s fn) hu hc ho hn (d3hot_enters hf hp)
  · exact .of_cfgRow (exec_d0Return s fn) hu hc ho hn rfl
  · exact .of_cfgRow (exec_vfEnable s true) hu hc rfl (by decide) (by simp [hf, vfEnable_sets hv ha])
  · exact .of_cfgRow (exec_vfEnable s false) hu hc rfl (by decide) (by simp [hf, vfEnable_clears hv])
  · exact .of_actUnit (exec_flrDone s fn) (by simp [hn]) (flrDone_ends hf)
  · exact .of_actUnit (exec_msixUnmask s fn vec) (by simp [hn, hv]) (by simp [ho])
  · exact cfgRequest_read hc hf ho off ▸ configRequest_does none hp hn hl hm
  · exact cfgRequest_write hc hf ho off be v ▸ configRequest_does (some (be, v)) hp hn hl hm

end Sys2Proof.Machine
end

section
/-!
Proofs of the statements of 02_tile_streams.md, part 1: doorbells, queue registers and the route table (R47, R48, R56, R57, R62).
-/
namespace Sys2Proof.Machine

/-! ### Events of a context's stream registers -/

section
variable {h : Hub} {e : Evt} {c q : Nat}

/-- An event with its slot keeps a hub quiet: none of its registers is CTX.STATUS. -/
theorem quiet_sevt (hf : e.flag.reg ≠ .ctxStatus) (hc : e.cnt.reg ≠ .ctxStatus) (hq : h.quiet = true) : (sevt h e c q).quiet = true :=
  quiet_setFld c q (by decide) (quiet_raise e c hf hc hq)

theorem quiet_setQrec {r : QRec} (hq : h.quiet = true) : (setQrec h c q r).quiet = true :=
  quiet_of_same rfl rfl ⟨rfl, rfl, rfl, rfl, rfl, rfl, rfl⟩ hq

@[simp] theorem sevt_routes : (sevt h e c q).routes = h.routes := by simp only [sevt, setFld_routes, raise_routes]

/-- A field outside the registers of the event and of LAST_SLOT keeps its value. -/
theorem fld_sevt_reg {f : Fld} (i : Nat) (hl : f.reg ≠ F.ctxSevtCnt2LastSlot.reg) (hf : f.reg ≠ e.flag.reg) (hc : f.reg ≠ e.cnt.reg) :
    fld (sevt h e c q) f i = fld h f i := by
  rw [sevt, fld_setFld_reg _ _ _ _ hl, fld_raise_reg _ _ _ hf hc]

end

/-! ### Doorbells (R56, R57) -/

theorem Hub.rides_iff (h : Hub) : h.rides = true ↔ serving h = true ∧ h.pwr.state = 0 := by simp [Hub.rides]

/-- The context behind a page does not take doorbells of function `fn`: it is killed (R359), or assigned to a VF while the physical
function writes (R419). -/
def shutCtx (h : Hub) (fn c : Nat) : Prop := wasKilled h c = true ∨ (fn = 0 ∧ ctxFunc h c ≠ 0)

/-- The counts that a doorbell covers are written, SQ_TAIL first. -/
def writeCounts (h : Hub) (c q : Nat) : Option Nat → Option Nat → Hub
  | none, none => h
  | some v, none => sqTail h c q (v % 2 ^ 32)
  | none, some w => cqHead h c q (w % 2 ^ 32)
  | some v, some w => cqHead (sqTail h c q (v % 2 ^ 32)) c q (w % 2 ^ 32)

section
variable {h : Hub} {fn page c q : Nat}

section
variable (hr : h.rides = true) (hp : pageCtx h fn page = some c)
include hr hp

theorem doorbell_dropped (hs : qState h c q = 0 ∨ qState h c q = 3 ∨ shutCtx h fn c) (sq cq : Option Nat) :
    doorbell h fn page q sq cq = sevt h E.ctxSevtDbDropped c q := by
  obtain ⟨hv, hw⟩ := h.rides_iff.1 hr
  have hdrop : (qState h c q = 0 || qState h c q = 3 || wasKilled h c || (fn = 0 && ctxFunc h c != 0)) = true := by
    simpa [shutCtx, or_assoc] using hs
  have hc : coastExit h = h := coastExit_of_ne (by omega)
  simp only [doorbell, hp, hv, hw, hc, hdrop, Bool.not_true, Bool.false_eq_true, OfNat.zero_ne_ofNat, if_false, if_true]

theorem doorbell_taken (hs : qState h c q = 1 ∨ qState h c q = 2) (hn : ¬ shutCtx h fn c) (sq cq : Option Nat) :
    doorbell h fn page q sq cq = writeCounts h c q sq cq := by
  obtain ⟨hv, hw⟩ := h.rides_iff.1 hr
  have htake : (qState h c q = 0 || qState h c q = 3 || wasKilled h c || (fn = 0 && ctxFunc h c != 0)) = false := by
    obtain ⟨hk, hf⟩ := not_or.1 hn
    have : qState h c q ≠ 0 ∧ qState h c q ≠ 3 := by omega
    simpa [this, hk] using hf
  have hc : coastExit h = h := coastExit_of_ne (by omega)
  simp only [doorbell, hp, hv, hw, hc, htake, Bool.not_true, Bool.false_eq_true, OfNat.zero_ne_ofNat, if_false]
  cases sq <;> cases cq <;> rfl

end

section
variable {v : Nat}

theorem sqTail_same (hd : (v + 2 ^ 32 - (qrec h c q).sqTail) % 2 ^ 32 = 0) : sqTail h c q v = h := by
  simp only [sqTail, if_pos hd]

theorem sqTail_stale (hd : 2 ^ 31 ≤ (v + 2 ^ 32 - (qrec h c q).sqTail) % 2 ^ 32) : sqTail h c q v = sevt h E.ctxSevtDbStale c q := by
  have hne : ¬ (v + 2 ^ 32 - (qrec h c q).sqTail) % 2 ^ 32 = 0 := by omega
  simp only [sqTail, if_neg hne, if_pos hd]

/-- A step forward that stays within the ring moves SQ_TAIL. -/
theorem sqTail_moves (h0 : 0 < (v + 2 ^ 32 - (qrec h c q).sqTail) % 2 ^ 32) (h1 : (v + 2 ^ 32 - (qrec h c q).sqTail) % 2 ^ 32 < 2 ^ 31)
    (hr : (v + 2 ^ 32 - qHead h c q) % 2 ^ 32 ≤ 2 ^ fld h F.ctxQcfgSqLog2 (qkey c q)) :
    sqTail h c q v = setQrec h c q { qrec h c q with sqTail := v } := by
  simp only [sqTail, if_neg h0.ne', if_neg h1.not_ge, if_neg hr.not_gt]

end

end

/-- A doorbell through an open page leaves what `doorbell` leaves. -/
theorem doorbellWrite_does {s : State} {fn page q : Nat} {sq cq : Option Nat} {k : Hub} (hf : fn < 64) (hp : page < 8192) (hq : q < 64)
    (ho : memOpen s.hub fn = true) (hd : doorbell s.hub fn page q sq cq = k) : Does (.doorbellWrite fn page q sq cq) s k :=
  .of_actUnit (exec_doorbellWrite s fn page q sq cq) (by simp [hf, hp, hq]) (by rw [if_pos ho, hd])

/-- Settles O38: a doorbell that is taken is `sqTail`, whose three cases are the statement's; the others are dropped with their event. -/
theorem doorbellCounts : Obligations.DoorbellCounts := by
  intro s fn page q c v hq hfn hpage hslot ho hr hp r d shut
  have rung {k : Hub} (hk : k.quiet = true) (hd : doorbell s.hub fn page q (some v) none = k) :
      DoesOnly (.doorbellWrite fn page q (some v) none) s k :=
    (doorbellWrite_does hfn hpage hslot ho hd).only hk
  have taken (hn : ¬ shut) (hs : qState s.hub c q = 1) : doorbell s.hub fn page q (some v) none = sqTail s.hub c q (v % 2 ^ 32) :=
    doorbell_taken hr hp (.inl hs) hn (some v) none
  refine ⟨fun hn hs hd => ?_, fun hn hs hd => ?_, fun hn hs h0 h1 hin => ?_, fun hs => ?_⟩
  · exact rung hq ((taken hn hs).trans (sqTail_same hd))
  · exact rung (quiet_sevt (by decide) (by decide) hq) ((taken hn hs).trans (sqTail_stale hd))
  · exact rung (quiet_setQrec hq) ((taken hn hs).trans (sqTail_moves h0 h1 hin))
  · exact rung (quiet_sevt (by decide) (by decide) hq) (doorbell_dropped hr hp hs (some v) none)

/-! ### Queue registers (R62) -/

section
variable {h : Hub} {c : Nat}

theorem queueCfg_refused (hs : qState h c (qsel h c) ≠ 0) (w v : Nat) : queueCfg h c w v = queueRefused h c (qsel h c) := by
  simp [queueCfg, hs]

/-- The settings of a FREE slot are stored, their reserved bits as 0. -/
theorem queueCfg_stores (hs : qState h c (qsel h c) = 0) (v : Nat) :
    queueCfg h c 0 v = setReg h .ctxQsqBase (qkey c (qsel h c)) (v &&& Reg.ctxQsqBase.info.rw) ∧
    queueCfg h c 1 v = setReg h .ctxQcqBase (qkey c (qsel h c)) (v &&& Reg.ctxQcqBase.info.rw) ∧
    queueCfg h c 2 v = setReg h .ctxQcfg (qkey c (qsel h c)) (v &&& Reg.ctxQcfg.info.rw) := by
  simp [queueCfg, hs]

/-- What CREATE requires of the selected slot, of its settings and of the context. -/
def createOk (h : Hub) (c : Nat) : Bool :=
  let k := qkey c (qsel h c)
  let okLog (n : Nat) : Bool := decide (4 ≤ n) && decide (n ≤ 16)
  qState h c (qsel h c) == 0 && okLog (fld h F.ctxQcfgSqLog2 k) && okLog (fld h F.ctxQcfgCqLog2 k)
    && decide (fld h F.ctxQcfgVector k < vectors (ctxFunc h c)) && getReg h .ctxQsqBase k % 4096 == 0
    && getReg h .ctxQcqBase k % 4096 == 0 && ctxLive h c

theorem createOk_eq_false_iff : createOk h c = false ↔
    qState h c (qsel h c) ≠ 0 ∨ fld h F.ctxQcfgSqLog2 (qkey c (qsel h c)) < 4 ∨ 16 < fld h F.ctxQcfgSqLog2 (qkey c (qsel h c)) ∨
      fld h F.ctxQcfgCqLog2 (qkey c (qsel h c)) < 4 ∨ 16 < fld h F.ctxQcfgCqLog2 (qkey c (qsel h c)) ∨
      vectors (ctxFunc h c) ≤ fld h F.ctxQcfgVector (qkey c (qsel h c)) ∨ getReg h .ctxQsqBase (qkey c (qsel h c)) % 4096 ≠ 0 ∨
      getReg h .ctxQcqBase (qkey c (qsel h c)) % 4096 ≠ 0 ∨ ctxLive h c = false := by
  simp only [createOk, Bool.and_eq_false_iff, beq_eq_false_iff_ne, decide_eq_false_iff_not, Nat.not_le, Nat.not_lt, or_assoc]

theorem queueCreate_refused (hk : createOk h c = false) : queueCreate h c = queueRefused h c (qsel h c) := by
  simp only [createOk] at hk
  simp [queueCreate, hk]

/-- The number goes to the queue, whose counts begin at 0, and the queue is ACTIVE. -/
theorem queueCreate_takes {n : Nat} {k : Hub} (hk : createOk h c = true) (hp : pickQueue h = some (n, k)) :
    queueCreate h c =
      (let m := { k with queues := tset k.queues (qkey c (qsel h c)) {}, qnums := n :: k.qnums }
       countQnums (setFld (setFld (setReg (setReg m .ctxQstat (qkey c (qsel h c)) 0) .ctxQpos (qkey c (qsel h c)) 0)
         F.ctxQstatState (qkey c (qsel h c)) 1) F.ctxQstatQnum (qkey c (qsel h c)) n)) := by
  simp only [createOk] at hk
  simp only [queueCreate, hk, if_true, hp]

theorem queueDestroy_drains (hs : qState h c (qsel h c) ≠ 0) : queueDestroy h c = destroyQueue h c (qsel h c) := by
  simp only [queueDestroy, if_neg hs]

/-! ### Route windows and entries (R47, R48) -/

theorem routeWin_dropped {b n : Nat} (hb : 65536 < b + n) : routeWin h c b n = h := by
  simp only [routeWin, if_pos hb]

theorem routeWin_sets {b n : Nat} (hb : b + n ≤ 65536) :
    routeWin h c b n = setFld (setFld h F.ctxRouteWinBase c b) F.ctxRouteWinCount c n := by
  simp only [routeWin, if_neg (Nat.not_lt.2 hb)]

theorem routeRes_done : routeRes h c 0 = setFld h F.ctxRouteCtlResult c 0 := rfl

/-- Outside the window a write gives RESULT 1 and its event, and stores nothing. -/
theorem routeWrite_outside (hi : fld h F.ctxRouteWinCount c ≤ fld h F.ctxRouteSelIndex c) : routeWrite h c =
    sevt (setFld h F.ctxRouteCtlResult c 1) E.ctxSevtRouteRefused c (qsel (setFld h F.ctxRouteCtlResult c 1) c) := by
  simp [routeWrite, routeRes, Nat.not_lt.2 hi]

theorem routeWrite_stores (hi : fld h F.ctxRouteSelIndex c < fld h F.ctxRouteWinCount c) (hr : routeResult h c (slotImages h c) = 0) :
    routeWrite h c =
      (let k := setFld h F.ctxRouteCtlResult c 0
       { k with routes := tset k.routes (fld k F.ctxRouteWinBase c + fld h F.ctxRouteSelIndex c) (slotImages h c) }) := by
  simp only [routeWrite, if_pos hi, hr, routeRes_done, if_true]

theorem routeRead_shows {sl : List Nat} (he : routeEntry h c (fld h F.ctxRouteSelIndex c) = some sl) : routeRead h c =
    setFld (each (List.range 8) h fun h i => setReg h .ctxRouteSlot0 (c * 8 + i) (sl.getD i 0)) F.ctxRouteCtlResult c 0 := by
  simp only [routeRead, he, routeRes_done]

end

/-- Settles O39: each refusal is its equation above, and an event or nothing keeps the hub quiet. -/
theorem queueRefusals : Obligations.QueueRefusals := by
  intro s c hq hr hc q no
  have refused {i : Instr} {ok : Bool} {f : Hub → Hub} (he : exec i s = dataReg s ok f) (hk : ok = true)
      (hf : f s.hub = queueRefused s.hub c q) : no i :=
    .of_dataReg he hk hr hf (quiet_sevt (by decide) (by decide) hq)
  refine ⟨fun w v hw hs => ?_, fun hbad => ?_, fun b n hb hn hbn => ?_, fun hi => ?_⟩
  · exact refused (exec_queueCfgWrite s c w v) (by simp [hc, hw]) (queueCfg_refused hs w v)
  · exact refused (exec_queueCreate s c) (by simp [hc]) (queueCreate_refused (createOk_eq_false_iff.2 hbad))
  · exact .of_dataReg (exec_routeWinWrite s c b n) (by simp [hc, hb, hn]) hr (routeWin_dropped hbn) hq
  · refine ⟨_, .of_dataReg (exec_routeWrite s c) (by simp [hc]) hr (routeWrite_outside hi)
      (quiet_sevt (by decide) (by decide) (quiet_setFld _ _ (by decide) hq)), ?_, ?_⟩
    · rw [fld_sevt_reg _ (by decide) (by decide) (by decide), fld_setFld_same _ _ _ _ (by decide)]
      rfl
    · rw [sevt_routes, setFld_routes]

theorem isQueue_iff (c q : Nat) : isQueue c q = true ↔ c < 8192 ∧ q < 64 := by simp [isQueue]

/-- Settles O37: each command passes its gate, and the equations above say what it leaves. -/
theorem queueCommands : Obligations.QueueCommands := by
  refine ⟨fun s c hr hc => ?_, fun s c q hr hc hq hs hd => ?_, fun s fn page q c sq cq hfn hpage hq ho hr hp hs hk hf => ?_⟩
  · have hctx : decide (c < 8192) = true := decide_eq_true hc
    refine ⟨fun v hs => ?_, fun n k hs hsl hsh hcl hch hv hsb hcb hl hp => ?_, fun hs => ?_, fun _ _ _ => ?_, fun b n hb hn hbase => ?_,
      fun hi hz => ?_, fun sl he => ?_⟩
    · obtain ⟨hsq, hcq, hcfg⟩ := queueCfg_stores hs v
      exact ⟨.of_dataReg (exec_queueCfgWrite s c 0 v) (by simp [hc]) hr hsq,
        .of_dataReg (exec_queueCfgWrite s c 1 v) (by simp [hc]) hr hcq, .of_dataReg (exec_queueCfgWrite s c 2 v) (by simp [hc]) hr hcfg⟩
    · have hok : createOk s.hub c = true := by simp [createOk, hs, hsl, hsh, hcl, hch, hv, hsb, hcb, hl]
      exact .of_dataReg (exec_queueCreate s c) hctx hr (queueCreate_takes hok hp)
    · exact .of_dataReg (exec_queueDestroy s c) hctx hr (queueDestroy_drains hs)
    · exact .of_dataReg (exec_queueResume s c) hctx hr rfl
    · exact .of_dataReg (exec_routeWinWrite s c b n) (by simp [hc, hn, hbase]) hr (routeWin_sets hb)
    · exact .of_dataReg (exec_routeWrite s c) hctx hr (routeWrite_stores hi hz)
    · exact .of_dataReg (exec_routeRead s c) hctx hr (routeRead_shows he)
  · exact .of_inData (exec_queueDrained s c q) ((isQueue_iff c q).2 ⟨hc, hq⟩) hr (by simp [hs, hd])
  · have hopen : ¬ shutCtx s.hub fn c := by
      rintro (hkilled | ⟨h0, hvf⟩)
      · simp [hk] at hkilled
      · exact hvf (hf h0)
    have rung (a b : Option Nat) := doorbellWrite_does hfn hpage hq ho (doorbell_taken hr hp hs hopen a b)
    exact ⟨rung (some sq) none, rung none (some cq), rung (some sq) (some cq)⟩

end Sys2Proof.Machine
end

section
/-!
Proofs of the statements of 02_tile_streams.md, part 2: commands as they are read, decoded and carried on, and the operations of tile
stations (R50, R53, R54, R58, R64 to R70, R222, R273).
-/
namespace Sys2Proof.Machine

/-! ### Reading a command (R54) -/

/-- The command that 64 bytes read from a queue become. -/
def readAs (h : Hub) (c q : Nat) (bs : List Byte) : Cmd := { ctx := c, slot := q, count := (qrec h c q).nextRd, raw := bs, step := 2 }

@[simp] theorem readAs_opcode (h : Hub) (c q : Nat) (bs : List Byte) : (readAs h c q bs).opcode = numAt bs 0 1 := rfl

/-- The hub `k` that the read left, with the command joined to its queue and the next count up by one. -/
def joined (h k : Hub) (c q : Nat) (bs : List Byte) : Hub :=
  let m := setQrec k c q { qrec k c q with nextRd := ((qrec h c q).nextRd + 1) % 2 ^ 32 }
  { m with cmds := m.cmds ++ [readAs h c q bs] }

/-- A command of one RANGE kind is no NOP. -/
theorem opcode_of_isRange {n : Nat} {bs : List Byte} (hb : isRange n bs = true) : numAt bs 0 1 ≠ 0 := by
  simp only [isRange, Bool.and_eq_true, beq_iff_eq] at hb
  omega

section
variable {h k : Hub} {c q : Nat} {bs : List Byte} {want : List Byte → Bool}
variable (hi : issuing h c = true) (hs : qState h c q = 1) (hn : (qrec h c q).nextRd ≠ (qrec h c q).sqTail)
  (hv : vaRead h c (getReg h .ctxQsqBase (qkey c q) + (qrec h c q).nextRd % 2 ^ fld h F.ctxQcfgSqLog2 (qkey c q) * 64) 64 (dspWho h c q) =
    (some (bs, []), k)) (hw : want bs = true)
include hi hs hn hv hw

/-- A command that is wanted joins its queue; a NOP in its turn goes on to its checks at once. -/
theorem readCmd_joins : readCmd h c q want =
    if numAt bs 0 1 = 0 ∧ myTurn (joined h k c q bs) (readAs h c q bs) = true then decodeCmd (joined h k c q bs) (readAs h c q bs)
    else joined h k c q bs := by
  have hopen : (!issuing h c || qState h c q != 1 || (qrec h c q).nextRd == (qrec h c q).sqTail) = false := by simp [hi, hs, hn]
  simp only [readCmd, hopen, hv, hw, List.isEmpty_nil, Bool.not_true, Bool.and_false, Bool.false_eq_true, if_false, if_true]
  change (if ((readAs h c q bs).opcode == 0 || false) && myTurn (joined h k c q bs) (readAs h c q bs)
    then decodeCmd (joined h k c q bs) (readAs h c q bs) else joined h k c q bs) = _
  simp only [readAs_opcode, Bool.or_false, Bool.and_eq_true, beq_iff_eq]

theorem readCmd_nop (ho : numAt bs 0 1 = 0) (ht : myTurn (joined h k c q bs) (readAs h c q bs) = true) :
    readCmd h c q want = decodeCmd (joined h k c q bs) (readAs h c q bs) :=
  (readCmd_joins hi hs hn hv hw).trans (if_pos ⟨ho, ht⟩)

theorem readCmd_other (ho : numAt bs 0 1 ≠ 0) : readCmd h c q want = joined h k c q bs :=
  (readCmd_joins hi hs hn hv hw).trans (if_neg fun hc => ho hc.1)

end

/-! ### Commands under way (R53, R58, R66) -/

section
variable {h : Hub} {c q : Nat} {x : Cmd}

theorem decodeNext_decodes (hi : issuing h c = true) (hs : qState h c q = 1) (hx : ((cmdsOf h c q).find? fun x => x.step == 2) = some x)
    (ht : myTurn h x = true) : decodeNext h c q = decodeCmd h x := by
  simp [decodeNext, hi, hs, hx, ht]

/-- Once no guest's answer is outstanding an acquire ends, and its command asks for its pages. -/
theorem acqDone_ends (hx : ((cmdsOf h c q).find? fun x => x.step == 5 && x.rangeOp.isSome) = some x)
    (hw : (findOp (houseRange h (x.rangeOp.getD 0) x.inputs) (x.rangeOp.getD 0)).any (fun o => !o.waitFor.isEmpty) = false) :
    acqDone h c q =
      (let m := houseRange h (x.rangeOp.getD 0) x.inputs
       askPages (putCmd { m with ops := dropIf m.ops fun o => o.opid == x.rangeOp.getD 0 } { x with step := 6, rangeOp := none })
         { x with step := 6, rangeOp := none }) := by
  simp only [acqDone, hx, hw, Bool.false_eq_true, if_false]

theorem flushDone_ends (hx : ((cmdsOf h c q).find? fun x => x.issued != 0 && (x.step == 8 || x.step == 9)) = some x)
    (hr : x.rangeOp = none) : flushDone h c q = opsDone h x := by
  simp only [flushDone, hx, hr]

theorem retryWait_waits (hi : issuing h c = true)
    (hx : ((cmdsOf h c q).find? fun x => x.step == 4 && x.tried && !x.waiting) = some x) :
    retryWait h c q = semWait h (.cmd q x.count) c x.waitSem (toSigned 64 (numAt x.raw 40 8)) none := by
  simp [retryWait, hi, hx]

section
variable {n : Nat} (hx : findCmd h c q n = some x)
include hx

theorem recordAcked_posts (ha : x.recAck = 1) : recordAcked h c q n = postCmd h x := by
  simp only [recordAcked, hx, ha, if_true]

/-- A record that did not take effect posts nothing. -/
theorem recordAcked_drops (ha : x.recAck = 2) : recordAcked h c q n = dropCmd h x := by
  simp [recordAcked, hx, ha]

end

end

/-- Settles O35: a read is `readCmd_joins`, and each of the others is its equation above behind the gate of the data half. -/
theorem commandReads : Obligations.CommandReads := by
  refine ⟨fun s c q bs k hr hc hq hi hs hn hv => ?_, fun s c q x hr hc hq => ?_⟩
  · have hk := (isQueue_iff c q).2 ⟨hc, hq⟩
    refine ⟨fun ho ht => ?_, fun ho h1 h2 h3 => ?_, fun hb => ?_, fun hb => ?_, fun hb => ?_⟩
    · exact .of_inData (exec_cmdNop s c q) hk hr (readCmd_nop hi hs hn hv (beq_iff_eq.2 ho) ho ht)
    · exact .of_inData (exec_cmdRoute s c q) hk hr (readCmd_other hi hs hn hv (by simp [ho, h1, h2, h3]) ho)
    · exact .of_inData (exec_rangeFlush s c q) hk hr (readCmd_other hi hs hn hv hb (opcode_of_isRange hb))
    · exact .of_inData (exec_rangeClean s c q) hk hr (readCmd_other hi hs hn hv hb (opcode_of_isRange hb))
    · exact .of_inData (exec_rangeInval s c q) hk hr (readCmd_other hi hs hn hv hb (opcode_of_isRange hb))
  · have hk := (isQueue_iff c q).2 ⟨hc, hq⟩
    refine ⟨fun hi hs hx ht => ?_, ?_, fun hx hw => ?_, fun hi => ?_, fun hx hn => ?_, fun n hx => ⟨fun ha => ?_, fun ha => ?_⟩,
      fun hi hx => ?_⟩
    · exact .of_inData (exec_cmdDescriptorRead s c q) hk hr (decodeNext_decodes hi hs hx ht)
    · exact .of_inData (exec_cmdFenceRelease s c q) hk hr rfl
    · exact .of_inData (exec_cmdAcqInvalDone s c q) hk hr (acqDone_ends hx hw)
    · exact .of_inData (exec_cmdTranslationDone s c q) hk hr (if_pos hi)
    · exact .of_inData (exec_cmdFlushDone s c q) hk hr (flushDone_ends hx hn)
    · exact .of_inData (exec_cplRecordAck s c q n) hk hr (recordAcked_posts hx ha)
    · exact .of_inData (exec_cplRecordAck s c q n) hk hr (recordAcked_drops hx ha)
    · exact .of_inData (exec_waitTableRetry s c q) hk hr (retryWait_waits hi hx)

/-! ### Issue and ends of operations (R64 to R70, R222) -/

section
variable {h : Hub} {c q : Nat} {x : Cmd}
variable (hx : ((cmdsOf h c q).find? fun x => x.step == 7 && (decide (x.issued < x.total) || (x.opcode == 2 && x.rangeOp.isNone))) = some x)
  (hi : issuing h c = true) (hs : qState h c q = 1) (ht : myTurn h x = true) (hc : cqRoom h c q = true)
  (ho : queueOps h c q < odNum h OD.dspQueueOps)
include hx hi hs ht hc ho

/-- In its turn, with room in the completion ring and below the queue's limit, a command issues its next operation. -/
theorem issueNext_issues (hop : x.opcode ≠ 2) : issueNext h c q = issueOp h x := by
  simp [issueNext, hx, hi, hs, ht, hc, hop, Nat.not_le.2 ho]

/-- And a RANGE command starts its range operation, which the house stations carry out at once. -/
theorem issueNext_ranges (hop : x.opcode = 2) {id : Nat} {k : Hub} (hr : startRange h x x.rangeKind x.inputs x.stations = some (id, k)) :
    issueNext h c q = houseRange (putCmd k { x with rangeOp := some id, issued := 1, total := 1 }) id x.inputs := by
  simp [issueNext, hx, hi, hs, ht, hc, hop, hr, Nat.not_le.2 ho]

end

/-- A house station is done when it has computed and sent all of its output. -/
theorem houseDone_ends {h : Hub} {id : Nat} {o : TileOp} (hf : findOp h id = some o) (hr : o.range = 0) (hc : o.computed = true)
    (hd : o.doneSt = none) (hl : (outFlits o).length ≤ o.outPos) :
    houseDone h id = opDone h o (if o.bad = 0 then 0 else 1) o.badDetail := by
  simp [houseDone, hf, hr, hc, hd, Nat.not_lt.2 hl]

/-- Settles O36: issue and the end of a house station's operation are the equations above; the others are their meaning behind the
gate of the data half. -/
theorem operationCommands : Obligations.OperationCommands := by
  refine ⟨fun s c q x hr hc hq hx hi hs ht hroom ho => ⟨fun hop => ?_, fun hop id k hk => ?_⟩, fun s id a b hurt hr => ?_,
    fun s site id row fl sm form sc bs bad hr => ⟨?_, fun hl hf => ?_⟩, fun s site stn n form hr hl hn hf => ?_,
    fun s site stn id st form hr => ⟨fun o hf h0 hcomp hd hout => ?_, fun hl hn hst hf => ?_⟩⟩
  · exact .of_inData (exec_tileOpIssue s c q) ((isQueue_iff c q).2 ⟨hc, hq⟩) hr (issueNext_issues hx hi hs ht hroom ho hop)
  · exact .of_inData (exec_tileOpIssue s c q) ((isQueue_iff c q).2 ⟨hc, hq⟩) hr (issueNext_ranges hx hi hs ht hroom ho hop hk)
  · exact .of_inData (exec_topRow s id a b hurt) rfl hr rfl
  · exact .of_inData (exec_topOut s true site id row fl sm sc bs bad form) rfl hr rfl
  · exact .of_inData (exec_topOut s false site id row fl sm sc bs bad form) (by simp [hl, hf]) hr rfl
  · exact .of_inData (exec_topCredit s site stn n form) (by simp [hl, hn, hf]) hr rfl
  · exact .of_inData (exec_topDone s true site stn id st form) rfl hr (houseDone_ends hf h0 hcomp hd hout)
  · exact .of_inData (exec_topDone s false site stn id st form) (by simp [hl, hn, hst, hf]) hr rfl

end Sys2Proof.Machine
end

section
/-!
Proofs of the statements of 03_crank.md, part 1: the integer sums of a crank (R94, R95).
-/
namespace Sys2Proof.Machine

/-! ### The exact sum (R94) -/

/-- A fold that adds a value of each element adds their sum. -/
theorem foldl_add_eq_sum {α : Type} (f : α → Int) (xs : List α) (acc : Int) :
    xs.foldl (fun a x => a + f x) acc = acc + (xs.map f).sum := by
  induction xs generalizing acc with
  | nil => simp
  | cons x xs ih => simp [ih, add_assoc]

/-- A number made from an integer has that integer as its signed magnitude. -/
theorem signed_natAbs (v : Int) : (if decide (v < 0) = true then -(v.natAbs : Int) else v.natAbs) = v := by
  simp only [decide_eq_true_eq]
  split <;> omega

/-- What one pair of operands adds to the integer sum of a line. -/
def macInt (acc : Int) (e : Num × Num) : Int :=
  match e.1, e.2 with
  | .fin s m _, .fin t n _ => acc + (if s then -(m : Int) else m) * (if t then -(n : Int) else n)
  | _, _ => acc

/-- The integer sum of a line is that of its pairs, block after block. -/
theorem intLine_eq_foldl (a b : Line) : intLine a b = (a.zip b).foldl (fun acc p => (p.1.2.zip p.2.2).foldl macInt acc) 0 := rfl

theorem macInt_numOfInt (acc x y : Int) : macInt acc (numOfInt x 0, numOfInt y 0) = acc + x * y := by
  simp only [macInt, numOfInt, signed_natAbs]

/-- The operands that integers stand for, in blocks as `bs` has them. -/
def intOperands (bs : List (List (Int × Int))) (side : Int × Int → Int) : Line :=
  bs.map fun b => (some 0, b.map fun p => numOfInt (side p) 0)

/-- Of integer operands the sum is exact, however the pairs lie in blocks (R94). -/
theorem intLine_exact (bs : List (List (Int × Int))) :
    intLine (intOperands bs Prod.fst) (intOperands bs Prod.snd) = (bs.map fun b => (b.map fun p => p.1 * p.2).sum).sum := by
  have block (b : List (Int × Int)) (acc : Int) :
      b.foldl (fun a p => macInt a (numOfInt p.1 0, numOfInt p.2 0)) acc = acc + (b.map fun p => p.1 * p.2).sum := by
    simp only [macInt_numOfInt, foldl_add_eq_sum]
  simp only [intLine_eq_foldl, intOperands, List.zip_map', List.foldl_map, block, foldl_add_eq_sum, zero_add]

/-! ### Its INT32 code (R95) -/

/-- Nothing is rounded at the exponent asked for. -/
theorem nearest_self (m : Nat) (e : Int) : nearest m e e = m := by simp [nearest]

/-- The integer code of an integer is that of the nearest value in range, and says whether there was another (R95). -/
theorem intCode_numOfInt {lo hi : Int} (w : Nat) (v : Int) (hr : lo ≤ hi) :
    intCode w lo hi (numOfInt v 0) = (ofSigned w (max lo (min hi v)), decide (v < lo ∨ hi < v)) := by
  simp only [intCode, numOfInt, nearest_self, signed_natAbs]
  by_cases hl : v < lo
  · have hm : max lo (min hi v) = lo := by omega
    simp [hl, hm]
  · by_cases hh : hi < v
    · have hm : max lo (min hi v) = hi := by omega
      simp [hl, hh, hm]
    · have hm : max lo (min hi v) = v := by omega
      simp [hl, hh, hm]

theorem ofSigned_eq_ofInt (w : Nat) (v : Int) : ofSigned w v = (BitVec.ofInt w v).toNat := by
  simp [ofSigned, BitVec.toNat_ofInt]

/-- With INT8 inputs and INT32 output a crank gives the code of the integer sum and counts its saturation alone. -/
theorem crankElem_int {c : CrankFunc} (hc : c.fmt = 13) (al : Option Num) (a b : Line) :
    crankElem c 12 al a b =
      (let k := intCode 32 (-(2 ^ 31)) (2 ^ 31 - 1) (numOfInt (intLine a b) 0)
       (k.1, 0, b2n k.2)) := by
  simp only [crankElem, hc, if_true]

/-- Settles O44: the line's sum is exact by induction over its pairs and blocks, and its INT32 code is clamped to the range. -/
theorem integerSums : Obligations.IntegerSums := by
  intro c al bs hc
  change crankElem c 12 al (intOperands bs Prod.fst) (intOperands bs Prod.snd) = _
  rw [crankElem_int hc, intLine_exact, intCode_numOfInt 32 _ (by norm_num)]
  simp only [ofSigned_eq_ofInt, b2n, decide_eq_true_eq]

end Sys2Proof.Machine
end

section
/-!
Proofs of the statements of 03_crank.md, part 2: what the house stations compute (R92, R102, R108, R112, R115).
-/
namespace Sys2Proof.Machine

section
variable {h : Hub} {id n : Nat} {o : TileOp} {x : Cmd}
variable (hf : findOp h id = some o) (hx : opCmd h o = some x)
include hf hx

/-- An operation that stands ready at a station of the kind asked for is carried out. -/
theorem atHouse_ready {k j : Nat} (he : houseEnd o.station = some (j, n)) (hr : runsAt h k x o = true)
    (f : Hub → Cmd → TileOp → Nat → Hub) : atHouse h k id f = f h x o n := by
  simp only [atHouse, hf, hx, he, hr, if_true]

theorem crankRun_ready (he : houseEnd o.station = some (1, n)) (hr : runsAt h 1 x o = true) :
    crankRun h id =
      (let c := opCompute h x o
       let k := raiseN (raiseN (raiseN (computedOp h o c) E.crankFpOvf n c.ovf) E.crankIntSat n c.sat) E.crankShapeDemoted n c.note
       let k := addFld (setFld k F.crankStatusShape n (c.num % 8)) F.crankMacsMacs n (c.num / 8)
       addFree (addFree (addFree k F.crankBusyCycBusy n) F.crankLoadStallLoad n) F.crankInStallIn n) :=
  atHouse_ready hf hx he hr _

theorem vecRun_ready {op : Nat} (he : houseEnd o.station = some (2, n)) (hr : runsAt h 2 x o = true) (ho : vecOp o.func = op) :
    vecRun h op id =
      (let c := opCompute h x o
       addFree (addFld (raiseN (computedOp h o c) E.vecFpOvf n c.ovf) F.vecRowsRows n c.num) F.vecBusyCycBusy n) := by
  simp only [vecRun, atHouse_ready hf hx he hr, ho, bne_self_eq_false, Bool.false_eq_true, if_false]

theorem drlRun_ready {op : Nat} (he : houseEnd o.station = some (3, n)) (hr : runsAt h 3 x o = true) (ho : drlOp o.func = op) :
    drlRun h op id =
      (let c := opCompute h x o
       addFld (raiseN (raiseN (raiseN (computedOp h o c) E.drlSatClip n c.ovf) E.drlNonfinite n c.sat) E.drlIdxRange n c.note)
         F.drlBytesBytes n (Nat.max (rowsBytes (heldRows x o 0) + rowsBytes (heldRows x o 1)) (rowsBytes c.rows))) := by
  simp only [drlRun, atHouse_ready hf hx he hr, ho, bne_self_eq_false, Bool.false_eq_true, if_false]

end

/-- Settles O41: each command passes the gate of the data half, and its operation, which stands ready, is carried out as the
equations of `crankRun`, `vecRun` and `drlRun` say. -/
theorem stationsCompute : Obligations.StationsCompute := by
  intro s id n o x hrun hf hx c k vec drl
  have vecDoes {op : Nat} {i : Instr} (hi : exec i s = inData s true fun h => vecRun h op id) : vec op i :=
    fun he hr ho => .of_inData hi rfl hrun (vecRun_ready hf hx he hr ho)
  have drlDoes {op : Nat} {i : Instr} (hi : exec i s = inData s true fun h => drlRun h op id) : drl op i :=
    fun he hr ho => .of_inData hi rfl hrun (drlRun_ready hf hx he hr ho)
  exact ⟨fun he hr => .of_inData (exec_crankMatmul s id) rfl hrun (crankRun_ready hf hx he hr),
    vecDoes (exec_vecAdd s id), vecDoes (exec_vecSub s id), vecDoes (exec_vecMul s id), vecDoes (exec_vecMax s id),
    vecDoes (exec_vecMin s id), vecDoes (exec_vecScale s id), vecDoes (exec_vecCopy s id), vecDoes (exec_vecExp s id),
    vecDoes (exec_vecLog s id), vecDoes (exec_vecRsqrt s id), vecDoes (exec_vecRecip s id), vecDoes (exec_vecTanh s id),
    vecDoes (exec_vecSigmoid s id), vecDoes (exec_vecSilu s id), vecDoes (exec_vecSiluMul s id), vecDoes (exec_vecGeluTanh s id),
    vecDoes (exec_vecGeluErf s id), vecDoes (exec_vecRelu s id), vecDoes (exec_vecRmsnorm s id), vecDoes (exec_vecLayernorm s id),
    vecDoes (exec_vecRowSum s id), vecDoes (exec_vecRowMax s id), vecDoes (exec_vecRowMin s id), vecDoes (exec_vecRowSumsq s id),
    vecDoes (exec_vecSoftmax s id), vecDoes (exec_vecSmState s id), vecDoes (exec_vecSmExp s id), vecDoes (exec_vecSmRescale s id),
    vecDoes (exec_vecSmFinal s id), drlDoes (exec_drlConvert s id), drlDoes (exec_drlTranspose s id), drlDoes (exec_drlGather s id),
    drlDoes (exec_drlScatter s id), drlDoes (exec_drlPackKpw s id)⟩

end Sys2Proof.Machine
end

section
/-!
Proofs of the statements of 03_crank.md, part 3: errors, stalls, self-tests and tile caches of the house stations (R98 to R100, R106,
R143, R223).
-/
namespace Sys2Proof.Machine

/-! ### Station numbers -/

section
variable {n : Nat}

theorem houseEnd_crank (hn : n < 8) : houseEnd n = some (1, n) := by simp [houseEnd, hn]

theorem houseEnd_vec (hn : n < 8) : houseEnd (0x10 + n) = some (2, n) := by
  have h1 : ¬ 0x10 + n < 8 := by omega
  have h2 : 0x10 + n < 0x18 := by omega
  simp [houseEnd, h1, h2]

theorem houseEnd_drl (hn : n < 4) : houseEnd (0x20 + n) = some (3, n) := by
  have h1 : ¬ 0x20 + n < 8 := by omega
  have h2 : ¬ 0x20 + n < 0x18 := by omega
  have h3 : 0x20 + n < 0x24 := by omega
  simp [houseEnd, h1, h2, h3]

theorem houseEnd_cas (hn : n < 2) : houseEnd (0x30 + n) = some (4, n) := by
  have h1 : ¬ 0x30 + n < 8 := by omega
  have h2 : ¬ 0x30 + n < 0x18 := by omega
  have h3 : ¬ 0x30 + n < 0x24 := by omega
  have h4 : 0x30 + n < 0x32 := by omega
  simp [houseEnd, h1, h2, h3, h4]

theorem isVdr_vec (hn : n < 8) : isVdr (0x10 + n) = true := by
  have hk : 0x10 + n ≠ 0x40 := by omega
  simp [isVdr, stnKind, hk, houseEnd_vec hn]

end

/-! ### Errors and stalls (R98, R99) -/

section
variable {h : Hub} {id n : Nat} {o : TileOp} {x : Cmd}

/-- A parity error is counted; a second one on an operation that is not computed poisons its band (R98). -/
theorem wregParity_counts (hf : findOp h id = some o) (hx : opCmd h o = some x) (he : houseEnd o.station = some (1, n))
    (band : Nat) (second : Bool) : wregParity h id band second =
      if second = true ∧ o.computed = false then putOp (raise h E.crankWregParity n) (spoilBand x o band)
      else raise h E.crankWregParity n := by
  simp only [wregParity, hf, hx, he, Bool.and_eq_true, Bool.not_eq_true']

theorem storeEcc_corrected {stn : Nat} (hs : stnState h stn ≠ 0) (id inp row sec : Nat) (sc : Bool) :
    storeEcc h stn id inp row sec sc false = stnEvt h stn E.crankEccCorr E.vecEccCorr E.drlEccCorr E.casEccCorr := by
  simp [storeEcc, hs]

/-- An uncorrectable error that poisons no output of the operation only poisons the damaged entry. -/
theorem storeEcc_poisons {stn inp row sec : Nat} {sc : Bool} (hs : stnState h stn ≠ 0)
    (hf : findOp (stnEvt h stn E.crankEccUncorr E.vecEccUncorr E.drlEccUncorr E.casEccUncorr) id = some o) (ho : o.station = stn)
    (hb : outBad (spoilBuf o inp row sc sec) = outBad o) :
    storeEcc h stn id inp row sec sc true =
      putOp (stnEvt h stn E.crankEccUncorr E.vecEccUncorr E.drlEccUncorr E.casEccUncorr) (spoilBuf o inp row sc sec) := by
  simp [storeEcc, hs, hf, ho, hb]

theorem stallTimeout_stalled {stn : Nat} (hs : stalled h stn = true) : stallTimeout h stn = later h (.lost stn) := if_pos hs

end

/-! ### Self-tests (R100, R106, R143) -/

/-- The test of the station has ended, and BIST shows `v`. -/
def bistShown (h : Hub) (k n v : Nat) : Hub := setFld (setFld h (selftestFld k).1 n 0) (selftestFld k).2 n v

/-- A station that was LOST is IDLE again; a cassette reads its slot records. -/
def idleAgain (h : Hub) (k n : Nat) : Hub :=
  match k with
  | 1 => setFld h F.crankStatusState n 1
  | 2 => setFld h F.vecStatusState n 1
  | 3 => setFld h F.drlStatusState n 1
  | _ => reloadSlots (setFld h F.casStatusState n 1) n

section
variable {h : Hub} {stn k n : Nat} (he : houseEnd stn = some (k, n))
include he

theorem selftest_lost (hs : stnState h stn = 3) : selftest h stn = setFld h (selftestFld k).1 n 1 := by
  simp [selftest, he, hs]

variable (hf : flag h (selftestFld k).1 n = true)
include hf

theorem selftestDone_failed : selftestDone h stn false = later (bistShown h k n 2) (.lost stn) := by
  simp [selftestDone, he, hf, bistShown]

theorem selftestDone_passed (hs : stnState (bistShown h k n 1) stn = 3) :
    selftestDone h stn true = idleAgain (bistShown h k n 1) k n := by
  simp only [bistShown] at hs
  rcases k with _ | _ | _ | _ | k <;> simp [selftestDone, he, hf, hs, bistShown, idleAgain]

end

/-! ### Tile caches (R223) -/

section
variable {h : Hub} {stn : Nat}

theorem tcInvalAll_holds (hc : h.tcHold.contains stn = false) :
    tcInvalAll h stn = { setFld h F.tcCtlInvalAll (stnRouter stn) 1 with tcHold := stn :: h.tcHold } := by
  simp only [tcInvalAll, setFld_tcHold, hc, Bool.false_eq_true, if_false]

theorem tcDropDone_empties (hc : h.tcHold.contains stn = true)
    (ho : (h.ops.any fun o => o.station == stn || o.waitFor.contains stn) = false) :
    tcDropDone h stn =
      setFld { h with tc := dropIf h.tc fun x => x.stn == stn, tcHold := dropIf h.tcHold (· == stn) }
        F.tcCtlInvalAll (stnRouter stn) 0 := by
  simp only [tcDropDone, hc, ho, Bool.not_true, Bool.or_self, Bool.false_eq_true, if_false]

end

/-- Settles O43: each command passes its gate with the station number of its kind, and the equations above say what it leaves. -/
theorem stationFaults : Obligations.StationFaults := by
  refine ⟨fun s id band n o x hr hf hx he => ⟨?_, fun hc => ?_⟩, fun s stn id inp row sec sc hr hk hs => ⟨?_, fun o hf ho hb => ?_⟩,
    fun s n hr => ⟨fun hn => ⟨?_, fun hs => ?_⟩, fun hk => ⟨?_, fun hs => ?_⟩, fun hn => ⟨?_, fun hs => ?_⟩⟩,
    fun s n hr => ⟨fun hn hs => ?_, fun hn hs => ?_, fun hn hs => ?_, fun hn hs => ?_, fun hk hc => ?_⟩,
    fun s n hr => ⟨fun hn hf => ⟨?_, fun hs => ?_⟩, fun hn hf => ⟨?_, fun hs => ?_⟩, fun hn hf => ⟨?_, fun hs => ?_⟩,
      fun hk hc ho => ?_⟩⟩
  · exact .of_inData (exec_crankWregParity s id band false) rfl hr (by simp [wregParity_counts hf hx he])
  · exact .of_inData (exec_crankWregParity s id band true) rfl hr (by simp [wregParity_counts hf hx he, hc])
  · exact .of_inData (exec_crankStoreEcc s stn id inp row sec sc false) hk hr (storeEcc_corrected hs id inp row sec sc)
  · exact .of_inData (exec_crankStoreEcc s stn id inp row sec sc true) hk hr (storeEcc_poisons hs hf ho hb)
  · exact .of_inData (exec_crankControlUe s n) (decide_eq_true hn) hr rfl
  · exact .of_inData (exec_crankStallTimeout s n) (decide_eq_true hn) hr (stallTimeout_stalled hs)
  · exact .of_inData (exec_vdrControlUe s n) hk hr rfl
  · exact .of_inData (exec_vdrStallTimeout s n) hk hr (stallTimeout_stalled hs)
  · exact .of_inData (exec_casControlUe s n) (decide_eq_true hn) hr rfl
  · exact .of_inData (exec_casStallTimeout s n) (decide_eq_true hn) hr (stallTimeout_stalled hs)
  · exact .of_dataReg (exec_crankSelftest s n) (decide_eq_true hn) hr (selftest_lost (houseEnd_crank hn) hs)
  · exact .of_dataReg (exec_vecSelftest s n) (decide_eq_true hn) hr (selftest_lost (houseEnd_vec hn) hs)
  · exact .of_dataReg (exec_drlSelftest s n) (decide_eq_true hn) hr (selftest_lost (houseEnd_drl hn) hs)
  · exact .of_dataReg (exec_casSelftest s n) (decide_eq_true hn) hr (selftest_lost (houseEnd_cas hn) hs)
  · exact .of_dataReg (exec_tcInvalAll s n) hk hr (tcInvalAll_holds hc)
  · exact .of_inData (exec_crankSelftestDone s n false) (decide_eq_true hn) hr (selftestDone_failed (houseEnd_crank hn) hf)
  · exact .of_inData (exec_crankSelftestDone s n true) (decide_eq_true hn) hr (selftestDone_passed (houseEnd_crank hn) hf hs)
  · exact .of_inData (exec_vdrSelftestDone s (0x10 + n) false) (isVdr_vec hn) hr (selftestDone_failed (houseEnd_vec hn) hf)
  · exact .of_inData (exec_vdrSelftestDone s (0x10 + n) true) (isVdr_vec hn) hr (selftestDone_passed (houseEnd_vec hn) hf hs)
  · exact .of_inData (exec_casSelftestDone s n false) (decide_eq_true hn) hr (selftestDone_failed (houseEnd_cas hn) hf)
  · exact .of_inData (exec_casSelftestDone s n true) (decide_eq_true hn) hr (selftestDone_passed (houseEnd_cas hn) hf hs)
  · exact .of_inData (exec_tcDropDone s n) hk hr (tcDropDone_empties hc ho)

end Sys2Proof.Machine
end

section
/-!
Proofs of the statements of 04_vector_relayout_reduction.md, part 1: what the cassettes, the decoders and the reduction adders do, and
BIND and UNBIND of a pool (R121, R122, R129, R133, R138, R144, R148, R151).
-/
namespace Sys2Proof.Machine

/-! ### Cassettes (R133, R138) -/

section
variable {h : Hub} {id cas op : Nat} {o : TileOp} {x : Cmd} {p : Pool}

/-- A gather whose records are sound and name as many rows as its tile has delivers those rows; a row that R141 stops is poisoned. -/
theorem casGather_delivers {v : Bool} (hp : (heldRows x o 0).any RowData.poisoned = false)
    (hg : ((heldRows x o 0).map fun r => casReq r.bytes).all (gatherOk h cas p) = true)
    (hn : (((heldRows x o 0).map fun r => casReq r.bytes).map (gatherRows h cas p)).sum = (stageOut x o.stage).rows) :
    casGather h x o cas p v =
      (let got := ((heldRows x o 0).map fun r => casReq r.bytes).flatMap (gatherRecord h cas p v)
       computedOp (addFld (raiseN h E.casListBad cas (got.countP Option.isNone)) F.casBytesBytes cas
           ((stageOut x o.stage).rows * p.rowBytes)) o
         { rows := got.map fun r => r.getD { bytes := List.replicate p.rowBytes 0, bad := List.range (p.rowBytes / 32) } }) := by
  simp only [casGather, hp, hg, hn, bne_self_eq_false, Bool.not_true, Bool.or_self, Bool.false_eq_true, if_false]

variable (hf : findOp h id = some o) (hx : opCmd h o = some x) (he : houseEnd o.station = some (4, cas)) (hr : runsAt h 4 x o = true)
  (hs : slotHeld h x o = false) (hp : poolOf h (cas * 32 + bitsOf o.func 8 4) = some p)
  (hb : fld h F.casPoolStatState (cas * 32 + bitsOf o.func 8 4) ≠ 2) (ho : o.func % 16 = op)
include hf hx he hr hs hp hb ho

/-- An operation that stands ready on a bound pool is carried out as its code says. -/
theorem casRun_ready : casRun h op id =
    if op = 7 then casGather h x o cas p false
    else if op = 8 then casGather h x o cas p true
    else
      let r := casRecords cas (cas * 32 + bitsOf o.func 8 4) op p (heldRows x o 1) (heldRows x o 0) h
      computedOp r.2 o { rows := r.1 } := by
  simp only [casRun, atHouse_ready hf hx he hr, ho, hs, hp, hb, bne_self_eq_false, Bool.or_self, Bool.false_eq_true, if_false]

theorem casRun_records (h7 : op < 7) : casRun h op id =
    (let r := casRecords cas (cas * 32 + bitsOf o.func 8 4) op p (heldRows x o 1) (heldRows x o 0) h
     computedOp r.2 o { rows := r.1 }) := by
  rw [casRun_ready hf hx he hr hs hp hb ho, if_neg (by omega), if_neg (by omega)]

/-- Code 7 gathers the K rows and code 8 the V rows. -/
theorem casRun_gathers {v : Bool} (hv : op = if v then 8 else 7) : casRun h op id = casGather h x o cas p v := by
  rw [casRun_ready hf hx he hr hs hp hb ho]
  cases v <;> simp [hv]

end

/-! ### Decoders (R144, R148) -/

/-- A page whose sectors are sound, whose header and stream decode, and whose shape is the tile's is delivered. -/
theorem decodePage_delivers {h h1 h2 : Hub} {id input va f e q l : Nat} {o : TileOp} {x : Cmd} {t : Tile} {w : Nat × Nat}
    {ws : List (Nat × Nat)} {hb bs : List Byte} {a : AtcEntry} {k : KpwHdr} {rows : List RowData}
    (hf : findOp h id = some o) (hx : opCmd h o = some x) (hd : o.dead = false)
    (ht : x.source (if input = 0 then slotSrcA (x.route.getD o.stage 0) else slotSrcB (x.route.getD o.stage 0)) =
      some (t, some (f, e, q, l)))
    (hw : pageRows x o input va = w :: ws) (hn : o.buf (4 + input) w.1 false = none)
    (hh : vaRead h x.ctx va 64 o.station = (some (hb, []), h1)) (hk : kpwHeader hb = some k)
    (ha : atcFind { h1 with hostHave := h.hostHave } x.ctx va false = some a)
    (hu : vaRead { h1 with hostHave := h.hostHave } x.ctx va k.used o.station = (some (bs, []), h2))
    (hr : kpwDecode (sliceB bs 0 65536) = .inr rows) (hkf : k.fmt = f) (hke : k.elems = e) (hkq : k.rows = q) :
    decodePage h id input va false =
      pageDone h2 o input e f (portOf { h1 with hostHave := h.hostHave } (a.target va)) k.used (some rows) (w :: ws) := by
  simp only [decodePage, hf, hx, ht, hw, hd, hn, hh, hk, ha, hu, hr, hkf, hke, hkq, Option.isSome_none, List.isEmpty_nil, Bool.not_true,
    Bool.false_and, Bool.or_self, bne_self_eq_false, Bool.false_eq_true, if_false]

/-! ### Reduction adders (R121, R122) -/

/-- The next contribution of a sector whose line no agent holds is applied. -/
theorem redRun_applies {h : Hub} {op dpa : Nat} {i : RedItem} (hi : nextRed h (dpa / 32) = some i) (hl : lineBusy h (dpa / 64) = false)
    (hd : dirFind h (dpa / 64) = none) (ho : i.func % 4 = op) (code : Bool) : redRun h op dpa code = pumpAll (redApply h i code) := by
  simp only [redRun, hi, hl, hd, ho, bne_self_eq_false, Option.isSome_none, Bool.or_self, Bool.false_eq_true, if_false]

/-! ### Binding of pools (R129, R151) -/

section
variable {h : Hub} {k : Nat}

/-- No pool of the cassette has a slot in common with a pool whose slots lie apart from all of theirs. -/
theorem pools_apart {p : Pool}
    (hs : ∀ e ∈ h.pools, e.1 / 32 = k / 32 → e.2.slot0 + e.2.slots ≤ p.slot0 ∨ p.slot0 + p.slots ≤ e.2.slot0) :
    (h.pools.any fun e => e.1 / 32 == k / 32 && decide (e.2.slot0 < p.slot0 + p.slots) && decide (p.slot0 < e.2.slot0 + e.2.slots)) =
      false := by
  simp only [List.any_eq_false, Bool.and_eq_true, beq_iff_eq, decide_eq_true_eq, not_and]
  rintro e he ⟨hk, hlo⟩ hhi
  have hapart := hs e he hk
  omega

/-- BIND of a free pool with legal geometry starts the walk of its region. -/
theorem casBind_starts (hf : tget h.pools k = none) (hg : fld h F.casPoolGeomPageLog k ≤ 4) (h2 : 2 ≤ (poolRegs h k).fmt)
    (h5 : (poolRegs h k).fmt ≤ 5) (hl : (poolRegs h k).legal = true)
    (hs : ∀ e ∈ h.pools, e.1 / 32 = k / 32 →
      e.2.slot0 + e.2.slots ≤ (poolRegs h k).slot0 ∨ (poolRegs h k).slot0 + (poolRegs h k).slots ≤ e.2.slot0)
    (hc : ctxState h (poolRegs h k).ctx = 2) :
    casBind h k =
      bindWalk ((poolRegs h k).size / 4096 + 1) (setFld { h with pools := tset h.pools k (poolRegs h k) } F.casPoolCtlBind k 1) k
        (poolRegs h k) 0 := by
  have hgeom : (decide (4 < fld h F.casPoolGeomPageLog k) || decide ((poolRegs h k).fmt < 2) || decide (5 < (poolRegs h k).fmt)) =
      false := by
    simp only [Bool.or_eq_false_iff, decide_eq_false_iff_not, not_lt, hg, h2, h5, and_self]
  simp only [casBind, hf, hgeom, hl, pools_apart hs, hc, Option.isSome_none, Bool.not_true, bne_self_eq_false, Bool.false_eq_true, if_false]

/-- UNBIND of a bound pool without open slots frees it. -/
theorem casUnbind_frees {b : Pool} (hb : tget h.pools k = some b) (hn : b.next = none) (ho : openSlots h k b = []) :
    casUnbind h k = setFld (dropPool h k) F.casPoolCtlResult k 0 := by
  simp only [casUnbind, hb, hn, ho, Option.isSome_none, List.isEmpty_nil, Bool.not_true, Bool.false_eq_true, if_false]

end

/-- Settles O42: each command passes its gate, and the equations of `casRun`, `decodePage`, `redRun`, `casBind` and `casUnbind` say what
it does. -/
theorem cassettesDecodersAdders : Obligations.CassettesDecodersAdders := by
  refine ⟨fun s id cas o x p hrun hf hx he hr hs => ?_,
    fun s id input va f e q l o x t w ws hb bs h1 h2 a k rows hrun hi hf hx hd ht hw hn hh hk ha hu hr hkf hke hkq => ?_,
    fun s dpa code i hrun hi hl hd => ⟨fun ho => ?_, fun ho => ?_, fun ho => ?_⟩, fun s cas hr hc => ⟨?_, fun b hb hn ho => ?_⟩⟩
  · intro k hp hb rec_ gather
    have recDoes {op : Nat} {i : Instr} (h7 : op < 7) (hi : exec i s = inData s true fun h => casRun h op id) : rec_ op i :=
      fun ho => .of_inData hi rfl hrun (casRun_records hf hx he hr hs hp hb ho h7)
    have gatherDoes {op : Nat} {v : Bool} {i : Instr} (hv : op = if v then 8 else 7)
        (hi : exec i s = inData s true fun h => casRun h op id) : gather op v i :=
      fun ho hc hg hn => .of_inData hi rfl hrun
        ((casRun_gathers hf hx he hr hs hp hb ho hv).trans (casGather_delivers hc hg hn))
    exact ⟨recDoes (by decide) (exec_casOpen s id), recDoes (by decide) (exec_casFork s id), recDoes (by decide) (exec_casAppend s id),
      recDoes (by decide) (exec_casAdvance s id), recDoes (by decide) (exec_casTrim s id), recDoes (by decide) (exec_casClose s id),
      gatherDoes rfl (exec_casGatherK s id), gatherDoes rfl (exec_casGatherV s id)⟩
  · exact .of_inData (exec_decPageDecode s id input va false) (decide_eq_true hi) hrun
      (decodePage_delivers hf hx hd ht hw hn hh hk ha hu hr hkf hke hkq)
  · exact .of_inData (exec_redAdd s dpa code) rfl hrun (redRun_applies hi hl hd ho code)
  · exact .of_inData (exec_redMin s dpa code) rfl hrun (redRun_applies hi hl hd ho code)
  · exact .of_inData (exec_redMax s dpa code) rfl hrun (redRun_applies hi hl hd ho code)
  · exact fun hf hg h2 h5 hl hs hx =>
      .of_dataReg (exec_casPoolBind s cas) (decide_eq_true hc) hr (casBind_starts hf hg h2 h5 hl hs hx)
  · exact .of_dataReg (exec_casPoolUnbind s cas) (decide_eq_true hc) hr (casUnbind_frees hb hn ho)

end Sys2Proof.Machine
end

section
/-!
Proofs of the statements of 06_memory_system.md, part 1: the capacity of the ports at the end of phase 3 (R154, R159).
-/
namespace Sys2Proof.Machine

/-! ### Ports and their capacity (R154, R159) -/

/-- What each step keeps of the hub, a walk over a list keeps. -/
theorem each_keeps {α β : Type} {f : Hub → α → Hub} (g : Hub → β) (hf : ∀ h x, g (f h x) = g h) (xs : List α) (h : Hub) :
    g (each xs h f) = g h := by
  induction xs generalizing h with
  | nil => rfl
  | cons x xs ih => exact (ih (f h x)).trans (hf h x)

section
variable (h : Hub)

/-- A notice leaves the live ports alone. -/
theorem deliverNotice_live (code detail : Nat) : (deliverNotice h code detail).live = h.live := by
  unfold deliverNotice
  extract_lets n counted entered noted rung
  have hr : rung.live = h.live := by
    simp only [rung, noted, entered, counted]
    split
    · split <;> simp
    · simp
  split
  · exact hr
  · refine (each_keeps Hub.live (fun k d => ?_) _ _).trans hr
    extract_lets q numbered
    split
    · rfl
    · split <;> rfl

theorem countFatal_live (src : Nat) (first : Bool) : (countFatal h src first).live = h.live := by
  unfold countFatal
  extract_lets counted
  split
  · exact deliverNotice_live _ _ _
  · rfl

theorem dataDown_live : (dataDown h).live = [] := by
  simp only [dataDown, setFld_live]
  exact each_keeps Hub.live (fun k s => emit_live k .grstN s [0] []) h.present (clearData h)

/-- A bring-up that stops gains no live port. -/
theorem bringUpStops_live (code : Nat) (hl : h.live = []) : (bringUpStops h code).live = [] := by
  unfold bringUpStops bringUpFail
  split
  · rw [countFatal_live, hl]
  · rw [setFld_live, dataDown_live]

theorem viewNum_memPortCap : viewNum h OD.memPortCap = some h.portCap := rfl

end

/-- The capacity of every port fixed at `c`, and the reserve at `z` where that is less; phase 4 is next (R154, R160, R161). -/
def portsFixed (h : Hub) (c z : Nat) : Hub :=
  let k := { h with portCap := c, reserve := if z < c then z else 0 }
  setFld (if z != 0 && decide (c ≤ z) then raise k E.bootDegraded else k) F.bootStatusPhase 0 4

section
variable (h : Hub) (c z : Nat)

@[simp] theorem portsFixed_live : (portsFixed h c z).live = h.live := by
  simp only [portsFixed, setFld_live]
  split <;> simp

@[simp] theorem portsFixed_portCap : (portsFixed h c z).portCap = c := by
  simp only [portsFixed, setFld_portCap]
  split <;> simp

@[simp] theorem stack_portsFixed (n : Nat) : stack (portsFixed h c z) n = stack h n := by
  simp only [stack, portsFixed, setFld_hbms]
  split <;> simp

end

/-- Phase 3 ends without a live port, and bring-up stops, or it fixes the capacity of the smallest stack with a live port, cut in
eight. -/
theorem memPhase_cases (h : Hub) (hs : List (Nat × Nat × Nat × Nat)) (fs : List (List Nat)) :
    ∃ k, (k.live = [] ∧ memPhase h hs fs = bringUpStops k 4) ∨
      ∃ p r, k.live = p :: r ∧
        memPhase h hs fs = portsFixed k (r.foldl (fun m q => Nat.min m (stack k (q / 8)).gib) (stack k (p / 8)).gib * 2 ^ 27)
          (odNum k OD.mirrorReserve * 2 ^ 20) := by
  unfold memPhase
  extract_lets fresh trained listed on gone degraded z
  refine ⟨degraded, ?_⟩
  split
  case h_1 hn => exact .inl ⟨hn, rfl⟩
  case h_2 p r hp => exact .inr ⟨p, r, hp, rfl⟩

/-- Where a port is live at the end of phase 3, every port has an eighth of the smallest capacity of their stacks (R154). -/
theorem memPhase_capacity {h : Hub} {hs : List (Nat × Nat × Nat × Nat)} {fs : List (List Nat)} (hl : (memPhase h hs fs).live ≠ []) :
    ∃ g, ((memPhase h hs fs).live.map fun p => (stack (memPhase h hs fs) (p / 8)).gib).min? = some g ∧
      (memPhase h hs fs).portCap = g * 2 ^ 27 := by
  obtain ⟨k, ⟨hn, he⟩ | ⟨p, r, hp, he⟩⟩ := memPhase_cases h hs fs
  · exact absurd (he ▸ bringUpStops_live k 4 hn) hl
  · refine ⟨_, ?_, he ▸ portsFixed_portCap _ _ _⟩
    simp only [he, portsFixed_live, stack_portsFixed, hp, List.map_cons, List.min?_cons', List.foldl_map]

/-- An address of the live ports' joint capacity lies below the capacity of its port, where that is whole granules (R159). -/
theorem localAddr_lt {h : Hub} {k a : Nat} (hc : h.portCap = 4096 * k) (ha : a < h.live.length * h.portCap) :
    localAddr h a < h.portCap := by
  have hg : a / 4096 < h.live.length * k := by
    rw [Nat.div_lt_iff_lt_mul (by decide), Nat.mul_assoc, Nat.mul_comm k, ← hc]
    exact ha
  have hq : a / 4096 / h.live.length < k := Nat.div_lt_of_lt_mul hg
  rw [localAddr, liveN, hc]
  omega

/-- Settles O18: the capacity is the least of the live ports' stacks' (`memPhase_capacity`), in whole granules. -/
theorem portCapacity : Obligations.PortCapacity := by
  intro h hs fs hl t
  obtain ⟨g, hg, hc⟩ := memPhase_capacity hl
  obtain ⟨hmem, hle⟩ := List.min?_eq_some_iff.1 hg
  have h8 : 8 * t.portCap = g * 2 ^ 30 := by
    rw [hc]
    omega
  refine ⟨?_, fun p hp => ?_, fun a => localAddr_lt (k := g * 2 ^ 15) (by rw [hc]; omega), viewNum_memPortCap t⟩
  · obtain ⟨p, hp, rfl⟩ := List.mem_map.1 hmem
    exact ⟨p, hp, h8⟩
  · rw [h8]
    exact Nat.mul_le_mul_right _ (hle _ (List.mem_map_of_mem hp))

end Sys2Proof.Machine
end

section
/-!
Proofs of the statements of 06_memory_system.md, part 2: the commands on shared regions (R172, R173, R175).
-/
namespace Sys2Proof.Machine

/-! ### One region written (R172) -/

section
variable (h : Hub) (i : Nat) (r : Region)

@[simp] theorem region_setRegion_same : region (setRegion h i r) i = r := tgetD_tset_same _ _ _ _

theorem region_setRegion_ne {j : Nat} (hj : j ≠ i) : region (setRegion h i r) j = region h j := tgetD_tset_ne _ _ _ hj

/-- The other regions, the registers and memory are as before. -/
theorem setRegion_frame : (∀ j, j ≠ i → region (setRegion h i r) j = region h j) ∧ (setRegion h i r).regs = h.regs ∧
    (setRegion h i r).hbm = h.hbm := ⟨fun _ hj => region_setRegion_ne h i r hj, rfl, rfl⟩

theorem quiet_setRegion (hq : h.quiet = true) : (setRegion h i r).quiet = true :=
  quiet_of_same rfl rfl ⟨rfl, rfl, rfl, rfl, rfl, rfl, rfl⟩ hq

end

/-! ### What the region commands come to (R172) -/

section
variable {h : Hub} {i : Nat}

/-- The model's test of overlap fails exactly where the range is clear of every region in use. -/
theorem regions_clear_iff {b z : Nat} :
    (h.regions.any fun e => e.2.state != 0 && decide (b < e.2.base + e.2.size) && decide (e.2.base < b + z)) = false ↔
      ∀ e ∈ h.regions, e.2.state ≠ 0 → b + z ≤ e.2.base ∨ e.2.base + e.2.size ≤ b := by
  simp only [List.any_eq_false, Bool.and_eq_true, bne_iff_ne, decide_eq_true_eq]
  refine forall₂_congr fun e _ => ?_
  omega

section
variable {b z : Nat} (hb : odNum h (OD.regionBase i) = b) (hz : odNum h (OD.regionSize i) = z)
include hb hz

/-- OPEN of an UNUSED entry over a legal range that is clear opens it, unmirrored where no mirror is asked for. -/
theorem regionOpen_opens (hs : (region h i).state = 0) (hba : b % 2 ^ 21 = 0) (hza : z % 2 ^ 21 = 0) (hn : z ≠ 0)
    (hu : b + z ≤ usable h) (hc : ∀ e ∈ h.regions, e.2.state ≠ 0 → b + z ≤ e.2.base ∨ e.2.base + e.2.size ≤ b)
    (hm : odOn h (OD.regionMirror i) = false) :
    regionOpen h i = (0, setRegion h i { base := b, size := z, mirror := false, state := 1, cmd := 1, bound := odOn h (OD.bindEn i) }) := by
  have hlegal : (b % 2 ^ 21 != 0 || z % 2 ^ 21 != 0 || decide (z = 0) || decide (usable h < b + z)) = false := by
    simp only [hba, hza, hn, Nat.not_lt.2 hu, bne_self_eq_false, decide_false, Bool.or_self]
  simp only [regionOpen, hb, hz, hs, hm, hlegal, regions_clear_iff.2 hc, bne_self_eq_false, Bool.not_false, Bool.false_eq_true, if_false,
    if_true]

/-- OPEN of an entry in use, over an illegal range or over one that is not clear changes nothing. -/
theorem regionOpen_refused (hr : (region h i).state ≠ 0 ∨ b % 2 ^ 21 ≠ 0 ∨ z % 2 ^ 21 ≠ 0 ∨ z = 0 ∨ usable h < b + z ∨
      ¬ ∀ e ∈ h.regions, e.2.state ≠ 0 → b + z ≤ e.2.base ∨ e.2.base + e.2.size ≤ b) : (regionOpen h i).2 = h := by
  rw [← regions_clear_iff, Bool.not_eq_false] at hr
  simp only [regionOpen, hb, hz]
  split
  · rfl
  split
  · rfl
  split
  · rfl
  next hs hl hc =>
    simp only [bne_iff_ne, Bool.or_eq_true, decide_eq_true_eq] at hs hl
    tauto

end

theorem regionCmd_seal (hs : (region h i).state = 1) :
    (regionCmd h i 2).2 = setRegion h i { region h i with state := 2, cmd := 2 } := by simp [regionCmd, hs]

theorem regionCmd_seal_refused (hs : (region h i).state ≠ 1) : (regionCmd h i 2).2 = h := by simp [regionCmd, hs]

theorem regionCmd_reload (hs : (region h i).state = 2 ∨ (region h i).state = 3) :
    (regionCmd h i 3).2 = setRegion h i { region h i with state := 1, cmd := 3 } := by simp [regionCmd, hs]

theorem regionCmd_reload_refused (h2 : (region h i).state ≠ 2) (h3 : (region h i).state ≠ 3) : (regionCmd h i 3).2 = h := by
  simp [regionCmd, h2, h3]

/-- RELEASE of a region that is not bound returns its entry to UNUSED and leaves memory alone. -/
theorem regionCmd_release (hb : (region h i).bound = false) (hq : h.bindQ.contains i = false) :
    (regionCmd h i 4).2 = setRegion (setOdNum h (OD.bindEn i) 1 0) i { cmd := 4 } := by
  simp only [regionCmd, releaseBound, hq, hb, Bool.false_eq_true, if_false]

end

/-- A region command on a hub whose halves are up leaves the hub its meaning leaves, where that is quiet. -/
theorem DoesOnly.of_regionRow {c : Instr} {s : State} {i n : Nat} (he : exec c s = regionRow s i n) (hi : i < 64)
    (hd : dataUp s.hub = true) (hc : ctlUp s.hub = true) (hz : s.hub.dead = 0) {k : Hub} (hk : (regionCmd s.hub i n).2 = k)
    (hq : k.quiet = true) : DoesOnly c s k :=
  (Does.of_actUnit he (decide_eq_true hi) (by simp [hd, hc, hz, hk])).only hq

/-- Settles O46: each command is its equation above; what it writes is one region, and the frame is `setRegion_frame`. -/
theorem regionStates : Obligations.RegionStates := by
  intro s i hq hd hc hz hi r b z clear
  have does {c : Instr} {n : Nat} {k : Hub} (he : exec c s = regionRow s i n) (hk : (regionCmd s.hub i n).2 = k) (hkq : k.quiet = true) :
      DoesOnly c s k := .of_regionRow he hi hd hc hz hk hkq
  have hset (q : Region) := quiet_setRegion s.hub i q hq
  refine ⟨fun h1 => ?_, fun h1 => ?_, fun h23 => ?_, fun h2 h3 => ?_, fun h0 hb hza hn hu hcl hm => ?_, fun hr => ?_, fun hb hn => ?_⟩
  · exact ⟨_, does (exec_regionSeal s i) (regionCmd_seal h1) (hset _), region_setRegion_same _ _ _, setRegion_frame _ _ _⟩
  · exact does (exec_regionSeal s i) (regionCmd_seal_refused h1) hq
  · exact ⟨_, does (exec_regionReload s i) (regionCmd_reload h23) (hset _), region_setRegion_same _ _ _, setRegion_frame _ _ _⟩
  · exact does (exec_regionReload s i) (regionCmd_reload_refused h2 h3) hq
  · refine ⟨_, does (exec_regionOpen s i) (congrArg Prod.snd (regionOpen_opens rfl rfl h0 hb hza hn hu hcl hm)) (hset _), ?_⟩
    rw [region_setRegion_same]
    exact ⟨rfl, rfl, rfl, rfl, setRegion_frame _ _ _⟩
  · exact does (exec_regionOpen s i) (regionOpen_refused rfl rfl hr) hq
  · refine ⟨_, does (exec_regionRelease s i) (regionCmd_release hb hn) (quiet_setRegion _ _ _ (quiet_setOdNum _ _ _ hq)), ?_⟩
    rw [region_setRegion_same]
    exact ⟨rfl, setRegion_frame (setOdNum s.hub _ _ _) _ _⟩

end Sys2Proof.Machine
end

section
/-!
Proofs of the statements of 06_memory_system.md, part 3: the stacks in service: readings, hold cycles, scrubbing, truing, retrains and step-downs (R171, R176 to
R184).
-/
namespace Sys2Proof.Machine

/-! ### Temperature and hold cycles (R176 to R179) -/

/-- The reading of port `p` shown, and kept for its stack's next decision. -/
def readingShown (h : Hub) (p t : Nat) : Hub := setFld (setStack h (p / 8) { stack h (p / 8) with lastTemp := t }) F.memStatusTemp p t

section
variable {h : Hub} {p t : Nat}

/-- What a reading decides, once it is shown (R176, R177, R179). -/
theorem tempRead_decides : tempRead h p t =
    let k := readingShown h p t
    if 115 ≤ t then later k (.fatal 5) else if (stack h (p / 8)).holding then k
    else if odNum k OD.thermHoldC < t then holdWindow k (p / 8) true
    else setFld k F.memStatusTherm p (nextBand (fld k F.memStatusTherm p) t) := rfl

theorem tempRead_cattrip (ht : 115 ≤ t) : tempRead h p t = later (readingShown h p t) (.fatal 5) := if_pos ht

variable (ht : t < 115) (hh : (stack h (p / 8)).holding = false)
include ht hh

theorem tempRead_holds (hc : odNum (readingShown h p t) OD.thermHoldC < t) :
    tempRead h p t = holdWindow (readingShown h p t) (p / 8) true := by
  simp only [tempRead_decides, hh, hc, Nat.not_le.2 ht, Bool.false_eq_true, if_false, if_true]

theorem tempRead_cool (hc : t ≤ odNum (readingShown h p t) OD.thermHoldC) :
    tempRead h p t = setFld (readingShown h p t) F.memStatusTherm p (nextBand (fld (readingShown h p t) F.memStatusTherm p) t) := by
  simp only [tempRead_decides, hh, Nat.not_lt.2 hc, Nat.not_le.2 ht, Bool.false_eq_true, if_false]

end

section
variable {h : Hub} {n : Nat}

theorem holdEnds_reduces (hw : (stack h n).inWindow = true) :
    holdEnds h n =
      nextRetrain (eachLive (setStack h n { stack h n with inWindow := false }) n fun h p =>
        addFld (setFld h F.memStatusTherm p 4) F.memHoldUsHold p (odNum h OD.holdWindowUs)) n := by
  simp only [holdEnds, hw, Bool.not_true, Bool.false_eq_true, if_false]

variable (hh : (stack h n).holding = true) (hw : (stack h n).inWindow = false)
include hh hw

/-- A stack that is still too warm at the end of a reduced period holds again. -/
theorem reducedEnds_holds (ht : odNum h OD.thermHoldC < (stack h n).lastTemp) : reducedEnds h n = holdWindow h n false := by
  simp only [reducedEnds, hh, hw, ht, Bool.not_true, Bool.or_self, Bool.false_eq_true, if_false, if_true]

/-- Below 102 °C, and not above the limit, the cycle ends in the hot band. -/
theorem reducedEnds_ends (ht : (stack h n).lastTemp ≤ odNum h OD.thermHoldC) (hc : (stack h n).lastTemp < 102) :
    reducedEnds h n =
      later (eachLive (setStack h n { stack h n with holding := false }) n fun h p => setFld h F.memStatusTherm p 2) (.podNotice 2 n) := by
  simp only [reducedEnds, hh, hw, Nat.not_lt.2 ht, Nat.not_le.2 hc, Bool.not_true, Bool.or_self, Bool.false_eq_true, if_false]

end

/-! ### Scrubbing, retrains and step-downs (R171, R182, R184) -/

@[simp] theorem port_setFld (h : Hub) (f : Fld) (i v p : Nat) : port (setFld h f i v) p = port h p := rfl

section
variable {h : Hub}

theorem stepDown_stalls {n : Nat} (hp : (stack h n).stepPend = true) (hw : (stack h n).inWindow = false)
    (hs : stackStalled h n = false) :
    stepDown h n = eachLive (setStack h n { stack h n with stepPend := false, stepping := true }) n fun h p =>
      if memState h p = 3 then setFld h F.memStatusState p 5 else h := by
  simp only [stepDown, hp, hw, hs, Bool.not_true, Bool.or_self, Bool.false_eq_true, if_false]

variable {p : Nat} (hm : memState h p = 3)
include hm

theorem scrubNow_starts (hs : (port h p).scrubLeft = 0) :
    scrubNow h p = setFld (setPort h p { port h p with scrubLeft := h.portCap / 64 }) F.memCtlScrubNow p 1 := by
  simp only [scrubNow, hm, hs, bne_self_eq_false, Bool.or_self, Bool.false_eq_true, if_false]

/-- Outside the 100 ms limit a requested retrain starts. -/
theorem memRetrain_starts (hr : (port h p).recent = false) : memRetrain h p = startRetrain (setFld h F.memCtlRetrain p 1) p := by
  simp only [memRetrain, hm, hr, port_setFld, bne_self_eq_false, Bool.false_eq_true, if_false]

end

/-! ### Truing (R181, R182) -/

/-- The margins of port `p` with that of pseudo-channel `pc` at `m`. -/
def trued (h : Hub) (p pc m : Nat) : List Nat := ((port h p).margins ++ List.replicate (8 - (port h p).margins.length) 63).set pc m

/-- Port `p` with the margin recorded. -/
def marginShown (h : Hub) (p pc m : Nat) (rc : Bool) : Hub :=
  setFld (setPort h p { port h p with margins := trued h p pc m, recent := rc && (port h p).recent }) F.memStatusMargin p
    ((trued h p pc m).foldl Nat.min 63)

section
variable {h : Hub} {p pc m : Nat} {rc : Bool} (hm : memState h p = 3) (hw : (stack h (p / 8)).inWindow = false)
include hm hw

/-- Once the margin is recorded, one below TRUE_MARGIN asks for a retrain, or soon after the last retrain for a step-down; otherwise a
retrain that waited may start. -/
theorem hbmTruing_decides : hbmTruing h p pc m rc =
    let k := marginShown h p pc m rc
    if m < odNum k OD.trueMargin then if rc && (port h p).recent then decideStep k p else startRetrain k p
    else if (port h p).wanted && !(rc && (port h p).recent) then startRetrain k p else k :=
  if_neg (by simp [hm, hw])

theorem hbmTruing_keeps (ht : odNum (marginShown h p pc m rc) OD.trueMargin ≤ m) (hv : (port h p).wanted = false) :
    hbmTruing h p pc m rc = marginShown h p pc m rc := by
  simp only [hbmTruing_decides hm hw, Nat.not_lt.2 ht, hv, Bool.false_and, Bool.false_eq_true, if_false]

theorem hbmTruing_retrains (ht : m < odNum (marginShown h p pc m rc) OD.trueMargin) (hr : (rc && (port h p).recent) = false) :
    hbmTruing h p pc m rc = startRetrain (marginShown h p pc m rc) p := by
  simp only [hbmTruing_decides hm hw, ht, hr, Bool.false_eq_true, if_false, if_true]

theorem hbmTruing_steps (ht : m < odNum (marginShown h p pc m rc) OD.trueMargin) (hr : (rc && (port h p).recent) = true) :
    hbmTruing h p pc m rc = decideStep (marginShown h p pc m rc) p := by
  simp only [hbmTruing_decides hm hw, ht, hr, if_true]

end

/-- Settles O45: each command passes its gate, and the equations above say what it leaves. -/
theorem stackCommands : Obligations.StackCommands := by
  refine ⟨fun s p t hr hp hon => ?_,
    fun s n hr hn => ⟨fun hw => ?_, fun hh hw ht => ?_, fun hh hw ht hc => ?_, fun hp hw hs => ?_, fun fs hs => ?_⟩,
    fun s n hd hn hon => ?_, fun s p hr hp hm => ⟨fun hs => ?_, fun hc => ?_⟩,
    fun s p hr hp => ⟨fun pc m rc hpc hm63 hm hw => ?_, fun ms hms hm => ?_⟩⟩
  · have does {k : Hub} (ht : t < 256) (hk : tempRead s.hub p t = k) : Does (.hbmTempRead p t) s k :=
      .of_inData (exec_hbmTempRead s p t) (by simp [hp, ht]) hr ((if_pos hon).trans hk)
    exact ⟨fun ht hh hc => does (by omega) (tempRead_cool ht hh hc), fun ht hh hc => does (by omega) (tempRead_holds ht hh hc),
      fun ht ht' => does ht' (tempRead_cattrip ht)⟩
  · exact .of_inData (exec_holdWindowEnd s n) (decide_eq_true hn) hr (holdEnds_reduces hw)
  · exact .of_inData (exec_reducedPeriodEnd s n) (decide_eq_true hn) hr (reducedEnds_holds hh hw ht)
  · exact .of_inData (exec_reducedPeriodEnd s n) (decide_eq_true hn) hr (reducedEnds_ends hh hw ht hc)
  · exact .of_inData (exec_hbmStepDown s n) (decide_eq_true hn) hr (stepDown_stalls hp hw hs)
  · exact .of_inData (exec_hbmStepDownDone s n fs) (decide_eq_true hn) hr rfl
  · exact .of_actUnit (exec_hbmCattrip s n) (decide_eq_true hn) (by simp [hd, hon, cattrip])
  · exact .of_dataReg (exec_memScrubNow s p) (decide_eq_true hp) hr (scrubNow_starts hm hs)
  · exact .of_dataReg (exec_memCtlRetrain s p) (decide_eq_true hp) hr (memRetrain_starts hm hc)
  · have does {k : Hub} (hk : hbmTruing s.hub p pc m rc = k) : Does (.hbmTruingWindow p pc m rc) s k :=
      .of_inData (exec_hbmTruingWindow s p pc m rc) (by simp [hp, hpc, hm63]) hr hk
    exact ⟨fun ht hv => does (hbmTruing_keeps hm hw ht hv), fun ht hc => does (hbmTruing_retrains hm hw ht hc),
      fun ht hc => does (hbmTruing_steps hm hw ht hc)⟩
  · exact .of_inData (exec_hbmRetrainDone s p ms) (by simpa [hp] using hms) hr rfl

end Sys2Proof.Machine
end

section
/-!
Proofs of the statements of 07_coherence.md: requests on their way to a line's home (R194, R198, R199), snoops at the agents and their
answers (R195, R200 to R203), time-outs (R205), and the directory window (R211).
-/
namespace Sys2Proof.Machine

/-! ### Requests that are translated (R194, R198) -/

section
variable {h k k' : Hub} {r : CohReq} {d m : Nat} {w : Bool} {e : AtcEntry}

theorem cohHome_arrives (ho : (r.op == 6 || r.op == 7) = false) : cohHome h r = cohArrive h r := if_neg (by simpa using ho)

theorem cohHome_evicts (ho : (r.op == 6 || r.op == 7) = true) : cohHome h r = pumpAll (evict h r) := if_pos (by simpa using ho)

/-- A request that is taken, and whose page is translated to device memory, goes to its line's home. -/
theorem cohReq_translated (ht : CohTakes h r k) (hw : (r.op == 2 || r.op == 4 || r.op == 5 || r.op == 7) = w)
    (hl : lookup (cohMet k r d m) r.ctx (64 * r.vline) w (agentWho r.agent) = (some e, k')) (hh : e.host = false) :
    cohReq h r 0 d m = cohHome k' { r with line := e.target (64 * r.vline) / 64 } := by
  subst hw
  simp only [cohReq_takes ht, cohGo, hl, hh, Bool.false_eq_true, if_false]

end

/-! ### Snoops at the agents (R200, R201) -/

theorem tdel_eq_self {α : Type} {t : List (Nat × α)} {k : Nat} (hk : tget t k = none) : tdel t k = t := by
  induction t with
  | nil => rfl
  | cons e r ih =>
    obtain ⟨j, v⟩ := e
    rw [tget] at hk
    split at hk
    · contradiction
    next hj =>
      have hr : r.filter (fun e => e.1 != k) = r := ih hk
      simp only [tdel, List.filter_cons, bne_iff_ne, ne_eq, hj, not_false_eq_true, if_true, hr]

/-- The hub with the agents' copies as in `ls`. -/
def withLines (h : Hub) (ls : List (Nat × AgentLine)) : Hub := { h with agentLines := ls }

theorem quiet_withLines {h : Hub} (ls : List (Nat × AgentLine)) (hq : h.quiet = true) : (withLines h ls).quiet = true :=
  quiet_of_same rfl rfl ⟨rfl, rfl, rfl, rfl, rfl, rfl, rfl⟩ hq

/-- The state in which an agent holds the line of key `key`: 0 not at all, 1 S, 2 E, 3 M (R200). -/
def heldSt (h : Hub) (key : Nat) : Nat := ((tget h.agentLines key).map (·.st)).getD 0

/-- The agents' copies after a snoop of the line of key `key`, which an agent that holds it keeps in S where it shares it. -/
def snoopedLines (ls : List (Nat × AgentLine)) (key : Nat) (share : Bool) : List (Nat × AgentLine) :=
  match tget ls key with
  | some l => if share then tset ls key { l with st := 1 } else tdel ls key
  | none => ls

theorem snoopedLines_invalidated (ls : List (Nat × AgentLine)) (key : Nat) : snoopedLines ls key false = tdel ls key := by
  unfold snoopedLines
  split
  · rfl
  next hn => exact (tdel_eq_self hn).symm

theorem snoopedLines_shared {ls : List (Nat × AgentLine)} {key : Nat} {l : AgentLine} (hl : tget ls key = some l) :
    snoopedLines ls key true = tset ls key { l with st := 1 } := by
  simp only [snoopedLines, hl, if_true]

/-- The answer of agent `a`, which held the line in `st`, to a snoop: the line's data, or an acknowledgement alone (R201). -/
def snoopAnswer (h : Hub) (a home x st : Nat) (share wr : Bool) (ev : Nat) (bs : List Byte) : Hub :=
  if st == 3 || (st == 2 && wr) then emit h .snpAckData a [home, x, b2n (share && st != 0)] bs
  else emit h .snpAck a [0, home, x, b2n (st == 0 && ev == 2), b2n (share && st != 0)]

section
variable {h : Hub} {a home x st ev : Nat} {share wr : Bool} {bs : List Byte}

/-- A snoop that an agent is due changes its copy and sends its answer. -/
theorem snooped_answers {t : CohTxn} (hs : snoopOf h home x a = some t) (ht : t.share = share) :
    snooped h share a home x wr ev bs =
      snoopAnswer (withLines h (snoopedLines h.agentLines (a * 2 ^ 33 + t.req.line) share)) a home x
        (heldSt h (a * 2 ^ 33 + t.req.line)) share wr ev bs := by
  subst ht
  simp only [snooped, hs, bne_self_eq_false, Bool.false_eq_true, if_false]
  rfl

/-- The line's data goes home exactly from M, or from E once the agent has written the line. -/
theorem sendsData_iff : (st == 3 || (st == 2 && wr)) = true ↔ st = 3 ∨ (st = 2 ∧ wr = true) := by simp

theorem snoopAnswer_dirty (hd : st = 3 ∨ (st = 2 ∧ wr = true)) :
    snoopAnswer h a home x st share wr ev bs = emit h .snpAckData a [home, x, b2n share] bs := by
  have h0 : (st != 0) = true := bne_iff_ne.2 (by omega)
  rw [snoopAnswer, if_pos (sendsData_iff.2 hd), h0, Bool.and_true]

theorem snoopAnswer_clean (hd : ¬ (st = 3 ∨ (st = 2 ∧ wr = true))) (h0 : st ≠ 0) :
    snoopAnswer h a home x st share wr ev bs = emit h .snpAck a [0, home, x, 0, b2n share] := by
  rw [snoopAnswer, if_neg (sendsData_iff.not.2 hd), bne_iff_ne.2 h0, beq_eq_false_iff_ne.2 h0, Bool.and_true, Bool.false_and]
  rfl

theorem snoopAnswer_emits (h : Hub) (a home x st : Nat) (share wr : Bool) (ev : Nat) (bs : List Byte) : ∃ args data,
    snoopAnswer h a home x st share wr ev bs =
      emit h (if st = 3 ∨ (st = 2 ∧ wr = true) then .snpAckData else .snpAck) a args data := by
  by_cases hd : st = 3 ∨ (st = 2 ∧ wr = true)
  · rw [if_pos hd]
    exact ⟨_, _, if_pos (sendsData_iff.2 hd)⟩
  · rw [if_neg hd]
    exact ⟨_, _, if_neg (sendsData_iff.not.2 hd)⟩

end

/-! ### Answers at the home (R201 to R203) -/

section
variable {h : Hub} {a home x : Nat} {t : CohTxn}

theorem snoopAck_awaited (hs : snoopOf h home x a = some t) (ev held : Bool) :
    snoopAck h a home x ev held = settleTxn (leftBySnoop h t.req.line a (t.share && held)) { t with
      waits := t.waits.filter (· != a), held := t.held || (t.share && held)
      evicts := if ev && ownedNow h t.req.line a then t.evicts ++ [a] else t.evicts } := by
  simp only [snoopAck, hs]

/-- The owner's data is written before the transaction goes on. -/
theorem ackData_owner (hs : snoopOf h home x a = some t) {key : Nat} {dir : DirEntry} (hf : dirFind h t.req.line = some (key, dir))
    (h2 : dir.st = 2) (ha : dir.listed.contains a = true) (bs : List Byte) (bad : Nat) :
    ackData h a home x bs bad = settleTxn (writeBack h t.req.line (sliceB bs 0 64) bad) { t with
      waits := t.waits.filter (· != a), held := t.held || t.share } := by
  simp only [ackData, hs, hf, h2, ha, decide_true, Bool.and_self, if_true]

theorem completionAck_closes (hs : ackDue h a home x = some t) :
    completionAck h a home x = pumpAll { h with cohTxns := h.cohTxns.filter fun y => y.stxn != t.stxn } := by
  simp only [completionAck, hs]

/-! ### Completions at the agents (R200) -/

theorem cmpAt_grants {g : Nat} (hc : cmpDue h a x = some (t, g)) :
    cmpAt h a x = emit (withLines h (tset h.agentLines (a * 2 ^ 33 + t.req.line) ⟨g, t.req.ctx, t.req.vline⟩)) .snpAck a
      [1, t.stxn / 1024, x] := by
  simp only [cmpAt, hc, withLines]

end

/-! ### Time-outs (R205) -/

section
variable {h : Hub} {a home x : Nat} {t : CohTxn} (hd : timeoutDue h home x a = some t)
include hd

theorem snoopTimeout_isolates {g : Nat} (hg : agentAnchor (suspectAgent (timeoutShown h home a t.req.line) a) a = some g) :
    snoopTimeout h home x a = later (suspectAgent (timeoutShown h home a t.req.line) a) (.isolate g 6) := by
  simp only [snoopTimeout, hd, hg]

variable (hg : agentAnchor (suspectAgent (timeoutShown h home a t.req.line) a) a = none)
include hg

theorem snoopTimeout_lost {n : Nat} (hn : agentStation a = some n) :
    snoopTimeout h home x a = later (suspectAgent (timeoutShown h home a t.req.line) a) (.lost n) := by
  simp only [snoopTimeout, hd, hg, hn]

/-- Of an agent that is no station, the time-out is fatal. -/
theorem snoopTimeout_fatal (ha : 150 ≤ a) :
    snoopTimeout h home x a = later (suspectAgent (timeoutShown h home a t.req.line) a) (.fatal 6) := by
  have hn : agentStation a = none := by
    simp only [agentStation, Bool.and_eq_true, decide_eq_true_eq]
    rw [if_neg (by omega), if_neg (by omega), if_neg (by omega)]
  simp only [snoopTimeout, hd, hg, hn, ha, decide_true, if_true]

end

/-! ### The statements -/

/-- A command inside the data half leaves the hub its meaning leaves, where that is quiet. -/
theorem DoesOnly.of_inData {c : Instr} {s : State} {ok : Bool} {f : Hub → Hub} (he : exec c s = inData s ok f) (hk : ok = true)
    (hr : s.hub.runs = true) {k : Hub} (hf : f s.hub = k) (hq : k.quiet = true) : DoesOnly c s k :=
  (Does.of_inData he hk hr hf).only hq

/-- Settles O47: each message passes its gate and its permit, and the equations above say what it leaves. -/
theorem coherenceCommands : Obligations.CoherenceCommands := by
  refine ⟨?_, ?_, ?_, ?_, ?_, ?_⟩
  · intro s a txn c v d m k k' e hr hok hh r there at_
    have goes {i : Instr} {h k₁ : Hub} {op sm : Nat} {bs : List Byte} {bad w ok : Bool} {f : Hub → Hub}
        (he : exec i s = inData s ok f) (hk : ok = true) (hf : f s.hub = cohReq h (r op sm bs bad) 0 d m)
        (hw : (op == 2 || op == 4 || op == 5 || op == 7) = w) (ht : there h (r op sm bs bad) w)
        (hg : cohHome k' (at_ (r op sm bs bad)) = k₁) : Does i s k₁ :=
      .of_inData he hk hr ((hf.trans (cohReq_translated ht.1 hw ht.2 hh)).trans hg)
    have hsm {sm : Nat} (h : sm < 4) : (cohOk a txn c v 0 && decide (sm < 4)) = true := by simp [hok, h]
    refine ⟨fun ht => ?_, fun ht => ?_, fun sm h4 ht => ?_, fun ht => ?_, fun sm bs bad h4 ht => ?_, fun hm ht => ?_,
      fun bs bad hm ht => ?_⟩
    · exact goes (exec_rdShared s a txn c v 0 d m) hok rfl rfl ht (cohHome_arrives rfl)
    · exact goes (exec_rdUnique s a txn c v 0 d m) hok rfl rfl ht (cohHome_arrives rfl)
    · exact goes (exec_rdOnce s a txn c v sm 0 d m) (hsm h4) rfl rfl ht (cohHome_arrives rfl)
    · exact goes (exec_upgrade s a txn c v 0 d m) hok rfl rfl ht (cohHome_arrives rfl)
    · exact goes (exec_wrLine s a txn c v sm bs bad 0 d m) (hsm h4) rfl rfl ht (cohHome_arrives rfl)
    · subst hm
      exact goes (exec_evictClean s a txn c v 0 d) hok rfl rfl ht (cohHome_evicts rfl)
    · subst hm
      exact goes (exec_evictDirty s a txn c v bs bad 0 d) hok rfl rfl ht (cohHome_evicts rfl)
  · intro s a home x t wr ev bs hr ha hhome hs key st dirty gone inv
    have hok : (decide (a < 152) && decide (home < 64)) = true := by simp [ha, hhome]
    have answers {i : Instr} (share : Bool) {k : Hub}
        (he : exec i s = inData s (decide (a < 152) && decide (home < 64)) fun h => snooped h share a home x wr ev bs)
        (ht : t.share = share) (hk : withLines s.hub (snoopedLines s.hub.agentLines key share) = k) (h0 : st ≠ 0) :
        (dirty → Does i s (emit k .snpAckData a [home, x, b2n share] bs)) ∧
          (¬ dirty → Does i s (emit k .snpAck a [0, home, x, 0, b2n share])) := by
      subst hk
      exact ⟨fun hd => .of_inData he hok hr ((snooped_answers hs ht).trans (snoopAnswer_dirty hd)),
        fun hd => .of_inData he hok hr ((snooped_answers hs ht).trans (snoopAnswer_clean hd h0))⟩
    have hgone : withLines s.hub (snoopedLines s.hub.agentLines key false) = gone :=
      congrArg (withLines s.hub) (snoopedLines_invalidated _ _)
    refine ⟨fun ht => ⟨?_, ?_⟩, fun ht l hl h0 => ?_⟩
    · exact answers false (exec_snpInv s a home x wr ev bs) ht hgone
    · exact answers false (exec_snpAll s a home x wr ev bs) ht hgone
    · intro kept
      have hst : st = l.st := by simp only [st, hl, Option.map_some, Option.getD_some]
      have hkept : withLines s.hub (snoopedLines s.hub.agentLines key true) = kept :=
        congrArg (withLines s.hub) (snoopedLines_shared hl)
      exact answers true (exec_snpShare s a home x wr ev bs) ht hkept (hst ▸ h0)
  · intro s a home x t k hr ha hhome
    have hok : (decide (a < 152) && decide (home < 64)) = true := by simp [ha, hhome]
    have hform : (decide (a < 152) && decide (home < 64) && formOk 0) = true := by simp [ha, hhome, formOk]
    refine ⟨fun ev held ht hs => ?_, fun bs bad key dir ht hs hf h2 hl => ?_, fun ht hs => ?_, fun g hc => ?_, fun why hx h1 h5 => ?_,
      fun hd => ⟨fun g hg => ?_, fun n hg hn => ?_, fun hg h150 => ?_⟩⟩
    · exact .of_inData (exec_snoopAck s a home x ev held 0) hform hr ((answer_takes ht).trans (snoopAck_awaited hs ev held))
    · exact .of_inData (exec_ackData s a home x bs bad 0) hform hr ((answer_takes ht).trans (ackData_owner hs hf h2 hl bs bad))
    · exact .of_inData (exec_completionAck s a home x 0) hform hr ((answer_takes ht).trans (completionAck_closes hs))
    · exact .of_inData (exec_cmp s a x) (decide_eq_true ha) hr (cmpAt_grants hc)
    · exact .of_inData (exec_nackPoison s a x why) (by simp only [ha, hx, h1, h5, decide_true, Bool.and_self]) hr rfl
    · exact .of_inData (exec_snoopTimeout s a home x) hok hr (snoopTimeout_isolates hd hg)
    · exact .of_inData (exec_snoopTimeout s a home x) hok hr (snoopTimeout_lost hd hg hn)
    · exact .of_inData (exec_snoopTimeout s a home x) hok hr (snoopTimeout_fatal hd hg h150)
  · intro s a hr ha _
    exact .of_inData (exec_agentSweepDone s a) (decide_eq_true ha) hr rfl
  · intro s c ags hr hc _ _
    exact .of_inData (exec_contextSweepDone s c ags) (decide_eq_true hc) hr rfl
  · intro s p hr hp hdbg hlive v
    exact .of_dataReg (exec_cohDirRead s p) (decide_eq_true hp) hr (if_neg (by rw [hdbg, hlive]; decide))

/-- Settles O48: a grant and a snoop each write one agent's copy and send one message (`cmpAt_grants`, `snoopAnswer_emits`). -/
theorem agentCopies : Obligations.AgentCopies := by
  intro s a home x t wr ev bs hq hr ha hhome key same st data
  have hok : (decide (a < 152) && decide (home < 64)) = true := by simp [ha, hhome]
  have sends {i : Instr} {ok : Bool} {f : Hub → Hub} (ls : List (Nat × AgentLine)) (kd : OutKind) (args : List Nat) (b : List Byte)
      (he : exec i s = inData s ok f) (hk : ok = true) (hf : f s.hub = emit (withLines s.hub ls) kd a args b)
      (hls : ∀ j, j ≠ key → tget ls j = tget s.hub.agentLines j) :
      DoesOnly i s (emit (withLines s.hub ls) kd a args b) ∧ same (emit (withLines s.hub ls) kd a args b) :=
    ⟨.of_inData he hk hr hf (quiet_emit _ _ _ _ (quiet_withLines ls hq)), hls, rfl, rfl, rfl, rfl⟩
  have answers {i : Instr} {share : Bool} {ls : List (Nat × AgentLine)} {held : Option AgentLine}
      (he : exec i s = inData s (decide (a < 152) && decide (home < 64)) fun h => snooped h share a home x wr ev bs)
      (ht : snoopOf s.hub home x a = some t ∧ t.share = share) (hl : snoopedLines s.hub.agentLines key share = ls)
      (hkey : tget ls key = held) (hls : ∀ j, j ≠ key → tget ls j = tget s.hub.agentLines j) :
      ∃ k, DoesOnly i s k ∧ tget k.agentLines key = held ∧ same k ∧ data k := by
    subst hl
    obtain ⟨args, b, hb⟩ := snoopAnswer_emits (withLines s.hub (snoopedLines s.hub.agentLines key share)) a home x st share wr ev bs
    obtain ⟨hdo, hsame⟩ := sends _ _ args b he hok ((snooped_answers ht.1 ht.2).trans hb) hls
    exact ⟨_, hdo, hkey, hsame, _, rfl, rfl⟩
  refine ⟨fun g hc => ?_, fun hs ht => ⟨?_, ?_⟩, fun hs ht l hl => ?_⟩
  · obtain ⟨hdo, hsame⟩ := sends _ _ _ _ (exec_cmp s a x) (decide_eq_true ha) (cmpAt_grants hc) fun _ hj => tget_tset_ne _ _ hj
    exact ⟨_, hdo, tget_tset_same _ _ _, hsame⟩
  · exact answers (exec_snpInv s a home x wr ev bs) ⟨hs, ht⟩ (snoopedLines_invalidated _ _) (tget_tdel_same _ _)
      fun _ hj => tget_tdel_ne _ hj
  · exact answers (exec_snpAll s a home x wr ev bs) ⟨hs, ht⟩ (snoopedLines_invalidated _ _) (tget_tdel_same _ _)
      fun _ hj => tget_tdel_ne _ hj
  · exact answers (exec_snpShare s a home x wr ev bs) ⟨hs, ht⟩ (snoopedLines_shared hl) (tget_tset_same _ _ _)
      fun _ hj => tget_tset_ne _ _ hj

end Sys2Proof.Machine
end

section
/-!
Proofs of the statements of 09_synchronisation.md: semaphore messages of guests and held posts (R237, R238, R240), the driver's actions
on semaphores, barriers, participants and contexts (R234, R235, R245, R246, R253 to R255), and the watchdog (R251).
-/
namespace Sys2Proof.Machine

/-! ### Messages of guests (R237, R238, R240) -/

/-- The pages of a range of `len` units of 32 bytes from unit `base` on (R238). -/
def acqPages (base len : Nat) : List Nat :=
  (List.range ((base * 32 + len * 32 - 1) / 4096 - base * 32 / 4096 + 1)).map fun i => (base * 32 / 4096 + i) * 4096

section
variable {h k : Hub} {site n txn c m v : Nat}

/-- A wait with an acquire range stays with its guest until the second flit; without one it goes to its slice. -/
theorem guestWaitGe_taken (thr : Nat) (acq : Bool)
    (ht : Takes h site 0 2 { askSem c with
      full := decide (fld h F.siteLimitsSemMax (anchorOf h site) ≤ guestWaits h (anchorOf h site)) } k) :
    guestWaitGe h site n txn c m thr acq 0 =
      if acq then setGuest k (anchorOf h site) { guest k (anchorOf h site) with
        part := some ⟨site, stnNum site n, txn, c, m, toSigned 64 thr⟩ }
      else semWait k (.guest (anchorOf h site) txn (stnNum site n)) c m (toSigned 64 thr) none :=
  arrive_takes ht

/-- A second flit of 1 to 2^27 units that follows its wait takes that wait to its slice. -/
theorem guestAcqRange_taken {b l : Nat} {q : PartWait} (hp : (guest h (anchorOf h site)).part = some q) (hs : q.site = site)
    (hx : q.txn = txn) (h0 : 0 < l) (hl : l ≤ 2 ^ 27)
    (ht : Takes (setGuest h (anchorOf h site) { guest h (anchorOf h site) with part := none }) site 0 2
      { askSem q.ctx with vas := acqPages b l, rd := true } k) :
    guestAcqRange h site txn b l 0 =
      semWait k (.guest (anchorOf h site) txn q.stn) q.ctx q.sem q.thr (some (b * 32, l)) := by
  have hform : (decide (l = 0) || decide (2 ^ 27 < l)) = false := by
    simp only [Bool.or_eq_false_iff, decide_eq_false_iff_not]
    omega
  have hhere : (q.site != site || q.txn != txn || (0 : Nat) == 1) = false := by simp [hs, hx]
  simp only [guestAcqRange, hp, hhere, hform, Bool.false_eq_true, if_false]
  exact arrive_takes ht

/-- A post that follows no pending write goes to its slice, be it fast or ordered. -/
theorem guestPost_goes {sub fast : Bool} (ht : Takes h site 0 2 (askSem c) k)
    (hd : (pendingWrites k (anchorOf h site) c).isEmpty = true) :
    guestPost h site n txn c m v sub fast 0 = semPost k (.guest (anchorOf h site) txn (stnNum site n)) c m v sub := by
  simp only [guestPost, arrive_takes ht, hd, Bool.or_true, if_true]

/-- An ordered post behind a pending write is held with the writes it follows. -/
theorem guestPost_held {sub : Bool} (ht : Takes h site 0 2 (askSem c) k)
    (hd : (pendingWrites k (anchorOf h site) c).isEmpty = false) :
    guestPost h site n txn c m v sub false 0 = { k with
      posts := k.posts ++ [⟨anchorOf h site, txn, c, m, v, sub, stnNum site n, pendingWrites k (anchorOf h site) c⟩] } := by
  simp only [guestPost, arrive_takes ht, hd, Bool.false_and, Bool.or_false, Bool.false_eq_true, if_false]

/-- A held post goes to its slice once none of the writes it follows is pending. -/
theorem postRelease_goes {a stn : Nat} {p : HeldPost}
    (hp : (h.posts.find? fun p => p.anchor == a && p.stn == stn && p.txn == txn) = some p)
    (hd : ∀ d ∈ p.due, d ∉ pendingWrites h a p.ctx) :
    postRelease h a stn txn = semPost { h with posts := h.posts.erase p } (.guest a txn stn) p.ctx p.sem p.value p.sub := by
  have hnone : (p.due.any fun d => (pendingWrites h a p.ctx).contains d) = false := by simpa using hd
  simp only [postRelease, hp, hnone, Bool.false_eq_true, if_false]

end

/-! ### Semaphores (R234, R235, R253) -/

section
variable {h : Hub} {n c : Nat}

/-- The owner's INIT sets the count and releases the waiters it meets. -/
theorem semInit_owner (hn : fld h F.syncSemSelSem = n) (ha : (sem h n).alloc = true) (ho : (sem h n).owner = fld h F.syncSemSelCtx)
    (hl : ctxLive h (fld h F.syncSemSelCtx) = true) :
    semInit h = releaseMet (semRes (setSem h n { sem h n with
      count := toSigned 64 (fld h F.syncSemValValue), baseline := toSigned 64 (fld h F.syncSemValValue),
      abandoned := false, handSet := false }) 0) n := by
  subst hn
  simp [semInit, hl, ha, ho]

/-- The grants on semaphore `n` but those of context `c`. -/
def otherGrants (h : Hub) (n c : Nat) : List Grant := dropIf h.grants fun x => x.sem == n && x.ctx == c

/-- The owner's GRANT gives a live context the rights named, in place of those it had on the semaphore (R235; log entry 86). -/
theorem semGrant_owner (hn : fld h F.syncSemSelSem = n) (hc : fld h F.syncSemGrantGrantee = c) (ha : (sem h n).alloc = true)
    (ho : (sem h n).owner = fld h F.syncSemSelCtx) (hr : (flag h F.syncSemGrantWait || flag h F.syncSemGrantPost) = true)
    (hl : ctxLive h c = true) (hroom : ((otherGrants h n c).filter fun x => x.sem % 64 == n % 64).length < 128) :
    semGrant h = semRes { h with
      grants := otherGrants h n c ++ [⟨n, c, flag h F.syncSemGrantWait, flag h F.syncSemGrantPost⟩] } 0 := by
  subst hn hc
  have hfit := Nat.not_le.2 hroom
  simp only [otherGrants] at hfit
  simp only [semGrant, ha, ho, hr, hl, hfit, otherGrants, bne_self_eq_false, Bool.not_true, Bool.or_self, Bool.false_eq_true, if_false]

/-- The owner's REVOKE takes the context's grant on the semaphore away. -/
theorem semRevoke_owner (hn : fld h F.syncSemSelSem = n) (hc : fld h F.syncSemGrantGrantee = c) (ha : (sem h n).alloc = true)
    (ho : (sem h n).owner = fld h F.syncSemSelCtx) (hg : (h.grants.any fun x => x.sem == n && x.ctx == c) = true) :
    semRevoke h = semRes { h with grants := otherGrants h n c } 0 := by
  subst hn hc
  simp only [semRevoke, ha, ho, hg, otherGrants, bne_self_eq_false, Bool.not_true, Bool.or_self, Bool.false_eq_true, if_false]

/-- In a debug session a write of an allocated slot is carried out and marked. -/
theorem handSet_open (f : Hub → Hub) (hd : debugOpen h = true) (ha : (sem h n).alloc = true) :
    handSet h n f = raise (f (setSem h n { sem h n with handSet := true })) E.syncHandSet := by
  simp only [handSet, hd, ha, Bool.not_true, Bool.or_self, Bool.false_eq_true, if_false]

end

/-! ### Barriers and participants (R245, R246, R253) -/

section
variable {h : Hub} {i : Nat}

/-- CREATE of a FREE record over two free semaphores of the live context named, and over bound participants. -/
theorem barCreate_free {x y c : Nat} (hi : fld h F.syncBarSelBarrier = i) (hx : fld h F.syncBarCfgArriveSem i = x)
    (hy : fld h F.syncBarCfgReleaseSem i = y) (hc : fld h F.syncBarCfgCtx i = c) (hxy : x ≠ y)
    (hs : (tgetD h.barriers i {}).state = 0) (hl : ctxLive h c = true) (hm : (barMask h i).isEmpty = false)
    (hown : ∀ z, z = x ∨ z = y → (sem h z).alloc = true ∧ (sem h z).owner = c ∧ (sem h z).barrier = false)
    (hbound : ∀ p ∈ barMask h i, (tget h.parts (c * 256 + p)).isSome = true) :
    barCreate h =
      (let k := setSem (setSem h x { sem h x with barrier := true }) y { sem h y with barrier := true }
       barRes { k with barriers := tset k.barriers i { state := 1, ctx := c, arrive := x, release := y, mask := barMask h i } } 0) := by
  subst hi hx hy hc
  obtain ⟨hxa, hxo, hxb⟩ := hown _ (.inl rfl)
  obtain ⟨hya, hyo, hyb⟩ := hown _ (.inr rfl)
  have hall : ((barMask h (fld h F.syncBarSelBarrier)).any fun p =>
      (tget h.parts (fld h F.syncBarCfgCtx (fld h F.syncBarSelBarrier) * 256 + p)).isNone) = false := by
    simpa [Option.isSome_iff_ne_none] using hbound
  simp [barCreate, hs, hl, hm, hxa, hxo, hxb, hya, hyo, hyb, hxy, hall]

/-- FORCE in a debug session releases the current generation of an ARMED record. -/
theorem barForce_armed (hd : debugOpen h = true) (hi : fld h F.syncBarSelBarrier = i) (hs : (tgetD h.barriers i {}).state = 1) :
    barForce h = barRelease (barRes h 0) i (tgetD h.barriers i {}) := by
  subst hi
  simp [barForce, hd, hs]

/-- A write of SYNC.PART for a participant that no ARMED barrier of its context names unbinds it with kind 0, and else binds it where the
table has room. -/
theorem partBind_unused {kd id c p : Nat} (hc : fld h F.syncPartSelCtx = c) (hp : fld h F.syncPartSelPart = p)
    (hok : partIdOk kd id = true) (hu : (h.barriers.any fun b => b.2.state == 1 && b.2.ctx == c && b.2.mask.contains p) = false)
    (hroom : kd = 0 ∨ h.parts.length < 16384) :
    partBind h kd id =
      if kd = 0 then { h with parts := tdel h.parts (c * 256 + p) } else { h with parts := tset h.parts (c * 256 + p) (kd, id) } := by
  subst hc hp
  simp only [partBind, hu, hok, Bool.not_true, Bool.or_self, Bool.false_eq_true, if_false]
  by_cases h0 : kd = 0
  · simp only [h0, if_true]
  · have hlen : ¬ 16384 ≤ h.parts.length := by omega
    simp only [h0, hlen, decide_false, Bool.and_false, Bool.false_eq_true, if_false]

end

/-! ### Contexts and the watchdog (R251, R255) -/

section
variable {h : Hub} {c : Nat}

theorem syncCtxCfg_inRange {w vec : Nat} (hc : fld h F.syncCtxSelCtx = c) (hw : w ≤ 600000) (hv : vec < vectors (ctxFunc h c)) :
    syncCtxCfg h w vec = setFld (setFld h F.syncCtxCfgWdogMs c w) F.syncCtxCfgVector c vec := by
  subst hc
  simp [syncCtxCfg, Nat.not_lt.2 hw, Nat.not_le.2 hv]

/-- Noting what fired leaves the operator's choices as they are. -/
@[simp] theorem odOn_wdogNote (h : Hub) (c what k : Nat) : odOn (wdogNote h c what) k = odOn h k := by
  simp [odOn, odNum, wdogNote]

/-- The watchdog of an ACTIVE context on one of its waits notes it, and kills the context or releases the wait as the
operator chose (R251; log entry 86). -/
theorem wdogFire_wait {n : Nat} {w : Wait} (hz : frozen h = false) (ha : ctxState h c = 2)
    (hw : (h.waits.find? fun w => w.index == n && w.ctx == c) = some w) :
    wdogFire h c n false =
      if odOn h OD.syncWdogKill then later (wdogNote h c w.sem) (.kill c 2)
      else releaseWait (wdogNote h c w.sem) w 2 := by
  simp only [wdogFire, hz, ha, hw, odOn_wdogNote, bne_self_eq_false, Bool.or_self, Bool.false_eq_true, if_false]

end

/-! ### The statement -/

/-- Settles O49: each command passes its gate, and the equations above say what it leaves. A grant that replaces an
earlier one and one watchdog command a wait are log entry 86, the station a request names is log entry 20. -/
theorem syncCommands : Obligations.SyncCommands := by
  refine ⟨?_, fun s a stn txn p hr ha hp hd => ?_, fun s hr => ?_, fun s c n w hr hc hz ha hw => ?_⟩
  · intro s site n txn c m v k hl hn hm a p stn
    have hunits : (isLink site && decide (n < 64) && decide (m < 131072) && formOk 0) = true := by simp [hl, hn, hm, formOk]
    refine ⟨fun thr ht => ⟨?_, ?_⟩, fun b l q hp hs hx h0 hlen ht => ?_,
      fun ht => ⟨fun fast hd => ⟨?_, ?_⟩, fun hd => ⟨?_, ?_⟩⟩⟩
    · exact .of_actUnit (exec_semWaitGe s site n txn c m thr true 0) hunits (guestWaitGe_taken thr true ht)
    · exact .of_actUnit (exec_semWaitGe s site n txn c m thr false 0) hunits (guestWaitGe_taken thr false ht)
    · exact .of_actUnit (exec_semAcqRange s site txn b l 0) (by simp [hl, formOk]) (guestAcqRange_taken hp hs hx h0 hlen ht)
    · exact .of_actUnit (exec_semAdd s site n txn c m v fast 0) hunits (guestPost_goes ht hd)
    · exact .of_actUnit (exec_semSub s site n txn c m v fast 0) hunits (guestPost_goes ht hd)
    · exact .of_actUnit (exec_semAdd s site n txn c m v false 0) hunits (guestPost_held ht hd)
    · exact .of_actUnit (exec_semSub s site n txn c m v false 0) hunits (guestPost_held ht hd)
  · exact .of_inData (exec_orderedPostRelease s a stn txn) ha hr (postRelease_goes hp hd)
  · intro h n c g v owned i
    refine ⟨fun ha hl => ?_, fun ⟨ha, ho⟩ hl => ?_, fun ⟨ha, ho⟩ hw hb => ?_, fun ⟨ha, ho⟩ hrt hl hroom => ?_,
      fun ⟨ha, ho⟩ hg => ?_, ?_, fun _ => ?_, fun hd hs => ?_,
      ?_, ?_, fun w vec hw hw20 hv11 hv => ?_, ?_⟩
    · exact .of_dataReg (exec_semInit s) rfl hr (semInit_free hl ha)
    · exact .of_dataReg (exec_semInit s) rfl hr (semInit_owner rfl ha ho hl)
    · exact .of_dataReg (exec_semFree s) rfl hr (semFree_owner ha ho hw hb)
    · exact .of_dataReg (exec_semGrant s) rfl hr (semGrant_owner rfl rfl ha ho hrt hl hroom)
    · exact .of_dataReg (exec_semRevoke s) rfl hr (semRevoke_owner rfl rfl ha ho hg)
    · intro x y hx hy hxy b hs hl hm hown hbound
      exact .of_dataReg (exec_barCreate s) rfl hr (barCreate_free rfl hx.symm hy.symm rfl hxy hs hl hm hown hbound)
    · exact .of_dataReg (exec_barDestroy s) rfl hr rfl
    · exact .of_dataReg (exec_barForce s) rfl hr (barForce_armed hd rfl hs)
    · intro kd id hkd hid hok c p hu
      have does {k : Hub} (hk : partBind h kd id = k) : Does (.partBind kd id) s k :=
        .of_dataReg (exec_partBind s kd id) (by simp [hkd, hid]) hr hk
      exact ⟨fun h0 => does ((partBind_unused rfl rfl hok hu (.inl h0)).trans (if_pos h0)),
        fun h0 hroom => does ((partBind_unused rfl rfl hok hu (.inr hroom)).trans (if_neg h0))⟩
    · exact .of_dataReg (exec_syncAudit s) rfl hr rfl
    · exact .of_dataReg (exec_syncCtxCfgWrite s w vec) (by simp only [hw20, hv11, decide_true, Bool.and_self]) hr
        (syncCtxCfg_inRange rfl hw hv)
    · intro m hm hd ha hs
      refine ⟨fun v => ?_, ?_, ?_⟩
      · exact .of_dataReg (exec_semSet s m 0 v) (by simp [hm]) hr (handSet_open _ hd ha)
      · exact .of_dataReg (exec_semWakeAll s m) (decide_eq_true hm) hr (handSet_open _ hd ha)
      · exact .of_dataReg (exec_semClrAbandoned s m) (decide_eq_true hm) hr (handSet_open _ hd ha)
  · have does {k : Hub} (hk : wdogFire s.hub c n false = k) : Does (.watchdogFire c n false) s k :=
      .of_inData (exec_watchdogFire s c n false) (decide_eq_true hc) hr hk
    exact ⟨fun hkill => does ((wdogFire_wait hz ha hw).trans (if_neg (by simp [hkill]))),
      fun hkill => does ((wdogFire_wait hz ha hw).trans (if_pos hkill))⟩

end Sys2Proof.Machine
end

section
/-!
Proofs of the statements of 10_spoke_sites.md, part 1: what counting cells and counting violations change (R272, R306, R307).
-/
namespace Sys2Proof.Machine

/-! ### Cells counted (R272) -/

section
variable (h : Hub) (x n : Nat)

/-- Counting received cells is counting in a register of the link. -/
theorem countRx_cases : countRx h x n = addFld h F.spkCellsRxRx x n ∨ countRx h x n = addFld h F.uciCellsRxRx (x - 32) n :=
  ite_eq_or_eq _ _ _

@[simp] theorem countRx_guests : (countRx h x n).guests = h.guests := by
  rcases countRx_cases h x n with e | e <;> simp [e]

@[simp] theorem countRx_links : (countRx h x n).links = h.links := by
  rcases countRx_cases h x n with e | e <;> simp [e]

@[simp] theorem countRx_hbm : (countRx h x n).hbm = h.hbm := by
  rcases countRx_cases h x n with e | e <;> simp [e]

@[simp] theorem odNum_countRx (k : Nat) : odNum (countRx h x n) k = odNum h k := by
  rcases countRx_cases h x n with e | e <;> simp [e]

@[simp] theorem guest_countRx (a : Nat) : guest (countRx h x n) a = guest h a := by simp only [guest, countRx_guests]

@[simp] theorem link_countRx (y : Nat) : link (countRx h x n) y = link h y := by simp only [link, countRx_links]

theorem fld_countRx {f : Fld} (i : Nat) (hs : f.reg ≠ .spkCellsRx) (hu : f.reg ≠ .uciCellsRx) : fld (countRx h x n) f i = fld h f i := by
  rcases countRx_cases h x n with e | e
  · rw [e, addFld, fld_setFld_reg _ _ _ _ hs]
  · rw [e, addFld, fld_setFld_reg _ _ _ _ hu]

@[simp] theorem anchorOf_countRx (y : Nat) : anchorOf (countRx h x n) y = anchorOf h y := by
  simp only [anchorOf, fld_countRx h x n y (f := F.siteStatusAnchor) (by decide) (by decide)]

@[simp] theorem siteState_countRx (a : Nat) : siteState (countRx h x n) a = siteState h a :=
  fld_countRx h x n a (by decide) (by decide)

theorem quiet_countRx (hq : h.quiet = true) : (countRx h x n).quiet = true := by
  rcases countRx_cases h x n with e | e
  · rw [e]
    exact quiet_addFld _ _ (by decide) hq
  · rw [e]
    exact quiet_addFld _ _ (by decide) hq

end

/-! ### Violations counted (R306, R307) -/

/-- The log entry of a violation of the guest at `a`. -/
def vioEntry (h : Hub) (a kind ctx src : Nat) (agent : Bool) (va : Nat) : VioEntry :=
  ⟨kind, ctx, src, agent, fld (addFld h F.siteVioTotalTotal a 1) F.siteVioTotalTotal a % 2 ^ 32, va⟩

/-- The hub with a violation of the guest at `a` counted and logged as `e`. -/
def vioCounted (h : Hub) (a : Nat) (e : VioEntry) : Hub :=
  raise (setGuest (addFld h F.siteVioTotalTotal a 1) a
    { guest h a with vlog := (e :: (guest h a).vlog).take 16, winCount := (guest h a).winCount + 1 }) E.siteViolation a

section
variable (h : Hub) (a : Nat) (e : VioEntry)

/-- The anchor's record after the violation. -/
theorem guest_vioCounted_same : guest (vioCounted h a e) a =
    { guest h a with vlog := (e :: (guest h a).vlog).take 16, winCount := (guest h a).winCount + 1 } := by
  simp only [vioCounted, guest, raise_guests]
  exact tgetD_tset_same _ _ _ _

/-- Other guests' records stay. -/
theorem guest_vioCounted_ne {b : Nat} (hb : b ≠ a) : guest (vioCounted h a e) b = guest h b := by
  simp only [vioCounted, guest, raise_guests]
  exact tgetD_tset_ne _ _ _ hb

@[simp] theorem vioCounted_hbm : (vioCounted h a e).hbm = h.hbm := by
  simp only [vioCounted, raise_hbm]
  rfl

@[simp] theorem vioCounted_links : (vioCounted h a e).links = h.links := by
  simp only [vioCounted, raise_links]
  rfl

@[simp] theorem odNum_vioCounted (k : Nat) : odNum (vioCounted h a e) k = odNum h k :=
  (odNum_raise _ _ _ _).trans (odNum_congr rfl rfl k)

theorem siteState_vioCounted (b : Nat) : siteState (vioCounted h a e) b = siteState h b :=
  calc siteState (vioCounted h a e) b
    _ = fld (addFld h F.siteVioTotalTotal a 1) F.siteStatusState b := fld_raise_reg _ _ _ (by decide) (by decide)
    _ = siteState h b := fld_setFld_reg _ _ _ _ (by decide)

theorem vioTotal_vioCounted :
    fld (vioCounted h a e) F.siteVioTotalTotal a = (fld h F.siteVioTotalTotal a + 1) % 2 ^ F.siteVioTotalTotal.w :=
  calc fld (vioCounted h a e) F.siteVioTotalTotal a
    _ = fld (addFld h F.siteVioTotalTotal a 1) F.siteVioTotalTotal a := fld_raise_reg _ _ _ (by decide) (by decide)
    _ = (fld h F.siteVioTotalTotal a + 1) % 2 ^ F.siteVioTotalTotal.w := fld_setFld_same _ _ _ _ (by decide)

theorem quiet_setGuest (g : Guest) (hq : h.quiet = true) : (setGuest h a g).quiet = true :=
  quiet_of_same rfl rfl ⟨rfl, rfl, rfl, rfl, rfl, rfl, rfl⟩ hq

theorem quiet_vioCounted (hq : h.quiet = true) : (vioCounted h a e).quiet = true :=
  quiet_raise _ _ (by decide) (by decide) (quiet_setGuest _ _ _ (quiet_addFld _ _ (by decide) hq))

/-- A violation that names neither a station nor an operation ends no command: it is counted and logged, and past the limit the guest
is isolated with cause FIREWALL. -/
theorem violation_noCommand (kind ctx src : Nat) (agent : Bool) (va : Nat) :
    violation h a kind ctx src agent va none none =
      (let k := vioCounted h a (vioEntry h a kind ctx src agent va)
       if odNum h (OD.siteVioLimit a) < (guest h a).winCount + 1 then later k (.isolate a 7) else k) := by
  rw [← odNum_vioCounted h a (vioEntry h a kind ctx src agent va)]
  rfl

end

theorem isLink_of_spoke {x : Nat} (hx : x < 32) : isLink x = true := decide_eq_true (by omega)

/-- LINK.BEAT of a spoke's guest in service is a violation of kind 8 (R278, R324). -/
theorem linkBeat_violates {s : State} {x : Nat} (hr : s.hub.runs = true) (hx : x < 32) (hs : inService s.hub x = true) :
    Does (.linkBeat x) s (violation (countRx s.hub x 1) (anchorOf s.hub x) 8 0 0 false 0 none none) :=
  .of_inData (exec_linkBeat s x) (isLink_of_spoke hx) hr (by simp [hs, hx, linkProtocol])

/-- Settles O54: the beat is a violation (`linkBeat_violates`) that no command is part of, so that it is counted and logged, and below
the limit the quiet hub stays quiet. -/
theorem violationsCount : Obligations.ViolationsCount := by
  intro s x hq hr hx hs a g
  let k := vioCounted (countRx s.hub x 1) a (vioEntry (countRx s.hub x 1) a 8 0 0 false 0)
  have hquiet : k.quiet = true := quiet_vioCounted _ _ _ (quiet_countRx _ _ _ hq)
  have hdoes : Does (.linkBeat x) s (if odNum s.hub (OD.siteVioLimit a) < g.winCount + 1 then later k (.isolate a 7) else k) := by
    simpa only [violation_noCommand, odNum_countRx, guest_countRx] using linkBeat_violates hr hx hs
  refine ⟨k, ?_, ?_, ?_, ?_, ?_, fun b hb => ?_, fun b => ?_, by simp [k], by simp [k],
    ((Hub.quiet_iff _).1 hquiet).1, fun hle => ?_, fun hlt => ?_⟩
  · rw [vioTotal_vioCounted, fld_countRx _ _ _ _ (by decide) (by decide)]
  · rw [guest_vioCounted_same]
    rfl
  · simp only [k, guest_vioCounted_same]
    exact List.length_take_le _ _
  · simp only [k, guest_vioCounted_same, guest_countRx, List.take_succ_cons, List.tail_cons]
    exact List.take_prefix _ _
  · simp only [k, guest_vioCounted_same, guest_countRx, g]
  · rw [guest_vioCounted_ne _ _ _ hb, guest_countRx]
  · rw [siteState_vioCounted, siteState_countRx]
  · rw [if_neg (Nat.not_lt.2 hle)] at hdoes
    exact hdoes.only hquiet
  · rwa [if_pos hlt] at hdoes

end Sys2Proof.Machine
end

section
/-!
Proofs of the statements of 10_spoke_sites.md, part 2: the commands of guest links in service: streaming (R276), truing (R281, R289),
stalls (R283, R284), credits (R272), the wires (R277, R285) and the UCIe ports (R329 to R333).
-/
namespace Sys2Proof.Machine

theorem isLink_port {p : Nat} (hp : p < 2) : isLink (32 + p) = true := decide_eq_true (by omega)

/-! ### Streaming (R276) -/

section
variable {h k : Hub} {site n txn c va sm : Nat}

/-- A streaming request that is taken joins the others and goes on. -/
theorem strReq_taken {w : Bool} (ht : Takes h site 0 2 (askStr h (anchorOf h site) n c va sm w) k) :
    strReq h site n txn c va sm w 0 =
      strGo { k with strs := k.strs ++
        [{ anchor := anchorOf h site, stn := stnNum site n, txn := txn, ctx := c, write := w, va := va, smask := sm }] } (stnNum site n) txn w :=
  arrive_takes ht

/-- The data of a write that waits for it is given to it, and the write goes on. -/
theorem strData_taken {r : StrReq} {bs : List Byte} {bad : Nat}
    (hf : (h.strs.find? fun r => r.stn == stnNum site n && r.txn == txn && r.write && r.data.isNone) = some r)
    (hd : (guest h (anchorOf h site)).dropW.contains (stnNum site n, txn) = false)
    (ht : Takes h site 5 (datLen (maskLen r.smask)) { cls := some 1, stn := some n } k) :
    strData h site n txn r.smask bs bad 0 =
      strGo { k with strs := mapIf k.strs (· == r) fun r => { r with data := some (bs, bad) } } (stnNum site n) txn true := by
  simp only [strData, hf, hd, Option.map_some, bne_self_eq_false, Bool.and_false, Bool.or_self, Bool.false_eq_true, if_false, arrive_takes ht]

theorem strGo_read {stn : Nat} {r : StrReq}
    (hf : (h.strs.find? fun r => r.stn == stn && r.txn == txn && r.write == false && !r.sent) = some r) :
    strGo h stn txn false = strRead h r := by
  simp only [strGo, hf, Bool.false_eq_true, if_false]

theorem strGo_write {stn : Nat} {r : StrReq}
    (hf : (h.strs.find? fun r => r.stn == stn && r.txn == txn && r.write == true && !r.sent) = some r) :
    strGo h stn txn true = strWrite h r := by
  simp only [strGo, hf, if_true]

end

section
variable {h : Hub} {x : Nat}

/-! ### Truing (R281, R289) -/

theorem truingWindow_due {g : Nat} (hu : linkUp h x = true) (ht : (link h x).truing = none) (hg : (activeGroups h x).contains g = true) :
    truingWindow h x g = sendTrue h x g := by
  simp only [truingWindow, hu, ht, hg, Option.isNone_none, Bool.and_self, if_true]

/-! ### Stalls (R283, R284, R331) -/

/-- The acknowledgement that a spoke's stall waits for puts the new map in use. -/
theorem mapAck_spoke (hx : x < 32) (hs : (link h x).stall = 1) : mapAck h x (link h x).mapB1 = mapInUse h x := by
  simp only [mapAck, hs, hx, bne_self_eq_false, Bool.false_eq_true, if_false, if_true]

/-- That of a UCIe port's stall starts the retrain. -/
theorem mapAck_port (hx : 32 ≤ x) (hs : (link h x).stall = 1) : mapAck h x 0 = setLink h x { link h x with stall := 2 } := by
  simp only [mapAck, hs, Nat.not_lt.2 hx, bne_self_eq_false, Bool.false_eq_true, if_false, if_true]

/-- A report without errors ends the stall. -/
theorem mapReport_clean (hs : (link h x).stall = 2) :
    mapReport h x 0 [] = stallEnds h x ((link h x).mapKind == 1) (link h x).newWidth := by
  simp [mapReport, hs]

/-- A report that names lanes has them fail, and the hub decides again. -/
theorem mapReport_lanes {n : Nat} {fs : List (Nat × Nat × Nat)} (hs : (link h x).stall = 2) (hf : fs ≠ []) :
    mapReport h x n fs = decideMap (failLanes h x fs) x := by
  simp [mapReport, hs, hf]

/-! ### Credits (R272) -/

theorem linkCredit_received (cs : List Nat) (ha : linkAlive h x = true) :
    linkCredit h x (some cs) =
      drainLink (countRx (setLink h x { link h x with guestCr := (link h x).guestCr.zipIdx.map fun e => e.1 + cs.getD e.2 0 }) x 1) x := by
  simp only [linkCredit, ha, Bool.not_true, Bool.false_eq_true, if_false]

theorem linkCredit_returned (ha : linkAlive h x = true) :
    linkCredit h x none =
      countTx (emit (setLink h x { link h x with
        hubCr := (link h x).hubCr.zipIdx.map fun e => e.1 + (link h x).owed.getD e.2 0, owed := [0, 0, 0, 0, 0, 0] })
        .linkCredit x (link h x).owed) x 1 := by
  simp only [linkCredit, ha, Bool.not_true, Bool.false_eq_true, if_false]

/-! ### The heartbeat, cell errors and retrains (R285, R332, R333) -/

/-- The heartbeat of a running guest is checked, but for a UCIe port in a stall. -/
theorem heartbeat_checked (hg : guestRuns h x = true) (hs : x < 32 ∨ (link h x).stall = 0) :
    (guestRuns h x && !(decide (32 ≤ x) && (link h x).stall != 0)) = true := by
  rcases hs with hx | h0
  · simp [hg, Nat.not_le.2 hx]
  · simp [hg, h0]

/-- The hub with an uncorrectable cell of link `x` counted. -/
def cellUeRaised (h : Hub) (x : Nat) : Hub := if x < 32 then raise h E.spkCellUe x else raise h E.uciCellUe (x - 32)

theorem cellUe_inService (data : Bool) (hs : inService h x = true) :
    cellUe h x data = if data then cellUeRaised h x else isolate (cellUeRaised h x) (anchorOf (cellUeRaised h x) x) 4 := by
  simp only [cellUe, cellUeRaised, hs, Bool.not_true, Bool.false_eq_true, if_false]

/-- A retrain that settles the port's repairs and width ends the stall. -/
theorem retrained_settles {k : Hub} {p : Nat} (hs : (link h (32 + p)).stall = 2) (hk : uciSettle h p = some k) :
    retrained h p = stallEnds k (32 + p) (flag k F.uciStatusX32 p && !flag h F.uciStatusX32 p) 1 := by
  simp only [retrained, hs, hk, bne_self_eq_false, Bool.false_eq_true, if_false]

end

/-! ### The statement -/

/-- Settles O51: each command passes its gate, and the equations above say what it leaves. -/
theorem guestLinkCommands : Obligations.GuestLinkCommands := by
  refine ⟨?_, fun s site n txn bad bs r k hr hl hn hm hf hd ht => ?_, fun s stn txn r hr => ⟨fun hf => ?_, fun hf => ?_⟩, ?_, ?_, ?_⟩
  · intro s site n txn c va sm k hr hok a r
    refine ⟨fun ht => ?_, fun ht => ?_⟩
    · exact .of_inData (exec_strRd s site n txn c va sm 0) hok hr (strReq_taken ht)
    · exact .of_inData (exec_strWr s site n txn c va sm 0) hok hr (strReq_taken ht)
  · exact .of_inData (exec_strWdata s site n txn r.smask bs bad 0) (by simp [hl, hn, hm, formOk]) hr (strData_taken hf hd ht)
  · exact .of_inData (exec_streamingRead s stn txn) rfl hr (strGo_read hf)
  · exact .of_inData (exec_streamingWrite s stn txn) rfl hr (strGo_write hf)
  · intro s x g hr hx hg l
    have hlink := isLink_of_spoke hx
    have hspoke := Nat.not_le.2 hx
    refine ⟨fun hu ht hin => ?_, fun lanes hok hs ht => ?_, fun ht => ?_, fun hride hu hf => ?_, fun hu hst => ?_,
      fun hs hst => ?_, fun hs hst => ?_, fun n fs hok hs hst hne => ?_, ?_⟩
    · exact .of_inData (exec_spokeTruingWindow s x g) (by simp [hx, hg]) hr (truingWindow_due hu ht hin)
    · exact .of_inData (exec_linkTrueRpt s x g lanes) (by simp only [hlink, hg, hok, decide_true, Bool.and_self]) hr
        (by simp only [hs, hspoke, Bool.not_true, Bool.false_eq_true, if_false])
    · exact .of_inData (exec_trueRptTimeout s x) (decide_eq_true hx) hr rfl
    · exact .of_dataReg (exec_spkTrueNow s x) (decide_eq_true hx) hride rfl
    · exact .of_inData (exec_spokeQuietPoint s x) (decide_eq_true hx) hr (by simp [hu, hst])
    · exact .of_inData (exec_linkMapAck s x l.mapB1) hlink hr
        (by simpa [hs, l] using mapAck_spoke (h := countRx s.hub x 1) hx (by simpa using hst))
    · exact .of_inData (exec_linkMapRpt s x 0 []) (by simp [hlink]) hr
        (by simpa [hs, hspoke, l] using mapReport_clean (h := countRx s.hub x 1) (by simpa using hst))
    · exact .of_inData (exec_linkMapRpt s x n fs) (by simp only [hlink, hok, Bool.and_self]) hr
        (by simpa [hs, hspoke] using mapReport_lanes (h := countRx s.hub x 1) (n := n) (by simpa using hst) hne)
    · exact .of_inData (exec_hbeatToggle s x) (decide_eq_true hx) hr rfl
  · intro s x hr hx l a
    refine ⟨fun hst => ?_, fun cs hc hlen ha => ?_, fun ha => ?_, fun hx32 hs => ?_, fun hs => ⟨?_, ?_⟩, fun hg hst => ?_,
      fun hg => ⟨?_, ?_⟩⟩
    · exact .of_inData (exec_stallBoundMiss s x) hx hr (if_pos (by simpa using hst))
    · exact .of_inData (exec_linkCredit s x (some cs)) (by simpa [hx, hlen] using hc) hr (linkCredit_received cs ha)
    · exact .of_inData (exec_linkCredit s x none) (by simp [hx]) hr (linkCredit_returned ha)
    · exact .of_inData (exec_linkBeat s x) hx hr (by simp [hs, Nat.not_lt.2 hx32])
    · exact .of_inData (exec_cellUe s x true) hx hr (cellUe_inService true hs)
    · exact .of_inData (exec_cellUe s x false) hx hr (cellUe_inService false hs)
    · exact .of_inData (exec_heartbeatLost s x) hx hr (if_pos (heartbeat_checked hg hst))
    · exact .of_inData (exec_guestResetRequest s x) hx hr (if_pos hg)
    · exact .of_inData (exec_guestError s x) hx hr (if_pos hg)
  · intro s p hr hp l
    have hport := decide_eq_true hp
    refine ⟨fun ls hok hs => ?_, fun hs hst => ?_, fun h hst hset => ?_, fun hst => ?_, fun hs => ?_⟩
    · exact .of_inData (exec_ucieLaneFail s p ls) (by simp only [hport, hok, Bool.and_self]) hr rfl
    · exact .of_inData (exec_linkMapAck s (32 + p) 0) (isLink_port hp) hr
        (by simpa [hs] using mapAck_port (h := countRx s.hub (32 + p) 1) (by omega) (by simpa using hst))
    · exact .of_inData (exec_ucieRetrainDone s p) hport hr (retrained_settles hst hset)
    · exact .of_inData (exec_ucieRetrainTimeout s p) hport hr (if_pos hst)
    · exact .of_inData (exec_ucieLinkDown s p) hport hr (by simp [hs, l])

end Sys2Proof.Machine
end

section
/-!
Proofs of the statements of 11_admission_firewall.md: the commands of an admission (R291, R293, R297 to R299, R512, R518), the presence
and power lines of a site (R262, R493, R559) and UCIe training (R321, R325).
-/
namespace Sys2Proof.Machine

section
variable {h k : Hub} {x : Nat}

/-! ### Presence (R262; log entry 29) -/

/-- A guest that leaves a spoke whose site is EMPTY, ISOLATED or REFUSED leaves it EMPTY. -/
theorem presence_leaves (hk : { h with present := h.present.erase x } = k) (h3 : siteState k x ≠ 3) (h2 : siteState k x ≠ 2)
    (h0 : siteState k x ≠ 0) (hd : h.dataReset = false) (hx : x < 32) :
    presence h x false = setFld (linkOff k x) F.siteStatusState x 1 := by
  simp only [presence, hk, h3, h2, h0, hx, decide_false, Bool.or_self, Bool.false_eq_true, if_false, if_true]
  exact if_neg (by simp [hd])

/-! ### Sideband transfers (R291, R325) -/

section
variable {t : Nat × Nat × Nat}

/-- A transfer that failed fewer than three times is tried again. -/
theorem sbRetry_again (ht : (guest h x).sbXfer = some t) (hn : (guest h x).sbTries < 3) :
    sbRetry h x = emit (setGuest h x { guest h x with sbTries := (guest h x).sbTries + 1 }) .sbRead x [t.2.1, t.2.2] := by
  simp only [sbRetry, ht, hn, if_true]

/-- One that failed three times refuses the guest. -/
theorem sbRetry_last (ht : (guest h x).sbXfer = some t) (hn : 3 ≤ (guest h x).sbTries) :
    sbRetry h x = checkRects (refuse (if x < 32 then h else raise h E.uciSbErr (x - 32)) x 1) := by
  simp only [sbRetry, ht, Nat.not_lt.2 hn, if_false]

/-- SIDEBAND_RETRY, and for a port UCIE_SB_TIMEOUT, are one failed transfer. -/
theorem transferFails_does {s : State} (hr : s.hub.runs = true) (hl : isLink x = true) (hk : sbRetry s.hub x = k) :
    Does (.sidebandRetry x) s k ∧ ∀ p, p < 2 → x = 32 + p → Does (.ucieSbTimeout p) s k := by
  refine ⟨.of_inData (exec_sidebandRetry s x) hl hr hk, fun p hp hx => ?_⟩
  subst hx
  exact .of_inData (exec_ucieSbTimeout s p) (decide_eq_true hp) hr hk

end

/-! ### Training (R280) -/

section
variable {bad : List (Nat × Nat × Nat)} (hx : x < 32) (hs : (guest h (anchorOf h x)).step = 6)
  (hc : (guest h (anchorOf h x)).covered.contains x = true) (ht : (guest h (anchorOf h x)).trained.contains x = false)
include hx hs hc ht

/-- A spoke that locked, and for which a width state is left, is trained. -/
theorem spokeTrained_locked (hw : chooseWidth (failLanes h x bad) x true = some k) :
    spokeTrained h x true bad = trainedAll k (anchorOf h x) x := by
  simp only [spokeTrained, hs, hc, ht, hw, Nat.not_le.2 hx, decide_false, bne_self_eq_false, Bool.not_true, Bool.or_self,
    Bool.false_eq_true, if_false]

/-- One that did not lock refuses its guest. -/
theorem spokeTrained_unlocked : spokeTrained h x false bad = refuse h (anchorOf h x) 6 := by
  simp only [spokeTrained, hs, hc, ht, Nat.not_le.2 hx, decide_false, bne_self_eq_false, Bool.not_true, Bool.not_false, Bool.or_self,
    Bool.false_eq_true, if_false, if_true]

end

/-! ### Commands to the guest (R293) -/

/-- TRAIN_CLR ends on one of the guest's sites. -/
theorem guestCmdEnd_clearing (hc : (guest h (anchorOf h x)).clearing.contains x = true) (ok : Bool) :
    guestCmdEnd h x ok = setGuest h (anchorOf h x)
      { guest h (anchorOf h x) with clearing := (guest h (anchorOf h x)).clearing.erase x } := by
  simp only [guestCmdEnd, hc, if_true]

theorem guestCmdTimeout_clearing (hc : (guest h (anchorOf h x)).clearing.contains x = true) :
    guestCmdTimeout h x = isolate h (anchorOf h x) 3 := by
  simp only [guestCmdTimeout, hc, if_true]

/-- What the end of command `cmd` to the guest at `a` comes to: 1 ADMIT, 2 LEASE_START, 3 LEASE_END, 4 SCRUB, for context `c` in lease
slot `sl`. -/
def cmdEnded (h : Hub) (a cmd c sl : Nat) (ok : Bool) : Hub :=
  match cmd with
  | 1 => if ok then afterAdmit h a else refuse h a 8
  | 2 => leaseStarted h a c sl ok
  | 3 => leaseSweep h a sl
  | _ => if ok then leaseFreed h a sl else isolate h a 3

section
variable {cmd c sl : Nat} (hc : (guest h (anchorOf h x)).clearing.contains x = false) (ha : x = anchorOf h x)
  (hcur : (guest h (anchorOf h x)).sbCur = some (cmd, c, sl))
include hc ha hcur

/-- What the end of the command under way comes to. -/
theorem guestCmdEnd_current (ok : Bool) : guestCmdEnd h x ok = cmdEnded (sbNext h (anchorOf h x)) (anchorOf h x) cmd c sl ok := by
  have hne : (x != anchorOf h x) = false := by simpa using ha
  simp only [guestCmdEnd, hc, hne, hcur, Bool.false_eq_true, if_false]
  rfl

/-- A time-out of ADMIT refuses the guest, one of another command isolates it. -/
theorem guestCmdTimeout_current :
    guestCmdTimeout h x = if cmd = 1 then refuse h (anchorOf h x) 8 else isolate h (anchorOf h x) 3 := by
  have hne : (x != anchorOf h x) = false := by simpa using ha
  simp only [guestCmdTimeout, hc, hne, hcur, Bool.false_eq_true, if_false]
  split
  case h_1 he => cases he
  case h_2 he =>
    cases he
    rfl
  case h_3 hn he =>
    cases he
    rw [if_neg]
    rintro rfl
    exact hn _ _ rfl

end

/-! ### Site power (R559) -/

/-- A current up to the peak of the descriptor, and up to 80 A, is kept and ends a run of readings above it. -/
theorem ioutPoll_normal {i : Nat} (hs : siteState h x = 2 ∨ siteState h x = 3) (hi : i ≤ 800)
    (hp : i ≤ numAt (guest h (anchorOf h x)).desc 32 1 * 10) :
    ioutPoll h x i false true =
      (let k := setOdNum h (OD.siteIoutA x) 2 i
       setGuest k (anchorOf h x) { guest h (anchorOf h x) with overI := tset (guest h (anchorOf h x)).overI x 0 }) := by
  have hon : (siteState h x == 2 || siteState h x == 3) = true := by simpa using hs
  simp [ioutPoll, hon, Nat.not_lt.2 hi, Nat.not_lt.2 hp]

end

/-! ### The statement -/

/-- Settles O52: each command passes its gate, and the equations above say what it leaves. That an ADMITTED guest stays so when its
presence line goes high is log entry 29; what FAIL answers is log entry 70. -/
theorem admissionCommands : Obligations.AdmissionCommands := by
  refine ⟨fun s x hl hon hd => ⟨?_, fun h3 h2 h0 hdr hx => ?_⟩, ?_, ?_, fun s p offer ok bad hr hp hb hs => ?_,
    ?_⟩
  · exact .of_actUnit (exec_guestPresence s x true) hl (by simp [hon, hd, presence])
  · exact .of_actUnit (exec_guestPresence s x false) hl
      (by simp only [hon, hd, beq_self_eq_true, Bool.and_self, if_true, presence_leaves rfl h3 h2 h0 hdr hx])
  · intro s x t hr hl ht again last
    refine ⟨fun ws hw => ?_, fun hn => ?_, fun hn => ?_⟩
    · exact .of_inData (exec_sidebandTransferDone s x ws) (by simpa [hl] using hw) hr rfl
    · exact transferFails_does hr hl (sbRetry_again ht hn)
    · exact transferFails_does hr hl (sbRetry_last ht hn)
  · intro s x hr hl a g
    refine ⟨fun hs => ?_, fun hs => ?_, fun hs => ?_, fun hs => ?_, fun v hs => ?_, fun bad k hx hb hs hc ht hw => ?_,
      fun bad hx hb hs hc ht => ?_, fun bad hb hs hc hg hclr => ?_, fun hclr => ⟨fun ok => ?_, ?_⟩, fun cmd c sl hclr ha hcur => ?_⟩
    · exact .of_inData (exec_sbReadyTimeout s x) hl hr (if_pos hs)
    · exact .of_inData (exec_signatureCheckDone s x) hl hr rfl
    · exact .of_inData (exec_gateDeadline s x) hl hr (if_pos (by simpa using hs))
    · exact .of_inData (exec_fwAnswerTimeout s x) hl hr (if_pos hs)
    · exact .of_inData (exec_guestPreq s x v) hl hr (if_pos hs)
    · exact .of_inData (exec_spokeTrainingDone s x true bad) (by simp only [hl, hb, Bool.and_self]) hr (spokeTrained_locked hx hs hc ht hw)
    · exact .of_inData (exec_spokeTrainingDone s x false bad) (by simp only [hl, hb, Bool.and_self]) hr (spokeTrained_unlocked hx hs hc ht)
    · exact .of_inData (exec_gateRunEnd s x bad) (by simp only [hl, hb, Bool.and_self]) hr rfl
    · exact .of_inData (exec_guestCmdEnd s x ok) hl hr (guestCmdEnd_clearing hclr ok)
    · exact .of_inData (exec_guestCmdTimeout s x) hl hr (guestCmdTimeout_clearing hclr)
    · have ends (ok : Bool) {k : Hub} (hk : guestCmdEnd s.hub x ok = k) : Does (.guestCmdEnd x ok) s k :=
        .of_inData (exec_guestCmdEnd s x ok) hl hr hk
      have timesOut {k : Hub} (hk : guestCmdTimeout s.hub x = k) : Does (.guestCmdTimeout x) s k :=
        .of_inData (exec_guestCmdTimeout s x) hl hr hk
      have ended := guestCmdEnd_current hclr ha hcur
      have late := guestCmdTimeout_current hclr ha hcur
      refine ⟨?_, ?_, ?_, ?_, fun hne => timesOut (late.trans (if_neg hne))⟩
      · rintro rfl
        exact ⟨ends true (ended true), ends false (ended false), timesOut (late.trans (if_pos rfl))⟩
      · rintro rfl ok
        exact ends ok (ended ok)
      · rintro rfl ok
        exact ends ok (ended ok)
      · rintro rfl
        exact ⟨ends true (ended true), ends false (ended false)⟩
  · exact .of_inData (exec_ucieTrainingDone s p true ok offer bad) (by simp only [hb, decide_eq_true hp, Bool.and_self]) hr rfl
  · intro s x i hr hx hi hs hmax a h hpeak
    exact .of_inData (exec_siteIoutPoll s x i false true) (by simp [hx, hi]) hr (ioutPoll_normal hs hmax hpeak)

end Sys2Proof.Machine
end

section
/-!
Proofs of the statements of 11_admission_firewall.md: leases (R306, R309 to R311), violation windows (R307), the driver's site controls
(R313, R316, R317) and automatic re-admission (R316).
-/
namespace Sys2Proof.Machine

section
variable {h : Hub} {a sl : Nat}

/-! ### Leases (R309 to R311) -/

/-- GRANT of a free slot that passes every check of R310 records that LEASE_START is under way and sends it. The guest is ADMITTED and,
on a spoke, named by its anchor; a guest that is not shared has no other slot in use; no other slot in use has the context. -/
theorem leaseGrant_granted {others : List Nat} (hsl : fld h F.siteLeaseSelSlot a = sl)
    (ho : ((List.range 16).filter fun t => t != sl && slotUsed h a t) = others) (hst : siteState h a = 3)
    (han : a < 32 → anchorOf h a = a) (hfree : slotUsed h a sl = false) (hsh : shared h a = true ∨ others = [])
    (hctx : ctxState h (leaseCtx h a sl) = 2) (hdis : ∀ t ∈ others, leaseCtx h a t ≠ leaseCtx h a sl) (hwin : winBad h a sl = false) :
    leaseGrant h a = sbCmd (setLeaseRec h a sl { step := 1 }) a 2 (leaseCtx h a sl) sl := by
  have hanchor : (decide (a < 32) && anchorOf h a != a) = false := by simpa using han
  have halone : (!shared h a && !others.isEmpty) = false := by rcases hsh with e | e <;> simp [e]
  have hother : (others.any fun t => leaseCtx h a t == leaseCtx h a sl) = false := by simpa using hdis
  simp only [leaseGrant, hsl, ho, hst, hanchor, hfree, halone, hctx, hother, hwin, bne_self_eq_false, Bool.or_self, Bool.false_eq_true,
    if_false]

/-- END of an ACTIVE slot starts its drain. -/
theorem leaseEndSel_active (hst : leaseState (leaseRes h a 0) a (fld h F.siteLeaseSelSlot a) = 1) :
    leaseEndSel h a = setLeaseRec (setFld (leaseRes h a 0) F.siteLeaseState (lkey a (fld h F.siteLeaseSelSlot a)) 2) a
      (fld h F.siteLeaseSelSlot a) { step := 2 } :=
  if_pos hst

section
variable (hst : leaseState h a sl = 2) (hstep : (leaseRec h a sl).step = 2)
include hst hstep

/-- The condition that the end of a drain and its time-out both check. -/
theorem lease_draining : (leaseState h a sl = 2 && (leaseRec h a sl).step == 2) = true := by simp [hst, hstep]

/-- A draining slot without resident operations has drained. -/
theorem drainDone_drained (hops : residentOps h a (leaseCtx h a sl) = false) : drainDone h a sl = leaseDrained h a sl :=
  if_pos (by rw [lease_draining hst hstep, hops]; rfl)

end

/-! ### The driver's site controls (R313, R316, R317) -/

/-- ISOLATE of a site that is ADMITTING or ADMITTED isolates it with cause 8. -/
theorem siteIsolate_isolates (hst : siteState h a = 2 ∨ siteState h a = 3) : siteIsolate h a = isolate (setFld h F.siteCtlResult a 0) a 8 := by
  rcases hst with e | e <;> simp [siteIsolate, e]

/-- READMIT of a site that is ISOLATED or REFUSED starts at once, or is held for a control half that is down. -/
theorem siteReadmit_taken (hst : siteState h a = 4 ∨ siteState h a = 5) :
    siteReadmit h a =
      (let k := setFld h F.siteCtlResult a 0
       setFld (if h.ctlDown then { k with held := h.held ++ [.readmit a] } else readmit k a) F.siteCtlReadmit a 1) :=
  if_neg (by rcases hst with e | e <;> simp [e])

/-! ### Automatic re-admission (R316) -/

/-- An isolated guest whose agents are all FREE and which has a try left is admitted again, under the same hold. -/
theorem autoReadmit_taken (hst : siteState h a = 4) (hags : ((guest h a).agentIds.all fun i => agentState h i == 0) = true)
    (htry : (guest h a).autoTries < odNum h (OD.siteAutoReadmit a)) :
    autoReadmit h a =
      (let k := setGuest h a { guest h a with autoTries := (guest h a).autoTries + 1 }
       if h.ctlDown then { k with held := k.held ++ [.readmit a] } else readmit k a) :=
  if_pos (by simp only [hst, hags, htry, decide_true, Bool.and_self])

end

/-! ### The statement -/

/-- Settles O53: each command passes its gate, and the equations above say what it leaves. A GRANT that passes every check does not depend
on their order, which is log entry 109. -/
theorem leaseCommands : Obligations.LeaseCommands := by
  constructor
  · intro s a hr hl h sl c others
    refine ⟨fun hst han hfree hsh hctx hdis hwin => ?_, fun hst => ?_, fun hst => ?_, fun hst => ⟨fun hd => ?_, fun hd => ?_⟩⟩
    · exact .of_dataReg (exec_leaseGrant s a) hl hr (leaseGrant_granted rfl rfl hst han hfree hsh hctx hdis hwin)
    · exact .of_dataReg (exec_leaseEnd s a) hl hr (leaseEndSel_active hst)
    · exact .of_dataReg (exec_siteIsolate s a) hl hr (siteIsolate_isolates hst)
    · exact .of_dataReg (exec_siteReadmit s a) hl hr (by rw [siteReadmit_taken hst, hd]; rfl)
    · exact .of_dataReg (exec_siteReadmit s a) hl hr (by rw [siteReadmit_taken hst, hd]; rfl)
  · intro s a hr hl g
    refine ⟨fun sl hsl hst hstep => ⟨fun hops => ?_, ?_⟩, fun c => ?_, ?_, fun hst hags htry => ?_⟩
    · exact .of_inData (exec_leaseDrainDone s a sl) (by simp [hl, hsl]) hr (drainDone_drained hst hstep hops)
    · exact .of_inData (exec_leaseDrainTimeout s a sl) (by simp [hl, hsl]) hr (if_pos (lease_draining hst hstep))
    · exact .of_inData (exec_leaseGraceEnd s a c) hl hr rfl
    · exact .of_inData (exec_violationWindowEnd s a) hl hr rfl
    · have taken := autoReadmit_taken hst hags htry
      intro k
      exact ⟨fun hd => .of_inData (exec_autoReadmit s a) hl hr (taken.trans (if_neg (by simp [hd]))),
        fun hd => .of_inData (exec_autoReadmit s a) hl hr (taken.trans (if_pos hd))⟩

end Sys2Proof.Machine
end

section
/-!
Proofs of the statements of 13_rim.md: errors of flits and links (R348, R349), and the routers' port counters (R353).
-/
namespace Sys2Proof.Machine

/-! ### Registers returned to their reset values -/

/-- A filter that drops every entry of a key leaves the table nothing there. -/
theorem tget_dropIf_drop {α : Type} (t : List (Nat × α)) {p : Nat × α → Bool} {k : Nat} (hp : ∀ v, p (k, v) = true) :
    tget (dropIf t p) k = none := by
  induction t with
  | nil => rfl
  | cons e r ih =>
    obtain ⟨j, v⟩ := e
    by_cases hj : j = k
    · subst hj
      simpa [dropIf, hp] using ih
    · cases he : p (j, v) <;> simp_all [dropIf, tget]

/-- A register of the reset reads its reset value. -/
theorem getReg_resetRegs_dropped (h : Hub) {p : Reg → Nat → Bool} {r : Reg} {i : Nat} (hp : p r i = true) :
    getReg (resetRegs h p) r i = regReset h.variant r i := by
  have hlt := Reg.num_lt r
  have hnum : (i * 1024 + r.num) % 1024 = r.num := by omega
  have hbank : (i * 1024 + r.num) / 1024 = i := by omega
  have hgone : tget (resetRegs h p).regs (i * 1024 + r.num) = none :=
    tget_dropIf_drop _ fun _ => by simp only [hnum, hbank, Reg.all_num, hp]
  simp only [getReg, hgone]
  rfl

/-- A reset that leaves the states of the contexts alone keeps a hub quiet. -/
theorem quiet_resetRegs {h : Hub} {p : Reg → Nat → Bool} (hp : ∀ c, p .ctxStatus c = false) (hq : h.quiet = true) :
    (resetRegs h p).quiet = true := by
  rw [Hub.quiet_iff] at hq ⊢
  obtain ⟨htodo, hops, hcmds, hstrs, hreads, hmem, hctx⟩ := hq
  refine ⟨htodo, hops, hcmds, hstrs, hreads, hmem, fun c hc => ?_⟩
  have hstate : ctxState (resetRegs h p) c = ctxState h c := by
    simp only [ctxState, fld, F.ctxStatusState, getReg_resetRegs h (hp c)]
  rw [hstate]
  exact hctx c (usedCtx_resetRegs hc)

/-! ### CNT_CLEAR (R353) -/

/-- The port counters of a router are 32 banks. -/
theorem rimBank_router {n port net : Nat} (hp : port < 8) (hn : net < 4) : rimBank n port net / 32 = n := by
  simp only [rimBank]
  omega

section
variable (h : Hub) {n : Nat} {r : Reg}

/-- The router's port counters read their reset values. -/
theorem getReg_rimClear_counter (b : Nat) (hr : r = .rimPortFlits ∨ r = .rimPortStall ∨ r = .rimPortErr) (hb : b / 32 = n) :
    getReg (rimClear h n) r b = regReset h.variant r b :=
  getReg_resetRegs_dropped h (by simpa [hb, or_assoc] using hr)

/-- Other registers and other routers' port counters keep their values. -/
theorem getReg_rimClear_other (b : Nat) (ho : (r ≠ .rimPortFlits ∧ r ≠ .rimPortStall ∧ r ≠ .rimPortErr) ∨ b / 32 ≠ n) :
    getReg (rimClear h n) r b = getReg h r b := by
  refine getReg_resetRegs h ?_
  rcases ho with ⟨hflits, hstall, herr⟩ | hb
  · simp [hflits, hstall, herr]
  · simp [hb]

end

theorem quiet_rimClear {h : Hub} (n : Nat) (hq : h.quiet = true) : (rimClear h n).quiet = true := quiet_resetRegs (fun _ => rfl) hq

theorem rimCntClear_does {s : State} {n : Nat} (hr : s.hub.rides = true) (hn : n < 64) : Does (.rimCntClear n) s (rimClear s.hub n) :=
  .of_dataReg (exec_rimCntClear s n) (decide_eq_true hn) hr rfl

/-- Settles O26: the command leaves `rimClear`, which is quiet and differs in the registers alone; the reset value of the three counters
is 0. -/
theorem cntClearFrame : Obligations.CntClearFrame := by
  intro s n hq hr hn
  refine ⟨(rimClear s.hub n).regs, (rimCntClear_does hr hn).only (quiet_rimClear n hq), fun port net hp ht => ⟨?_, ?_, ?_⟩,
    fun r b ho => getReg_rimClear_other s.hub b ho⟩
  · exact getReg_rimClear_counter s.hub _ (.inl rfl) (rimBank_router hp ht)
  · exact getReg_rimClear_counter s.hub _ (.inr (.inl rfl)) (rimBank_router hp ht)
  · exact getReg_rimClear_counter s.hub _ (.inr (.inr rfl)) (rimBank_router hp ht)

/-! ### Flits in error (R348, R349) -/

section
variable {h : Hub} {r port net syn : Nat} {holds : Bool}

theorem flitError_corrected (again : Bool) (ho : secdedOutcome (flitBits net) syn holds = .corrected) :
    flitError h r port net syn holds again = flitFixed h r port net := by
  simp only [flitError, ho]

/-- The first failure of a flit is retried, whatever the limit. -/
theorem flitError_firstRetry (ho : secdedOutcome (flitBits net) syn holds = .uncorrectable) :
    flitError h r port net syn holds false =
      (let k := addFld (raise h E.rimRetry r) F.rimPortErrRetry (rimBank r port net) 1
       let k := setOdNum k OD.rimRetryTotal 8 ((odNum k OD.rimRetryTotal + 1) % 2 ^ 64)
       emit { k with rimTries := tset k.rimTries (rimBank r port net) 1 } .linkRetry r [port, net]) := by
  simp only [flitError, ho]
  rfl

/-- A resent flit that fails with its retries used up fails the link. -/
theorem flitError_limit (ho : secdedOutcome (flitBits net) syn holds = .uncorrectable)
    (hlim : odNum h OD.rimRetryLimit ≤ tgetD h.rimTries (rimBank r port net) 0) (hp : port < 4) :
    flitError h r port net syn holds true =
      later (let k := raise h E.rimLinkFail r
             setFld k F.rimStatusLinkFailed r (fld k F.rimStatusLinkFailed r ||| 2 ^ port)) (.fatal 1) := by
  simp only [flitError, ho, hlim, hp, if_true, decide_true, Bool.and_self]

end

/-- Settles O25: each command passes its gate, and the equations above say what it leaves. -/
theorem rimCommands : Obligations.RimCommands := by
  intro s r port net syn n route holds again hr hnet
  refine ⟨fun hrun hport => ?_, fun hrun hport h1 h16 => ?_, fun hrun => ?_, fun hrun hroute hbad => ?_,
    fun hride => rimCntClear_does hride hr⟩
  · have does {k : Hub} (hk : flitError s.hub r port net syn holds again = k) : Does (.rimFlitUe r port net syn holds again) s k :=
      .of_inData (exec_rimFlitUe s r port net syn holds again) (by simp [hr, hport, hnet]) hrun hk
    refine ⟨fun ho => does (flitError_corrected again ho), fun ho ha => ?_, fun ho ha hlim hlink => ?_⟩
    · subst ha
      exact does (flitError_firstRetry ho)
    · subst ha
      exact does (flitError_limit ho hlim hlink)
  · exact .of_inData (exec_rimRetryRequest s r port net n) (by simp [hr, hport, hnet, h1, h16]) hrun rfl
  · exact .of_inData (exec_rimStorageUe s r) (decide_eq_true hr) hrun rfl
  · exact .of_inData (exec_rimRouteErr s r route) (by simp only [hr, hroute, decide_true, Bool.and_self]) hrun (if_pos hbad)

end Sys2Proof.Machine
end

section
/-!
Proofs of the statements of 00_scope.md, part 4: what a step answers, its reset, and what every step keeps (R491).
-/
namespace Sys2Proof.Machine

/-! ### Every command is an effect behind a gate -/

/-- The outcome is an effect's with its consequences where `ok` holds, else the fault that no such unit exists. -/
def Gated (ok : Bool) (s : State) (o : Host.Outcome State Fault Refusal) : Prop := ∃ f, o = actUnit ok s f

section
variable {s : State} {o : Host.Outcome State Fault Refusal} {ok : Bool} {f : Hub → Hub} {path peer k fn i n : Nat} {b : List Byte}

theorem Gated.of_actUnit (he : o = actUnit ok s f) : Gated ok s o := ⟨f, he⟩

theorem Gated.of_act (he : o = act s f) : Gated true s o := ⟨f, he⟩

theorem Gated.of_dataReg (he : o = dataReg s ok f) : Gated ok s o := .of_actUnit he

theorem Gated.of_ctlReg (he : o = ctlReg s f) : Gated true s o := .of_act he

theorem Gated.of_inData (he : o = inData s ok f) : Gated ok s o := .of_actUnit he

theorem Gated.of_odRow (he : o = odRow s path peer k b) : Gated (inRange path 1 3) s o := .of_actUnit he

theorem Gated.of_cfgRow (he : o = cfgRow s fn f) : Gated (decide (fn < 64)) s o := .of_actUnit he

theorem Gated.of_regionRow (he : o = regionRow s i n) : Gated (decide (i < 64)) s o := .of_actUnit he

theorem Gated.of_plainReq {op agent txn ctx vline form dirErr memErr : Nat} (he : o = plainReq s op agent txn ctx vline form dirErr memErr) :
    Gated (cohOk agent txn ctx vline form) s o := .of_inData he

/-- A region's row of the dictionary, where the region exists. -/
theorem Gated.of_bindRow (he : o = if i < 64 then odRow s path peer k b else .fault .noSuchUnit) :
    Gated (decide (i < 64) && inRange path 1 3) s o := by
  by_cases hi : i < 64
  · rw [if_pos hi] at he
    rw [decide_eq_true hi, Bool.true_and]
    exact .of_odRow he
  · rw [if_neg hi] at he
    rw [decide_eq_false hi, Bool.false_and]
    exact .of_actUnit (f := id) he

/-- The four registers that VECTOR_REG_WRITE can name; there is no other. -/
theorem Gated.of_vectorRow {which unit value : Nat} (he : o = execVectorRegWrite which unit value s) :
    Gated (if which = 0 then isCtx unit else decide (which < 4)) s o := by
  rcases which with _ | _ | _ | _ | n <;> dsimp only [execVectorRegWrite] at he
  · rw [if_pos rfl]
    exact .of_dataReg he
  · exact .of_dataReg he
  · exact .of_ctlReg he
  · exact .of_ctlReg he
  · rw [if_neg (Nat.succ_ne_zero _), decide_eq_false (by omega)]
    exact .of_actUnit he

theorem Gated.next_or_fault (hg : Gated ok s o) :
    (ok = true ∧ ∃ h, o = .next { s with hub := settle h }) ∨ (ok = false ∧ o = .fault .noSuchUnit) := by
  obtain ⟨f, rfl⟩ := hg
  rcases actUnit_cases (ok := ok) (s := s) (f := f) with ⟨hk, he⟩ | ⟨hk, he⟩
  · exact .inl ⟨hk, _, he⟩
  · exact .inr ⟨hk, he⟩

end

/-- Whether a command's gate is open is whether it is well formed, whatever the state. -/
theorem exec_gated (c : Instr) (s : State) : Gated c.wf s (exec c s) := by
  cases c <;> dsimp only [exec]
  case stemBeatSend | stemBeat | stemBeatTimeout | stemWordUe | stemDict | stemNotice | ctlHalfReturn |
      warmRestartPhaseEnd | hubCtlDataReset | hubCtlCtlRestart | coldPowerUp | perst | hotReset | linkDown | powerLoss |
      hostCompletionTimeout | pmeTurnOff | lcJtagTransition | attestRecordReady | dbgVerifyDone | mgmtWatchdog | sramUe |
      kmpRead | kmpDescribe | kmpWrite | kmpNotifyAck | kmpResponseExpiry | notifyResend | fieldTxCollision |
      plcaBeaconLoss | sbRead | storeCommit | storeCommitRetry | coastEntry | kickstandWake | rtcAlarm | avsInRegulation |
      avsTimeout | avsRetry | bootPhaseEnd | bootPhaseOverrun | pllLockTimeout | stemUpTimeout | fwuEraseDone |
      fwuAutoConfirm | endpointCoreUe | perstDeassert | plcaBeaconReturn | dadComplete =>
    exact .of_act rfl
  case regWrite | w1cWrite | stemReg | doorbellWrite | hbmCattrip | semWaitGe | semAdd | semSub | semAcqRange |
      guestPresence | atsInvalidation | configRequest | bar4Read | bar4Write | initiateFlr | flrDone | hostCompletion |
      msixUnmask | dbgNonce | fieldFrameRx | sbWrite | expertNonce | expertIdleTimeout | proofLockoutEnd | parkEntry |
      parkWake | limiterTick | supplyFault | regRead | pcieLinkUp | dynamicAddressAssignment =>
    exact .of_actUnit rfl
  case queueCfgWrite | queueCreate | queueDestroy | queueResume | routeWinWrite | routeWrite | routeRead | crankSelftest |
      vecSelftest | drlSelftest | casPoolBind | casPoolUnbind | casSelftest | memScrubNow | memCtlRetrain | cohDirRead |
      tcInvalAll | semInit | semFree | semGrant | semRevoke | barCreate | barDestroy | barForce | partBind | syncAudit |
      syncCtxCfgWrite | semSet | semWakeAll | semClrAbandoned | spkTrueNow | siteIsolate | siteReadmit | leaseGrant |
      leaseEnd | rimCntClear | ctxFuncWrite | ctxPasidWrite | ctxCreate | ctxSuspend | ctxResume | ctxKill | ctxTeardown |
      whlApply | regCfgWrite | podChOpen | podChClose | podChResume =>
    exact .of_dataReg rfl
  case faultHeadWrite | mbxRead | mbxWrite | mbxDescribe | mbxNotePop | trcClear => exact .of_ctlReg rfl
  case lcScrap | attestNonce | dbgResponse | opdbg | expertProof | expertClose | overlaySwitch | ovlCreate | ovlDelete |
      ovlPut | ovlRemove | ovlClear | storeCmd | wakeReq | fwuBegin | fwuData | fwuEnd | fwuAbort | fwuActivate |
      fwuConfirm | fwuRollback | fwuDeleteGuest | dbgMemRead =>
    exact .of_odRow rfl
  case d3hotEntry | d0Return | bar4Resize | vfEnable => exact .of_cfgRow rfl
  case regionOpen | regionSeal | regionReload | regionRelease => exact .of_regionRow rfl
  case rdShared | rdUnique | upgrade => exact .of_plainReq rfl
  case bindLoad | bindAbort => exact .of_bindRow rfl
  case vectorRegWrite => exact .of_vectorRow rfl
  all_goals exact .of_inData rfl

/-- What a command answers, if it answers a state: the state with a settled hub, the queue as it was. -/
theorem exec_next {c : Instr} {s t : State} (he : exec c s = .next t) : ∃ h, t = { s with hub := settle h } := by
  rcases (exec_gated c s).next_or_fault with ⟨-, h, hn⟩ | ⟨-, hf⟩
  · exact ⟨h, by rw [hn] at he; exact (Host.Outcome.next.inj he).symm⟩
  · rw [hf] at he
    contradiction

/-! ### A step takes the command in front -/

theorem step_empty {s : State} (hp : s.pending = []) : step s = .next s := by simp only [step, hp]

theorem step_front {s : State} {c : Instr} {rest : List Instr} (hp : s.pending = c :: rest) :
    step s = exec c { s with pending := rest } := by simp only [step, hp]

/-- What every step does: nothing on an empty queue, else what its front command does with the rest of the queue. -/
theorem step_cases (s : State) :
    (s.pending = [] ∧ step s = .next s) ∨ ∃ c rest, s.pending = c :: rest ∧ step s = exec c { s with pending := rest } := by
  cases hp : s.pending with
  | nil => exact .inl ⟨rfl, step_empty hp⟩
  | cons c rest => exact .inr ⟨c, rest, rfl, step_front hp⟩

/-- Settles O1: both are the equation of `step` for a queue that starts with a command. -/
theorem stepRunsFrontCommand : Obligations.StepRunsFrontCommand :=
  ⟨fun _ _ _ hp => step_front hp, fun s c => step_front (s := s.withCommand c) rfl⟩

/-- Settles O2: the equation of `step` for an empty queue. -/
theorem idleOnEmptyQueue : Obligations.IdleOnEmptyQueue := fun _ hp => step_empty hp

/-- Settles O7: a command answers a state with its own queue, so that a step leaves the queue without its front. -/
theorem queueUntouched : Obligations.QueueUntouched := by
  have keeps (c : Instr) (s t : State) (he : exec c s = .next t) : t.pending = s.pending := by
    obtain ⟨h, rfl⟩ := exec_next he
    rfl
  refine ⟨keeps, fun s t hs => ?_⟩
  rcases step_cases s with ⟨hp, hn⟩ | ⟨c, rest, hp, he⟩
  · rw [hn] at hs
    obtain rfl := Host.Outcome.next.inj hs
    rw [hp, List.drop_nil]
  · rw [keeps c _ t (he ▸ hs), hp, List.drop_one, List.tail_cons]

/-- Settles O6: the gate of a command's meaning is open exactly where the command is well formed. -/
theorem completesIffWellFormed : Obligations.CompletesIffWellFormed := by
  intro c s
  rcases (exec_gated c s).next_or_fault with ⟨hw, h, hn⟩ | ⟨hw, hf⟩
  · rw [if_pos hw]
    exact ⟨_, hn⟩
  · rw [if_neg (by simp [hw])]
    exact hf

/-! ### The invariant (R491) -/

/-- Settles O5: whatever a command did, `settle` leaves no consequence over and ends Coast where there is work. -/
theorem stepKeepsInvariant : Obligations.StepKeepsInvariant := by
  have makes (s t : State) (c : Instr) (he : exec c s = .next t) : t.inv = true := by
    obtain ⟨h, rfl⟩ := exec_next he
    simp only [State.inv, settle_todo, settle_coastIdle, List.isEmpty_nil, Bool.and_self]
  refine ⟨fun s t hi hs => ?_, makes⟩
  rcases step_cases s with ⟨-, hn⟩ | ⟨c, rest, -, he⟩
  · obtain rfl := Host.Outcome.next.inj (hn ▸ hs)
    exact hi
  · exact makes _ t c (he ▸ hs)

/-! ### Right after power is applied -/

/-- No register is written yet. -/
theorem getReg_reset (r : Reg) (i : Nat) : getReg State.reset.hub r i = regReset .kh7364 r i := rfl

theorem fld_reset_zero {f : Fld} {i : Nat} (hz : regReset .kh7364 f.reg i = 0) : fld State.reset.hub f i = 0 := by
  rw [fld, getReg_reset, hz, Nat.zero_div, Nat.zero_mod]

/-- The low half of both identification registers is the part number, whatever the die's stepping and the function. -/
theorem regReset_part (v : Variant) (i : Nat) : regReset v .hubId i % 65536 = v.part ∧ regReset v .vfId i % 65536 = v.part := by
  have hp : v.part < 65536 := by cases v <;> decide
  simp only [regReset]
  omega

/-- Settles O3: no register is written yet, so that each reads the reset value of its table. -/
theorem resetRegisters : Obligations.ResetRegisters := by
  refine ⟨getReg_reset, ?_, rfl, fun n => ⟨rfl, rfl, rfl, rfl⟩, fun c => ?_, fun c slot => ?_, fun i => ⟨rfl, rfl, rfl, rfl, rfl, rfl⟩, rfl,
    regReset_part⟩
  · decide
  · exact fld_reset_zero rfl
  · exact fld_reset_zero rfl

/-- Settles O4: nothing is under way and every memory is empty. -/
theorem resetInvariant : Obligations.ResetInvariant := by
  refine ⟨?_, ?_, rfl, ?_, ?_, ?_⟩ <;> decide

end Sys2Proof.Machine
end

section
/-!
Proofs of the statements of 14_translation_contexts.md: the context commands (R356 to R361), translations and invalidations (R363 to R369),
the fault ring's HEAD and the vectors (R372, R421).
-/
namespace Sys2Proof.Machine

/-! ### A context's status register and the quiet hub -/

theorem mem_usedCtx_setReg {h : Hub} {r : Reg} {i v d : Nat} (hd : d ∈ usedCtx (setReg h r i v)) : d = i ∨ d ∈ usedCtx h := by
  simp only [usedCtx, List.mem_map, List.mem_filter] at hd ⊢
  obtain ⟨e, ⟨he, hn⟩, hk⟩ := hd
  rcases mem_tset he with rfl | he
  · have := Reg.num_lt r
    simp only at hk
    omega
  · exact .inr ⟨e, ⟨he, hn⟩, hk⟩

/-- A write of a field, of CTX.STATUS too, that does not leave the context SUSPENDING keeps a hub quiet. -/
theorem quiet_setStatus {h : Hub} {f : Fld} {c v : Nat} (hs : ctxState (setFld h f c v) c ≠ 3) (hq : h.quiet = true) :
    (setFld h f c v).quiet = true := by
  rw [Hub.quiet_iff] at hq ⊢
  obtain ⟨htodo, hops, hcmds, hstrs, hreads, hmem, hctx⟩ := hq
  refine ⟨htodo, hops, hcmds, hstrs, hreads, hmem, fun d hd => ?_⟩
  by_cases hdc : d = c
  · rw [hdc]
    exact hs
  · rw [ctxState, fld_setFld_bank _ _ hdc]
    exact hctx d ((mem_usedCtx_setReg hd).resolve_left hdc)

/-! ### Fields and events -/

theorem getReg_setFld_reg (h : Hub) {f : Fld} {r : Reg} (i j v : Nat) (hne : r ≠ f.reg) : getReg (setFld h f i v) r j = getReg h r j :=
  getReg_setReg_reg h i j _ hne

theorem getReg_setReg_bank (h : Hub) (q r : Reg) {i j : Nat} (v : Nat) (hne : j ≠ i) : getReg (setReg h q i v) r j = getReg h r j :=
  getReg_setReg_ne h v fun e => hne e.2

theorem getReg_setFld_bank (h : Hub) (f : Fld) (r : Reg) {i j : Nat} (v : Nat) (hne : j ≠ i) : getReg (setFld h f i v) r j = getReg h r j :=
  getReg_setReg_bank h _ r _ hne

/-- An event's flag reads 1. -/
theorem flag_raise (h : Hub) {e : Evt} (i : Nat) (hw : e.flag.w = 1) (hl : e.flag.lo + e.flag.w ≤ 64) (hr : e.flag.reg ≠ e.cnt.reg) :
    flag (raise h e i) e.flag i = true := by
  have hk : fld (addFld (setFld h e.flag i 1) e.cnt i 1) e.flag i = 1 := by
    rw [addFld, fld_setFld_reg _ _ _ _ hr, fld_setFld_same _ _ _ _ hl, hw]
    rfl
  have hs (k : Hub) (f v : Nat) : fld (sendMsix k f v) e.flag i = fld k e.flag i := by rw [fld, getReg_sendMsix, fld]
  rw [flag, beq_iff_eq, raise]
  split
  · split
    · rw [hs, hk]
    · exact hk
  · exact hk

/-! ### The result of a CTX.CTL action (R356, R357) -/

section
variable {h : Hub} {c : Nat}

/-- RESULT `r` and CFG_REFUSED: what a refused action of CTX.CTL leaves. -/
def actionRefused (h : Hub) (c r : Nat) : Hub := raise (setFld h F.ctxCtlResult c r) E.ctxCfgRefused c

theorem ctxRes_done : ctxRes h c 0 = setFld h F.ctxCtlResult c 0 := rfl

theorem ctxRes_refused {r : Nat} (hr : r ≠ 0) : ctxRes h c r = actionRefused h c r := if_neg hr

theorem quiet_ctlResult (hq : h.quiet = true) (r : Nat) : (setFld h F.ctxCtlResult c r).quiet = true := quiet_setFld _ _ (by decide) hq

theorem quiet_actionRefused (hq : h.quiet = true) (r : Nat) : (actionRefused h c r).quiet = true :=
  quiet_raise _ _ (by decide) (by decide) (quiet_ctlResult hq r)

end

/-! ### Actions in states that do not take them (R357) -/

section
variable {h : Hub} {c : Nat}

theorem ctxSuspend_refused (hs : ctxState h c ∈ [0, 1, 5, 6]) : ctxSuspend h c = actionRefused h c 1 := by
  simp only [List.mem_cons, List.not_mem_nil, or_false] at hs
  rcases hs with e | e | e | e <;> simp only [ctxSuspend, e] <;> rfl

theorem ctxResume_refused (hs : ctxState h c ∈ [0, 1, 5, 6]) : ctxResume h c = actionRefused h c 1 := by
  simp only [List.mem_cons, List.not_mem_nil, or_false] at hs
  rcases hs with e | e | e | e <;> simp only [ctxResume, e] <;> rfl

theorem ctxKill_refused (hs : ctxState h c ∈ [0, 1]) : ctxKill h c = actionRefused h c 1 := by
  simp only [List.mem_cons, List.not_mem_nil, or_false] at hs
  rcases hs with e | e <;> simp only [ctxKill, ctxLive, e] <;> rfl

theorem ctxTeardown_refused (hd : h.ctlDown = false) (hs : ctxState h c ∈ [0, 1]) : ctxTeardown h c = actionRefused h c 1 := by
  simp only [List.mem_cons, List.not_mem_nil, or_false] at hs
  rcases hs with e | e <;> simp only [ctxTeardown, hd, teardownCtx, e] <;> rfl

theorem ctxSuspend_suspended (hs : ctxState h c = 4) : ctxSuspend h c = setFld h F.ctxCtlResult c 0 := by
  simp only [ctxSuspend, hs, ctxRes_done]

theorem ctxResume_active (hs : ctxState h c = 2) : ctxResume h c = setFld h F.ctxCtlResult c 0 := by
  simp only [ctxResume, hs, ctxRes_done]

theorem ctxKill_killed (hs : ctxState h c ∈ [5, 6]) : ctxKill h c = setFld h F.ctxCtlResult c 0 := by
  simp only [List.mem_cons, List.not_mem_nil, or_false] at hs
  rcases hs with e | e <;> simp only [ctxKill, ctxLive, e] <;> rfl

end

/-- Settles O31: each action in such a state writes RESULT, and a refused one raises CFG_REFUSED; both keep a quiet hub quiet. -/
theorem refusedContextActions : Obligations.RefusedContextActions := by
  intro s c hq hr hd hc
  have hok : isCtx c = true := decide_eq_true hc
  have refused {i : Instr} {f : Hub → Hub} (he : exec i s = dataReg s (isCtx c) f) (hf : f s.hub = actionRefused s.hub c 1) :
      DoesOnly i s (actionRefused s.hub c 1) := .of_dataReg he hok hr hf (quiet_actionRefused hq 1)
  have idle {i : Instr} {f : Hub → Hub} (he : exec i s = dataReg s (isCtx c) f) (hf : f s.hub = setFld s.hub F.ctxCtlResult c 0) :
      DoesOnly i s (setFld s.hub F.ctxCtlResult c 0) := .of_dataReg he hok hr hf (quiet_ctlResult hq 0)
  refine ⟨fun hs => ⟨?_, ?_⟩, fun hs => ?_, fun hs => ?_, fun hs => ?_, fun hs => ?_, fun hs => ?_⟩
  · exact refused (exec_ctxSuspend s c) (ctxSuspend_refused hs)
  · exact refused (exec_ctxResume s c) (ctxResume_refused hs)
  · exact refused (exec_ctxKill s c) (ctxKill_refused hs)
  · exact refused (exec_ctxTeardown s c) (ctxTeardown_refused hd hs)
  · exact idle (exec_ctxSuspend s c) (ctxSuspend_suspended hs)
  · exact idle (exec_ctxResume s c) (ctxResume_active hs)
  · exact idle (exec_ctxKill s c) (ctxKill_killed hs)

/-! ### CREATE (R356) -/

theorem func_setFld (h : Hub) (f : Fld) (i v fn : Nat) : func (setFld h f i v) fn = func h fn := rfl

/-- CREATE's checks read CTX.STATUS, CTX.FUNC and CTX.PASID alone of the registers. -/
theorem createResult_setFld (h : Hub) {f : Fld} (i v c : Nat) (hs : f.reg ≠ .ctxStatus) (hf : f.reg ≠ .ctxFunc) (hp : f.reg ≠ .ctxPasid) :
    createResult (setFld h f i v) c = createResult h c := by
  have hstate (d : Nat) : ctxState (setFld h f i v) d = ctxState h d := fld_setFld_reg h i d v hs.symm
  have hfunc (d : Nat) : ctxFunc (setFld h f i v) d = ctxFunc h d := fld_setFld_reg h i d v hf.symm
  have hpasid (d : Nat) : fld (setFld h f i v) F.ctxPasidPasid d = fld h F.ctxPasidPasid d := fld_setFld_reg h i d v hp.symm
  have hused : usedCtx (setFld h f i v) = usedCtx h := usedCtx_setReg h i _ hs
  simp only [createResult, hstate, hfunc, hpasid, hused, func_setFld]

section
variable {h : Hub} {c : Nat}

/-- ATS and PASID are enabled, and the context's function is in D0 and in no function-level reset. -/
def createReady (h : Hub) (c : Nat) : Bool :=
  (func h (ctxFunc h c)).atsEn && (func h 0).pasidEn && !(func h (ctxFunc h c)).flr && (func h (ctxFunc h c)).pm == 0

/-- Another context of the function, neither FREE nor IDLE, has the PASID. -/
def pasidTaken (h : Hub) (c : Nat) : Prop :=
  ∃ d ∈ usedCtx h, d ≠ c ∧ 2 ≤ ctxState h d ∧ ctxFunc h d = ctxFunc h c ∧ fld h F.ctxPasidPasid d = fld h F.ctxPasidPasid c

theorem createResult_notIdle (hs : ctxState h c ≠ 1) : createResult h c = 1 := by simp [createResult, hs]

theorem createResult_notReady (hs : ctxState h c = 1) (hr : createReady h c = false) : createResult h c = 2 := by
  have hn : (!(func h (ctxFunc h c)).atsEn || !(func h 0).pasidEn || (func h (ctxFunc h c)).flr || (func h (ctxFunc h c)).pm != 0) = true := by
    rw [← Bool.not_false, ← hr]
    simp [createReady, bne]
  simp [createResult, hs, hn]

theorem createResult_ready (hs : ctxState h c = 1) (hr : createReady h c = true) : createResult h c =
    if (usedCtx h).any fun d => d != c && decide (2 ≤ ctxState h d) && ctxFunc h d == ctxFunc h c
      && fld h F.ctxPasidPasid d == fld h F.ctxPasidPasid c then 3 else 0 := by
  have hn : (!(func h (ctxFunc h c)).atsEn || !(func h 0).pasidEn || (func h (ctxFunc h c)).flr || (func h (ctxFunc h c)).pm != 0) = false := by
    rw [← Bool.not_true, ← hr]
    simp [createReady, bne]
  simp only [createResult, hs, hn, bne_self_eq_false, Bool.false_eq_true, if_false]

theorem createResult_taken (hs : ctxState h c = 1) (hr : createReady h c = true) (ht : pasidTaken h c) : createResult h c = 3 := by
  rw [createResult_ready hs hr, if_pos]
  simpa [pasidTaken, and_assoc] using ht

theorem createResult_free (hs : ctxState h c = 1) (hr : createReady h c = true) (ht : ¬ pasidTaken h c) : createResult h c = 0 := by
  rw [createResult_ready hs hr, if_neg]
  simpa [pasidTaken, and_assoc] using ht

/-- The context's fault registers, kill cause and audit result cleared. -/
def faultsCleared (h : Hub) (c : Nat) : Hub :=
  setReg (setFld (setReg (setReg h .ctxFaultVa c 0) .ctxFaultInfo c 0) F.ctxStatusKillCause c 0) .syncCtxStat c 0

/-- What CREATE leaves of a context that it takes. -/
def created (h : Hub) (c : Nat) : Hub :=
  setFld (setFld (emptyWindow (faultsCleared (setFld h F.ctxCtlCreate c 0) c) c) F.ctxStatusState c 2) F.ctxCtlResult c 0

theorem ctxCreate_refused {r : Nat} (hd : h.ctlDown = false) (hr : createResult h c = r) (h0 : r ≠ 0) :
    ctxCreate h c = actionRefused (setFld h F.ctxCtlCreate c 0) c r := by
  have hc : createResult (setFld h F.ctxCtlCreate c 0) c = r := (createResult_setFld h _ _ _ (by decide) (by decide) (by decide)).trans hr
  simp only [ctxCreate, hd, createCtx, hc, bne_iff_ne, ne_eq, h0, not_false_eq_true, if_true, ctxRes_refused h0]
  rfl

theorem ctxCreate_taken (hd : h.ctlDown = false) (hr : createResult (setFld h F.ctxCtlCreate c 0) c = 0) : ctxCreate h c = created h c := by
  simp only [ctxCreate, hd, createCtx, hr]
  rfl

end

section
variable (h : Hub) (c : Nat)

theorem getReg_emptyWindow (d : Nat) (r : Reg) (i : Nat) : getReg (emptyWindow h d) r i = getReg h r i := rfl

theorem quiet_emptyWindow (d : Nat) (hq : h.quiet = true) : (emptyWindow h d).quiet = true :=
  quiet_of_same rfl rfl ⟨rfl, rfl, rfl, rfl, rfl, rfl, rfl⟩ hq

/-- CREATE writes registers of its own context alone. -/
theorem getReg_created_bank (r : Reg) {i : Nat} (hi : i ≠ c) : getReg (created h c) r i = getReg h r i := by
  rw [created, getReg_setFld_bank _ _ _ _ hi, getReg_setFld_bank _ _ _ _ hi, getReg_emptyWindow, faultsCleared, getReg_setReg_bank _ _ _ _ hi,
    getReg_setFld_bank _ _ _ _ hi, getReg_setReg_bank _ _ _ _ hi, getReg_setReg_bank _ _ _ _ hi, getReg_setFld_bank _ _ _ _ hi]

theorem ctxState_created : ctxState (created h c) c = 2 :=
  (fld_setFld_reg _ _ _ _ (by decide)).trans (fld_setFld_same _ _ _ _ (by decide))

theorem fld_faultsCleared {f : Fld} (i : Nat) (h1 : f.reg ≠ .ctxFaultVa) (h2 : f.reg ≠ .ctxFaultInfo) (h3 : f.reg ≠ .ctxStatus)
    (h4 : f.reg ≠ .syncCtxStat) : fld (faultsCleared h c) f i = fld h f i := by
  have h3' : f.reg ≠ F.ctxStatusKillCause.reg := h3
  simp only [fld, faultsCleared, setFld, getReg_setReg_reg _ _ _ _ h1, getReg_setReg_reg _ _ _ _ h2, getReg_setReg_reg _ _ _ _ h3',
    getReg_setReg_reg _ _ _ _ h4]

/-- The state of a context is no part of what is cleared. -/
theorem ctxState_faultsCleared : ctxState (faultsCleared h c) c = ctxState h c := by
  rw [faultsCleared, ctxState_setReg _ _ _ _ (by decide), ctxState,
    fld_setFld_ne (f := F.ctxStatusKillCause) (g := F.ctxStatusState) _ _ _ rfl (by decide) (by decide)]
  exact (ctxState_setReg _ _ _ _ (by decide)).trans (ctxState_setReg _ _ _ _ (by decide))

theorem quiet_faultsCleared (hs : ctxState h c ≠ 3) (hq : h.quiet = true) : (faultsCleared h c).quiet = true := by
  refine quiet_setReg _ _ (by decide) (quiet_setStatus ?_ (quiet_setReg _ _ (by decide) (quiet_setReg _ _ (by decide) hq)))
  rwa [← ctxState_faultsCleared, faultsCleared, ctxState_setReg _ _ _ _ (by decide)] at hs

theorem quiet_created (hs : ctxState h c ≠ 3) (hq : h.quiet = true) : (created h c).quiet = true := by
  have hc : ctxState (setFld h F.ctxCtlCreate c 0) c ≠ 3 := by rwa [setFld, ctxState_setReg _ _ _ _ (by decide)]
  have hf := quiet_faultsCleared _ c hc (quiet_setFld _ _ (by decide) hq)
  exact quiet_ctlResult (quiet_ctxState _ _ (by decide) (quiet_emptyWindow _ _ hf)) 0

/-- CREATE leaves memory, the queues, the semaphores and the translation cache alone. -/
theorem created_frame : (created h c).hbm = h.hbm ∧ (created h c).queues = h.queues ∧ (created h c).sems = h.sems ∧
    (created h c).atc = h.atc := by
  rw [created, emptyWindow_frame]
  simp [faultsCleared]

/-- RESULT, the fault registers and the kill cause of a created context read 0. -/
theorem created_clear : fld (created h c) F.ctxCtlResult c = 0 ∧ getReg (created h c) .ctxFaultVa c = 0 ∧
    getReg (created h c) .ctxFaultInfo c = 0 ∧ fld (created h c) F.ctxStatusKillCause c = 0 := by
  refine ⟨fld_setFld_same _ _ _ _ (by decide), ?_, ?_, ?_⟩
  · rw [created, getReg_setFld_reg _ _ _ _ (by decide), getReg_setFld_reg _ _ _ _ (by decide), getReg_emptyWindow, faultsCleared,
      getReg_setReg_reg _ _ _ _ (by decide), getReg_setFld_reg _ _ _ _ (by decide), getReg_setReg_reg _ _ _ _ (by decide),
      getReg_setReg_same, Nat.zero_mod]
  · rw [created, getReg_setFld_reg _ _ _ _ (by decide), getReg_setFld_reg _ _ _ _ (by decide), getReg_emptyWindow, faultsCleared,
      getReg_setReg_reg _ _ _ _ (by decide), getReg_setFld_reg _ _ _ _ (by decide), getReg_setReg_same, Nat.zero_mod]
  · rw [created, fld_setFld_reg _ _ _ _ (by decide),
      fld_setFld_ne (f := F.ctxStatusState) (g := F.ctxStatusKillCause) _ _ _ rfl (by decide) (by decide), fld, getReg_emptyWindow,
      faultsCleared, getReg_setReg_reg _ _ _ _ (by decide)]
    exact fld_setFld_same _ _ _ _ (by decide)

/-- The entries of the context's window are gone, the others as before. -/
theorem tget_created_routes (i : Nat) : tget (created h c).routes i =
    if fld h F.ctxRouteWinBase c ≤ i ∧ i < fld h F.ctxRouteWinBase c + fld h F.ctxRouteWinCount c then none else tget h.routes i := by
  have hwin (f : Fld) (hf : f.reg = .ctxRouteWin) : fld (faultsCleared (setFld h F.ctxCtlCreate c 0) c) f c = fld h f c := by
    rw [fld_faultsCleared _ _ _ (by simp [hf]) (by simp [hf]) (by simp [hf]) (by simp [hf]), fld_setFld_reg _ _ _ _ (by simp [hf, F.ctxCtlCreate])]
  have := tget_emptyWindow (faultsCleared (setFld h F.ctxCtlCreate c 0) c) c i
  rw [hwin _ rfl, hwin _ rfl] at this
  exact this

end

/-- Settles O30: `createResult` decides, and what it refuses writes CTX.CTL and raises CFG_REFUSED. That the window's entries go while
CTX.ROUTE_WIN stays is log entry 118. -/
theorem createResults : Obligations.CreateResults := by
  intro s c hq hr hd hc f ready taken base refusedWith
  have hok : isCtx c = true := decide_eq_true hc
  have refused (r : Nat) (hres : createResult s.hub c = r) (h0 : r ≠ 0) (h8 : r % 2 ^ F.ctxCtlResult.w = r) : refusedWith r := by
    refine ⟨_, .of_dataReg (exec_ctxCreate s c) hok hr (ctxCreate_refused hd hres h0) (quiet_actionRefused (quiet_setFld _ _ (by decide) hq) r),
      ?_, ?_, ?_, ?_, ?_⟩
    · rw [actionRefused, fld_raise_reg _ _ _ (by decide) (by decide), fld_setFld_same _ _ _ _ (by decide), h8]
    · rw [actionRefused, ctxState_raise _ _ _ (by decide) (by decide)]
      exact (ctxState_setReg _ _ _ _ (by decide)).trans (ctxState_setReg _ _ _ _ (by decide))
    · exact flag_raise _ _ rfl (by decide) (by decide)
    · intro q i h1 h2 h3
      rw [actionRefused, getReg_raise_reg _ _ _ h2 h3, getReg_setFld_reg _ _ _ _ h1, getReg_setFld_reg _ _ _ _ h1]
    · simp [actionRefused]
  refine ⟨fun hs => ?_, fun hs hn => ?_, fun hs hy ht => ?_, fun hs hy ht => ?_⟩
  · exact refused 1 (createResult_notIdle hs) (by decide) (by decide)
  · exact refused 2 (createResult_notReady hs hn) (by decide) (by decide)
  · exact refused 3 (createResult_taken hs hy ht) (by decide) (by decide)
  · obtain ⟨hres, hva, hinfo, hcause⟩ := created_clear s.hub c
    have hz : createResult (setFld s.hub F.ctxCtlCreate c 0) c = 0 :=
      (createResult_setFld _ _ _ _ (by decide) (by decide) (by decide)).trans (createResult_free hs hy ht)
    exact ⟨_, .of_dataReg (exec_ctxCreate s c) hok hr (ctxCreate_taken hd hz) (quiet_created _ _ (by simp [hs]) hq),
      ctxState_created _ _, hres, hva, hinfo, hcause, fun q i hi => getReg_created_bank _ _ q hi, tget_created_routes _ _, created_frame _ _⟩

/-! ### The context commands in the states that take them (R356, R357, R358, R361, R421) -/

section
variable {h : Hub} {c v : Nat}

/-- A context that has no function yet is given the PF: no slot is left or taken. -/
theorem funcWrite_assignsPf (hs : ctxState h c = 0) (hv : v % 128 = 64) (ha : flag h F.ctxFuncAssigned c = false) :
    funcWrite h c v = setFld (setReg h .ctxFunc c 64) F.ctxStatusState c 1 := by
  have hf : v % 64 = 0 := by omega
  have hb : bitOf v 6 = true := by
    simp only [bitOf, beq_iff_eq]
    omega
  simp [funcWrite, leaveSlot, hs, hv, hf, hb, ha, b2n]

theorem pasidWrite_idle (hs : ctxState h c = 1) : pasidWrite h c v = setReg h .ctxPasid c (v % 2 ^ 20) := if_pos hs

theorem ctxSuspend_active (hs : ctxState h c = 2) : ctxSuspend h c = suspendCtx (setFld h F.ctxCtlResult c 0) c := by
  simp only [ctxSuspend, hs, ctxRes_done]

theorem ctxResume_suspended (hs : ctxState h c = 3 ∨ ctxState h c = 4) : ctxResume h c = resumeCtx (setFld h F.ctxCtlResult c 0) c := by
  rcases hs with e | e <;> simp only [ctxResume, e, ctxRes_done]

theorem ctxKill_live (hl : ctxLive h c = true) : ctxKill h c = killCtx (setFld h F.ctxCtlResult c 0) c 6 := by
  simp only [ctxKill, hl, if_true, ctxRes_done]

theorem ctxTeardown_starts (hd : h.ctlDown = false) (hs : ctxState h c = 2 ∨ ctxState h c = 4 ∨ ctxState h c = 5) :
    ctxTeardown h c = tearStart (setFld h F.ctxCtlResult c 0) c := by
  rcases hs with e | e | e <;> simp [ctxTeardown, hd, teardownCtx, e, ctxRes_done]

theorem ctxTeardown_held (hd : h.ctlDown = true) (hn : h.held.contains (.ctxTeardown c) = false) :
    ctxTeardown h c = { h with held := h.held ++ [.ctxTeardown c] } := by
  simp only [ctxTeardown, hd, hn, if_true, Bool.false_eq_true, if_false]

theorem ctxCfgWrite_stores (hv : v % 2 ^ 11 < vectors (ctxFunc h c)) : ctxCfgWrite h c v = setReg h .ctxCfg c (v % 2 ^ 12) :=
  if_neg (Nat.not_le.2 hv)

theorem podVecWrite_stores (hv : v % 2 ^ 11 < vectors (ctxFunc h (fld h F.podChCfgCtx (fld h F.podChSelCh)))) :
    podVecWrite h v = setReg h .podChVec (fld h F.podChSelCh) (v % 2 ^ 11) :=
  if_neg (Nat.not_le.2 hv)

theorem faultHead_moves (hv : (v + 2 ^ 32 - fld h F.faultHeadHead) % 2 ^ 32 ≤ (fld h F.faultTailTail + 2 ^ 32 - fld h F.faultHeadHead) % 2 ^ 32) :
    faultHead h v = setFld h F.faultHeadHead 0 v :=
  if_pos hv

end

/-- Settles O29: each command passes its gate, and the equations above say what it leaves. -/
theorem contextCommands : Obligations.ContextCommands := by
  refine ⟨fun s c v hr hc => ?_, fun s c hr hc => ?_, fun s v hu => ⟨fun u => ⟨?_, ?_⟩, fun hv => ?_⟩, fun s u v hr hv => ?_⟩
  · have hok : isCtx c = true := decide_eq_true hc
    have does {i : Instr} {f : Hub → Hub} {k : Hub} (he : exec i s = dataReg s (isCtx c) f) (hf : f s.hub = k) : Does i s k :=
      .of_dataReg he hok hr hf
    refine ⟨fun hs hv ha => ?_, fun hs => ?_, fun hd hz => ?_, fun hs => ?_, fun hs => ?_, fun hl => ?_, fun hd hs => ?_, fun hd hn => ?_,
      fun hv => ?_⟩
    · exact does (exec_ctxFuncWrite s c v) (funcWrite_assignsPf hs hv ha)
    · exact does (exec_ctxPasidWrite s c v) (pasidWrite_idle hs)
    · exact does (exec_ctxCreate s c) (ctxCreate_taken hd hz)
    · exact does (exec_ctxSuspend s c) (ctxSuspend_active hs)
    · exact does (exec_ctxResume s c) (ctxResume_suspended hs)
    · exact does (exec_ctxKill s c) (ctxKill_live hl)
    · exact does (exec_ctxTeardown s c) (ctxTeardown_starts hd hs)
    · exact does (exec_ctxTeardown s c) (ctxTeardown_held hd hn)
    · exact does (exec_vectorRegWrite s 0 c v) (ctxCfgWrite_stores hv)
  · exact .of_inData (exec_teardownStepDone s c) (decide_eq_true hc) hr rfl
  · exact .of_ctlReg (exec_vectorRegWrite s 2 u v) hu rfl
  · exact .of_ctlReg (exec_vectorRegWrite s 3 u v) hu rfl
  · exact .of_ctlReg (exec_faultHeadWrite s v) hu (faultHead_moves hv)
  · exact .of_dataReg (exec_vectorRegWrite s 1 u v) rfl hr (podVecWrite_stores hv)

/-! ### Translation completions and time-outs (R363, R364, R366) -/

section
variable {h : Hub} {t : TransReq} {status size addr : Nat} {r w u : Bool}

/-- A stale completion is discarded; its request goes out again, neither stale nor retried (R365, R369). -/
theorem trDone_stale (hs : t.stale = true) : trDone h t status size r w u addr =
    (let k := { h with trReqs := mapIf h.trReqs (· == t) fun t => { t with stale := false, retried := false } }
     emit (addFld k F.ctxAtcMissMiss t.ctx 1) .transReq (ctxFunc k t.ctx)
       [fld k F.ctxPasidPasid t.ctx, t.va / 4096 * 4096, b2n (!t.write)]) := by
  simp only [trDone, hs, if_true]

variable (hs : t.stale = false)
include hs

theorem trDone_error (he : status ≠ 0) : trDone h t status size r w u addr = trFailed { h with trReqs := h.trReqs.erase t } t 4 false := by
  simp [trDone, hs, he]

theorem trDone_noRight : trDone h t 0 size false false u addr = trFailed { h with trReqs := h.trReqs.erase t } t 1 false := by
  simp [trDone, hs]

theorem trDone_noRead (hw : t.write = false) :
    trDone h t 0 size false true u addr =
      trFailed { h with trReqs := h.trReqs.erase t } t 2 (!inBar4 { h with trReqs := h.trReqs.erase t } addr) := by
  simp [trDone, hs, hw]

theorem trDone_forbidden {k : Nat} (hr : resolve { h with trReqs := h.trReqs.erase t } t.ctx t.va size true true u addr = .inr k) :
    trDone h t 0 size true true u addr = trFailed { h with trReqs := h.trReqs.erase t } t k false := by
  simp [trDone, hs, hr]

/-- A translation with both rights, of a page that no bound region keeps from a reader, is cached, and whoever asked goes on. -/
theorem trDone_cached {e : AtcEntry} (hk : wasKilled { h with trReqs := h.trReqs.erase t } t.ctx = false)
    (hr : resolve { h with trReqs := h.trReqs.erase t } t.ctx t.va size true true u addr = .inl e) (hb : (t.write || e.host) = true) :
    trDone h t 0 size true true u addr = trWake (atcFill { h with trReqs := h.trReqs.erase t } e) t := by
  have hopen : (!t.write && !e.host) = false := by rw [← Bool.not_or, hb, Bool.not_true]
  simp [trDone, hs, hr, hk, hopen]

end

theorem trTimeout_second {h : Hub} {t : TransReq} (hc : (func h (ctxFunc h t.ctx)).ctoDisable = false) (hr : t.retried = true) :
    trTimeout h t = trFailed { h with trReqs := h.trReqs.erase t } t 4 false := by
  simp only [trTimeout, hc, hr, if_true, Bool.false_eq_true, if_false]

/-- An invalidation after which nothing was under way is completed at once. -/
theorem invalDone_idle {h : Hub} {tag f : Nat} {v : Inval} (hv : (h.invals.find? fun v => v.itag == tag && v.func == f) = some v)
    (hb : v.busy = []) : invalDone h tag f = emit { h with invals := h.invals.erase v } .invalComplete f [tag] := by
  simp only [invalDone, hv, hb, List.any_nil, Bool.false_eq_true, if_false]

/-- Settles O32: each command passes its gate, and the equations above say what it leaves. -/
theorem translationCommands : Obligations.TranslationCommands := by
  refine ⟨fun s c va who st size addr wr r w u t hr hc h12 h64 hf hs => ?_, fun s c va who wr t hr hc hf hcto hret => ?_,
    fun s tag fn pasid b n all htag hfn hd => ?_, fun s tag fn v hr htag hfn hv hb => ?_⟩
  · have does {k : Hub} (hk : trDone s.hub t st size r w u addr = k) : Does (.translationCompletion c va who wr st size r w u addr) s k :=
      .of_inData (exec_translationCompletion s c va who wr st size r w u addr) (by simp [isCtx, hc, h12, h64]) hr (by simp only [hf, hk])
    refine ⟨fun he => does (trDone_error hs he), ?_, ?_, ?_, ?_⟩
    · rintro rfl rfl rfl
      exact does (trDone_noRight hs)
    · rintro rfl hw rfl rfl
      exact does (trDone_noRead hs hw)
    · rintro rfl rfl rfl hk e he hb
      exact does (trDone_cached hs hk he hb)
    · rintro rfl rfl rfl k hk
      exact does (trDone_forbidden hs hk)
  · exact .of_inData (exec_atsCompletionTimeout s c va who wr) (decide_eq_true hc) hr (by simp only [hf, trTimeout_second hcto hret])
  · have hok : (decide (tag < 32) && decide (fn < 64)) = true := by simp [htag, hfn]
    exact ⟨fun hdr => .of_actUnit (exec_atsInvalidation s tag fn pasid all b n) hok (by simp [hd, hdr]),
      fun hdr => .of_actUnit (exec_atsInvalidation s tag fn pasid all b n) hok (by simp [hd, hdr])⟩
  · exact .of_inData (exec_atsInvalComplete s tag fn) (by simp [htag, hfn]) hr (invalDone_idle hv hb)

/-! ### Invalidations (R369) -/

section
variable (h : Hub) (hit : Pool → Bool)

theorem casBreak_atc : (casBreak h hit).atc = h.atc := each_keeps (·.atc) (fun _ _ => by simp) _ h
theorem casBreak_hbm : (casBreak h hit).hbm = h.hbm := each_keeps (·.hbm) (fun _ _ => by simp) _ h
theorem casBreak_sems : (casBreak h hit).sems = h.sems := each_keeps (·.sems) (fun _ _ => by simp) _ h

end

/-- `e` is cached for function `f` and `pasid`, or for any PASID, and its page overlaps `n` bytes from `b` on. -/
def invalidates (h : Hub) (f pasid b n : Nat) (all : Bool) (e : AtcEntry) : Bool :=
  ctxFunc h e.ctx == f && decide (2 ≤ ctxState h e.ctx) && (all || fld h F.ctxPasidPasid e.ctx == pasid) && overlaps e.va (2 ^ e.size) b n

section
variable (h : Hub) (tag f pasid b n : Nat) (all : Bool)

theorem atsInval_atc : (atsInval h tag f pasid all b n).atc = dropIf h.atc fun e => (h.atc.filter (invalidates h f pasid b n all)).contains e := by
  simp only [atsInval]
  rw [each_keeps (·.atc) (fun _ _ => by simp), casBreak_atc]
  rfl

theorem atsInval_hbm : (atsInval h tag f pasid all b n).hbm = h.hbm := by
  simp only [atsInval]
  rw [each_keeps (·.hbm) (fun _ _ => by simp), casBreak_hbm]

theorem atsInval_sems : (atsInval h tag f pasid all b n).sems = h.sems := by
  simp only [atsInval]
  rw [each_keeps (·.sems) (fun _ _ => by simp), casBreak_sems]

end

/-- Settles O33: the entries that go are those the invalidation concerns; tile-cache rows, pools and events are no part of the claim. -/
theorem invalidationDrops : Obligations.InvalidationDrops := by
  intro h tag f pasid b n all e
  refine ⟨?_, atsInval_hbm .., atsInval_sems ..⟩
  have hi : invalidates h f pasid b n all e = true ↔ ctxFunc h e.ctx = f ∧ 2 ≤ ctxState h e.ctx ∧
      (all = true ∨ fld h F.ctxPasidPasid e.ctx = pasid) ∧ e.va < b + n ∧ b < e.va + 2 ^ e.size := by
    simp [invalidates, overlaps, and_assoc]
  rw [atsInval_atc, ← hi]
  simp +contextual [dropIf]

/-! ### BAR4 writes drop every translation (R365) -/

section
variable {h : Hub} {v : Nat}

theorem quiet_dropAtc (hq : h.quiet = true) : (dropAtc h).quiet = true := quiet_of_same rfl rfl ⟨rfl, rfl, rfl, rfl, rfl, rfl, rfl⟩ hq

theorem quiet_setFunc {f : Nat} (x : Func) (hq : h.quiet = true) : (setFunc h f x).quiet = true :=
  quiet_of_same rfl rfl ⟨rfl, rfl, rfl, rfl, rfl, rfl, rfl⟩ hq

/-- A size that BAR4 advertises is taken while the PF's memory space is disabled. -/
theorem bar4Size_taken (hm : (func h 0).memEn = false) (h10 : 10 ≤ v) (h19 : v ≤ 19) :
    bar4Size h v = dropAtc (setFunc h 0 { func h 0 with bar4Log := v + 20, bar4 := 0 }) := by
  have hno : (decide (v < 10) || decide (19 < v)) = false := by simp [h10, h19]
  simp only [bar4Size, hm, Bool.false_or, hno, Bool.false_eq_true, if_false]

end

theorem func_setFunc_same (h : Hub) (f : Nat) (x : Func) : func (setFunc h f x) f = x := tgetD_tset_same ..

theorem func_dropAtc (h : Hub) (f : Nat) : func (dropAtc h) f = func h f := rfl

theorem bar4Resize_does {s : State} {k : Hub} {size : Bool} {v : Nat} (hu : endpointUp s.hub = true) (hc : ctlUp s.hub = true)
    (hf : (func s.hub 0).flr = false) (hk : (if size then bar4Size s.hub v else bar4Base s.hub v) = k) : Does (.bar4Resize size v) s k :=
  .of_cfgRow (exec_bar4Resize s size v) hu hc rfl (by decide) (by simp only [hf, Bool.false_eq_true, if_false, hk])

/-- Settles O21: both writes end in `dropAtc`; a completion of a stale request touches no entry and leaves the request outstanding. -/
theorem bar4DropsTranslations : Obligations.Bar4DropsTranslations := by
  refine ⟨fun s v hq hu hc hf => ⟨?_, fun hm h10 h19 => ?_⟩, fun h t status size addr r w u ht hs => ?_⟩
  · exact ⟨_, (bar4Resize_does hu hc hf rfl).only (quiet_dropAtc (quiet_setFunc _ hq)), rfl, rfl⟩
  · refine ⟨_, (bar4Resize_does (size := true) hu hc hf (bar4Size_taken hm h10 h19)).only (quiet_dropAtc (quiet_setFunc _ hq)), rfl,
      ?_, rfl⟩
    rw [func_dropAtc, func_setFunc_same]
  · rw [trDone_stale hs]
    refine ⟨by simp, { t with stale := false, retried := false }, ?_, rfl, rfl, rfl, rfl⟩
    simp only [emit_trReqs, addFld_trReqs, mapIf, List.mem_map]
    exact ⟨t, ht, by simp⟩

end Sys2Proof.Machine
end

section
/-!
Proofs of the statements of 15_regulation.md: the service wheel's commands and its owner maps (R378 to R387).
-/
namespace Sys2Proof.Machine

/-! ### The owner maps of the presets (R378) -/

/-- Settles O28: the four presets are four closed computations. -/
theorem ownerMaps : Obligations.OwnerMaps := by
  intro n hn
  interval_cases n <;> decide +kernel

/-! ### The map and the regulation registers (R386, R387) -/

section
variable {h : Hub} {p n v : Nat}

theorem whlApply_good (hm : mapOk (mapOwners ((List.range 4).map fun i => getReg h .whlMap0 (p * 4 + i))) = true) : whlApply h p =
    setFld (setFld (setWheel h p { wheel h p with loaded := some (mapOwners ((List.range 4).map fun i => getReg h .whlMap0 (p * 4 + i))) })
      F.whlCtlResult p 0) F.whlCtlApply p 1 := if_pos hm

theorem whlApply_bad (hm : mapOk (mapOwners ((List.range 4).map fun i => getReg h .whlMap0 (p * 4 + i))) = false) :
    whlApply h p = setFld h F.whlCtlResult p 1 := if_neg (Bool.not_eq_true _ ▸ hm)

theorem regWrite_limit (hh : regHouse h n = true) : regWrite h n true v = setReg h .regLimit n (v % 2 ^ 32) := if_pos hh

theorem regWrite_cfg (hh : regHouse h n = true) : regWrite h n false v =
    if regCfgOk v then setReg h .regCfg n (v % 2 ^ 2 + bitsOf v 31 4 * 16) else raise h E.regCfgRefused n := by
  simp only [regWrite, hh, Bool.true_or, Bool.not_true, Bool.false_eq_true, if_false]

end

/-- Settles O27: each command meets the branch of its hypotheses. -/
theorem wheelCommands : Obligations.WheelCommands := by
  intro s p r c v err waiting urgent hp hr
  refine ⟨fun hrun hl hw => ?_, fun hrun hl => ?_, fun hrun hl hc hm => ?_, fun hride hl => ⟨fun hm => ?_, fun hm => ?_⟩,
    fun hride hh => ⟨?_, fun hv => ?_, fun hv => ?_⟩⟩
  · exact .of_inData (exec_wheelSlot s p waiting urgent err) (by simp [hp, hw]) hrun (if_pos hl)
  · exact .of_inData (exec_wheelTurnStart s p) (decide_eq_true hp) hrun (if_pos hl)
  · exact .of_inData (exec_deadlineMiss s p r c) (by simp [hp, hr, hc]) hrun (if_neg (by rw [hl, hm]; decide))
  · exact .of_dataReg (exec_whlApply s p) (decide_eq_true hp) hride ((if_pos hl).trans (whlApply_good hm))
  · exact .of_dataReg (exec_whlApply s p) (decide_eq_true hp) hride ((if_pos hl).trans (whlApply_bad hm))
  · exact .of_dataReg (exec_regCfgWrite s r true v) (decide_eq_true hr) hride (regWrite_limit hh)
  · exact .of_dataReg (exec_regCfgWrite s r false v) (decide_eq_true hr) hride ((regWrite_cfg hh).trans (if_pos hv))
  · exact .of_dataReg (exec_regCfgWrite s r false v) (decide_eq_true hr) hride
      ((regWrite_cfg hh).trans (if_neg (Bool.not_eq_true _ ▸ hv)))

end Sys2Proof.Machine
end

section
/-!
Proofs of the statements of 17_host_endpoint.md: loss and return of the link (R429, R430, R519), BAR4 accesses and the host's completions
(R420 to R425).
-/
namespace Sys2Proof.Machine

/-! ### PERST# and the link (R429, R430) -/

section
variable {h : Hub} {cool : Bool} {g w : Nat}

theorem tripRelease_on : (tripRelease h cool).pwr.on = h.pwr.on := by
  rw [tripRelease]
  split <;> rfl

theorem tripRelease_dead : (tripRelease h cool).dead = h.dead := by
  rw [tripRelease]
  split <;> rfl

/-- PERST# of a hub with power: a cold boot of one that is dead, else the link is lost. -/
theorem perst_on (hp : h.pcie.perst = false) (hon : h.pwr.on = true) :
    perst h cool =
      let k := tripRelease { h with pcie := { h.pcie with perst := true } } cool
      if h.dead != 0 then powerUp (offHub k true false) else linkLost k := by
  simp only [perst, hp, tripRelease_on, tripRelease_dead, hon, Bool.not_true, Bool.false_eq_true, if_false]

theorem perstDeassert_wakeHigh (hw : h.pwr.wakeLow = false) : perstDeassert h = { h with pcie := { h.pcie with perst := false } } :=
  if_neg (Bool.not_eq_true _ ▸ hw)

theorem wantWake_pcie (src : Nat) : (wantWake h src).pcie = h.pcie := by
  rw [wantWake]
  split <;> rfl

theorem phase2Begin_pcie : (phase2Begin h).pcie = h.pcie := by
  rw [phase2Begin]
  split <;> rfl

/-- The PCIe endpoint after the link came up at `g` GT/s and width `w`. -/
def trained (h : Hub) (g w : Nat) : Hub :=
  { h with pcie := { h.pcie with up := true, gts := Nat.min g (odNum h OD.pcieMaxGts), width := w, d3cold := false } }

theorem pcieUp_trains (hp : h.pcie.perst = false) (hu : h.pcie.up = false) (hon : h.pwr.on = true) (hd : h.dead = 0) :
    pcieUp h g w =
      let k := wantWake (trained h g w) 2
      if k.pcie.waits then phase2Begin { k with pcie := { k.pcie with waits := false }, mg := { k.mg with warmReset := false } } else k := by
  simp only [pcieUp, hp, hu, hon, hd, Bool.not_true, bne_self_eq_false, Bool.or_self, Bool.false_eq_true, if_false, trained]

end

/-- Settles O19: what a bring-up does that waited for the link leaves the link's rate and width as they came up. -/
theorem linkCommands : Obligations.LinkCommands := by
  refine ⟨fun s cool hp hon => ⟨fun hd => ?_, fun hd => ?_⟩, fun s hu => ⟨?_, ?_⟩, fun s hw => ?_, fun s g w hg hw => ⟨?_, fun hp hu ha => ?_⟩⟩
  · exact .of_act (exec_perst s cool) ((perst_on hp hon).trans (if_neg (by simp [hd])))
  · exact .of_act (exec_perst s cool) ((perst_on hp hon).trans (if_pos (by simp [hd])))
  · exact .of_act (exec_hotReset s) (if_pos hu)
  · exact .of_act (exec_linkDown s) (if_pos hu)
  · exact .of_act (exec_perstDeassert s) (perstDeassert_wakeHigh hw)
  · exact .of_actUnit (exec_pcieLinkUp s g w) (by simp only [hg, hw, Bool.and_self]) rfl
  · obtain ⟨hon, hd⟩ := (Hub.alive_iff _).mp ha
    rw [pcieUp_trains hp hu hon hd]
    dsimp only
    split
    · simp only [phase2Begin_pcie, wantWake_pcie]
      exact ⟨rfl, rfl, rfl⟩
    · simp only [wantWake_pcie]
      exact ⟨rfl, rfl, rfl⟩

/-! ### BAR4 accesses (R420, R424) and completions (R425) -/

section
variable {h : Hub} {tag a n : Nat} {bs : List Byte}

theorem bar4Read_waits (hr : h.rides = true) (hm : memOpen h 0 = true) (hl : a + n ≤ dpaLimit h) (hb : barBound h a n = false) :
    bar4Read h tag a n = { h with pcie := { h.pcie with reads := h.pcie.reads ++ [⟨tag, a, n⟩] } } := by
  obtain ⟨hs, hst⟩ := (Hub.rides_iff h).mp hr
  have hd : decide (dpaLimit h < a + n) = false := decide_eq_false (by omega)
  simp only [bar4Read, hm, dead_of_serving hs, hs, hd, hb, Bool.not_true, bne_self_eq_false, Bool.or_self, Bool.and_false, Bool.false_eq_true, if_false]
  exact hostCalls_ride hst

theorem bar4Read_beyond (hr : h.rides = true) (hl : dpaLimit h < a + n) : bar4Read h tag a n = emit h .cplUr 0 [tag] :=
  if_pos (by simp [((Hub.rides_iff h).mp hr).1, hl])

theorem bar4Write_served (hr : h.rides = true) (hm : memOpen h 0 = true) (hl : a + bs.length ≤ dpaLimit h) :
    bar4Write h a bs false = bar4Apply h a bs false := by
  obtain ⟨hs, hst⟩ := (Hub.rides_iff h).mp hr
  simp only [bar4Write, hm, dead_of_serving hs, hs, hst, Bool.not_true, bne_self_eq_false, Bool.or_self, Bool.false_eq_true, if_false,
    Nat.not_lt.mpr hl, OfNat.zero_ne_ofNat, coastExit_of_ne (hst ▸ Nat.zero_ne_one)]

theorem hostCompletion_found {fn st : Nat} {ep : Bool} {r : HostRead}
    (hf : (h.hostReads.find? fun r => r.tag == tag && r.func == fn) = some r) : hostCompletion h fn tag st ep bs =
      deliverHost (if st = 1 then logError h fn 20 else if st = 2 then logError h fn 15 else if ep then logError h fn 12 else h) r bs
        (st != 0 || ep) := by
  rw [hostCompletion, hf]

theorem hostTimeout_found {r : HostRead} (hf : (h.hostReads.find? fun r => r.tag == tag) = some r) : hostTimeout h tag =
    if (func h r.func).ctoDisable then h else deliverHost (logError h r.func 14) r [] true := by
  rw [hostTimeout, hf]

end

/-- Settles O22: accesses in Ride, completions of a read that waits. A read that reaches past the reachable HBM is answered as
unsupported as a whole (log entry 120). -/
theorem hostAccesses : Obligations.HostAccesses := by
  refine ⟨fun s tag a n hu hr hm h1 h4 h39 => ⟨fun hl hb => ?_, fun hl => ?_⟩, fun s a bs hu hr hm h4 h39 hl => ?_,
    fun s v hu hc hf => ⟨?_, ?_⟩, fun s fn tag st ep bs r hu hfn hst hf => ?_, fun s tag r hf hc => ?_⟩
  · exact .of_actUnit (exec_bar4Read s tag a n) (by simp only [h1, h4, h39, decide_true, Bool.and_self])
      ((if_pos hu).trans (bar4Read_waits hr hm hl hb))
  · exact .of_actUnit (exec_bar4Read s tag a n) (by simp only [h1, h4, h39, decide_true, Bool.and_self])
      ((if_pos hu).trans (bar4Read_beyond hr hl))
  · exact .of_actUnit (exec_bar4Write s a bs false) (by simp only [h4, h39, decide_true, Bool.and_self])
      ((if_pos hu).trans (bar4Write_served hr hm hl))
  · exact bar4Resize_does (size := false) hu hc hf rfl
  · exact bar4Resize_does (size := true) hu hc hf rfl
  · have hd {k : Hub} (hk : hostCompletion s.hub fn tag st ep bs = k) : Does (.hostCompletion fn tag st ep bs) s k :=
      .of_actUnit (exec_hostCompletion s fn tag st ep bs) (by simp only [hfn, hst, decide_true, Bool.and_self]) ((if_pos hu).trans hk)
    refine ⟨?_, ?_, ?_, ?_⟩
    · rintro rfl rfl
      exact hd (hostCompletion_found hf)
    · rintro rfl
      exact hd (hostCompletion_found hf)
    · rintro rfl
      exact hd (hostCompletion_found hf)
    · rintro rfl rfl
      exact hd (hostCompletion_found hf)
  · exact .of_act (exec_hostCompletionTimeout s tag) ((hostTimeout_found hf).trans (if_neg (Bool.not_eq_true _ ▸ hc)))

end Sys2Proof.Machine
end

section
/-!
Proofs of the statements of 19_management.md on the mailbox's notice ring (R469, R478).
-/
namespace Sys2Proof.Machine

theorem leNat_lt (bs : List Byte) : leNat bs < 2 ^ (8 * bs.length) := by
  induction bs with
  | nil => exact Nat.one_pos
  | cons b bs ih =>
    have hb := b.isLt
    rw [leNat, List.length_cons, Nat.mul_succ, Nat.pow_add]
    omega

theorem numAt_lt (bs : List Byte) (o n : Nat) : numAt bs o n < 2 ^ (8 * n) := by
  have h := leNat_lt (sliceB bs o n)
  rwa [sliceB, List.length_map, List.length_range] at h

/-! ### NOTE_POP -/

/-- The bytes of the oldest notice, none of an empty ring. -/
def oldestNotice (h : Hub) : List Byte :=
  match h.noteRing with
  | n :: _ => noticeBytes n.1 n.2.1 n.2.2
  | [] => []

section
variable {h : Hub} {q : Reg} {i : Nat}

theorem notePop_eq (h : Hub) : notePop h =
    setFld { setReg (setReg h .mbxNote0 0 (numAt (oldestNotice h) 0 8)) .mbxNote1 0 (numAt (oldestNotice h) 8 8) with
      noteRing := h.noteRing.drop 1 } F.mbxStatusNotes 0 (h.noteRing.length - 1) := rfl

theorem notePop_note0 : getReg (notePop h) .mbxNote0 0 = numAt (oldestNotice h) 0 8 := by
  rw [notePop_eq, getReg_setFld_reg _ _ _ _ (by decide)]
  change getReg (setReg (setReg h _ _ _) _ _ _) _ _ = _
  rw [getReg_setReg_reg _ _ _ _ (by decide), getReg_setReg_same, Nat.mod_eq_of_lt (numAt_lt _ _ 8)]

theorem notePop_note1 : getReg (notePop h) .mbxNote1 0 = numAt (oldestNotice h) 8 8 := by
  rw [notePop_eq, getReg_setFld_reg _ _ _ _ (by decide)]
  change getReg (setReg (setReg h _ _ _) _ _ _) _ _ = _
  rw [getReg_setReg_same, Nat.mod_eq_of_lt (numAt_lt _ _ 8)]

theorem notePop_notes : fld (notePop h) F.mbxStatusNotes = (h.noteRing.length - 1) % 2 ^ F.mbxStatusNotes.w :=
  fld_setFld_same _ _ _ _ (by decide)

theorem getReg_notePop (h0 : q ≠ .mbxNote0) (h1 : q ≠ .mbxNote1) (hs : q ≠ .mbxStatus) : getReg (notePop h) q i = getReg h q i := by
  rw [notePop_eq, getReg_setFld_reg _ _ _ _ hs]
  change getReg (setReg (setReg h _ _ _) _ _ _) _ _ = _
  rw [getReg_setReg_reg _ _ _ _ h1, getReg_setReg_reg _ _ _ _ h0]

theorem quiet_notePop (hq : h.quiet = true) : (notePop h).quiet = true := by
  rw [notePop_eq]
  exact quiet_setFld _ _ (by decide) (quiet_of_same rfl rfl ⟨rfl, rfl, rfl, rfl, rfl, rfl, rfl⟩
    (quiet_setReg _ _ (by decide) (quiet_setReg _ _ (by decide) hq)))

end

/-- Settles O60: the ring loses its head; the three registers are all that is written. -/
theorem noticeRing : Obligations.NoticeRing := by
  intro s hq hu
  refine ⟨notePop s.hub, (Does.of_ctlReg (exec_mbxNotePop s) hu rfl).only (quiet_notePop hq), List.drop_one, rfl, rfl, rfl,
    fun q i h0 h1 hs => getReg_notePop h0 h1 hs, fun hn => ?_, fun n r hn => ?_⟩
  · rw [notePop_note0, notePop_note1, notePop_notes, oldestNotice, hn]
    exact ⟨rfl, rfl, rfl⟩
  · rw [notePop_note0, notePop_note1, notePop_notes, oldestNotice, hn]
    exact ⟨rfl, rfl, rfl⟩

end Sys2Proof.Machine
end

section
/-!
Proofs of the statements of 20_power.md and 24_electrical.md: power states, wakes and voltage (R491 to R504), the limiter and the supplies
(R505, R541, R557 to R563).
-/
namespace Sys2Proof.Machine

/-! ### Coast and Park (R491 to R497) -/

section
variable {h k : Hub}

theorem coastEntry_idle (hr : h.rides = true) (hz : frozen h = false) (ho : h.ops = []) (hm : h.cmds = []) (hc : h.ctlDown = false)
    (he : odNum h OD.expertHold ≠ 1) : coastEntry h = pwrMove h 1 := by
  obtain ⟨hs, hst⟩ := (Hub.rides_iff h).mp hr
  simp only [coastEntry, hst, hs, hz, ho, hm, hc, he, bne_self_eq_false, Bool.not_true, List.isEmpty_nil, Bool.or_self, Bool.false_eq_true, if_false]

theorem parkEntry_due (hd : parkDue h = true) (hr : refused h = (false, k)) : parkEntry h 0 = parkSteps k := by
  simp only [parkEntry, hd, hr, Bool.not_true, Bool.false_eq_true, if_false, if_true]

theorem parkWake_parked {src : Nat} {bad : Bool} {failed : List Nat} (hst : h.pwr.state = 2) (hc : h.ctlDown = false) (hd : h.dead = 0) :
    parkWake h src bad failed =
      let x := drawFree h 32
      let k := addFld { x.2 with pwr := { x.2.pwr with want := none } } F.pwrParkMsPark 0 x.1
      let k := sendPme (wakeRecord k (match h.pwr.want with
        | some w => Nat.min w src
        | none => src) 2)
      if bad then later (pwrMove { k with pwr := { k.pwr with level := 1 } } 0) (.fatal 8) else rideAgain k failed :=
  if_neg (by simp [hst, hc, hd])

/-! ### PME_Turn_Off, Kickstand and the alarm (R492, R500, R501) -/

theorem pmeTurnOff_down (hu : ∀ c ∈ usedCtx h, ctxState h c < 2) (hs : serving h = false) : pmeTurnOff h =
    { emit h .pmeToAck 0 with pcie := { h.pcie with d3cold := true }, pwr := { h.pwr with pmeSet := (func h 0).pmeEn } } := by
  have hn : ¬ ((usedCtx (emit h .pmeToAck 0)).any fun c => decide (2 ≤ ctxState (emit h .pmeToAck 0) c)) = true := by
    rw [List.any_eq_true]
    rintro ⟨c, hc, h2⟩
    exact absurd (of_decide_eq_true h2) (Nat.not_le.mpr (hu c hc))
  rw [pmeTurnOff, if_neg hn]
  refine if_pos ?_
  change (!(serving h && _ && _ && _)) = true
  rw [hs]
  rfl

theorem kickWake_retained (hst : h.pwr.state = 3) : kickWake h =
    let k := sendPme (wakeRecord { h with pwr := { h.pwr with state := 0 } } 4 3)
    powerUp { k with pcie := { k.pcie with d3cold := false } } := if_neg (by simp [hst])

theorem rtcAlarm_set (ha : odNum h OD.rtcAlarm ≠ 0) (hr : h.pwr.rtc ≤ odNum h OD.rtcAlarm) (hc : h.ctlDown = false) :
    rtcAlarm h = wantWake { h with pwr := { h.pwr with rtc := odNum h OD.rtcAlarm } } 3 :=
  if_neg (by simp [ha, hc, hr])

/-! ### The voltage regulator's answers (R503, R504) -/

theorem avsDone_busy (hc : h.ctlDown = false) (hb : h.pwr.avs.busy = true) (hn : h.pwr.avs.next = none) :
    avsDone h = reclk { h with pwr := { h.pwr with level := h.pwr.avs.level, avs := {} } } := by
  simp only [avsDone, hb, hc, hn, Bool.not_true, Bool.false_and, Bool.or_self, Bool.false_eq_true, if_false]

theorem avsTimeout_early (hc : h.ctlDown = false) (hb : h.pwr.avs.busy = true) (hf : h.pwr.avs.fails < 2) : avsTimeout h =
    raise { h with pwr := { h.pwr with avs :=
      { h.pwr.avs with busy := false, retry := true, fails := h.pwr.avs.fails + 1 } } } E.pwrAvsFail := by
  have h3 : decide (3 ≤ h.pwr.avs.fails + 1) = false := decide_eq_false (by omega)
  simp only [avsTimeout, hb, hc, h3, Bool.not_true, Bool.false_and, Bool.or_self, Bool.false_eq_true, if_false]

theorem avsRetry_due (hc : h.ctlDown = false) (hr : h.pwr.avs.retry = true) : avsRetry h = avsSend h h.pwr.avs.level :=
  if_neg (by simp [hr, hc])

end

/-- Settles O23: each command meets the branch of its hypotheses. -/
theorem powerCommands : Obligations.PowerCommands := by
  refine ⟨fun s hr hz ho hm hc he => ?_, fun s k hd hr => ?_, fun s src vf pf bad h1 h5 hst hc hd => ?_, fun s hu => ⟨?_, fun hx hs => ?_⟩,
    fun s hst => ?_, fun s ha hr hc => ?_, fun s hc => ⟨fun hb hn => ?_, fun hb hf => ?_, fun hr => ?_⟩, exec_wakeReq⟩
  · exact .of_act (exec_coastEntry s) (coastEntry_idle hr hz ho hm hc he)
  · exact .of_actUnit (exec_parkEntry s 0) rfl (parkEntry_due hd hr)
  · exact .of_actUnit (exec_parkWake s src vf pf bad) (by simp [inRange, h1, h5]) (parkWake_parked hst hc hd)
  · exact .of_act (exec_pmeTurnOff s) (if_pos hu)
  · exact .of_act (exec_pmeTurnOff s) ((if_pos hu).trans (pmeTurnOff_down hx hs))
  · exact .of_act (exec_kickstandWake s) (kickWake_retained hst)
  · exact .of_act (exec_rtcAlarm s) (rtcAlarm_set ha hr hc)
  · exact .of_act (exec_avsInRegulation s) (avsDone_busy hc hb hn)
  · exact .of_act (exec_avsTimeout s) (avsTimeout_early hc hb hf)
  · exact .of_act (exec_avsRetry s) (avsRetry_due hc hr)

/-! ### The limiter and the trip (R505, R563) -/

section
variable {h : Hub} {t : List Int} {n p : Nat}

theorem limiterTick_up (hu : ctlUp h = true) (hd : h.dead = 0) : limiterTick h p t =
    tripCheck (let k := storeReadings h p t
               if !k.dataReset && decide (k.pwr.state < 2) then limit k p (t.foldl max (t.headD 0)) else k) t :=
  if_neg (by simp [hu, hd])

/-- The sensors that read 110 degrees or more. -/
def hotSensors (t : List Int) : List Nat := (t.zipIdx.filter fun e => decide (110 ≤ e.1)).map (·.2)

theorem mem_hotSensors {i : Nat} (hi : i < t.length) (ht : 110 ≤ t.getD i 0) : i ∈ hotSensors t := by
  rw [List.getD_eq_getElem _ _ hi] at ht
  exact List.mem_map.mpr ⟨(t[i], i), List.mem_filter.mpr ⟨List.mk_mem_zipIdx_iff_getElem?.mpr (List.getElem?_eq_getElem hi),
    decide_eq_true ht⟩, rfl⟩

theorem tripCheck_trips {i : Nat} (hi : i ∈ hotSensors t) (hh : i ∈ h.pwr.hot) : tripCheck h t =
    later (emit { h with pwr := { h.pwr with hot := hotSensors t, tripLow := true }, mg := { h.mg with trips := (h.mg.trips + 1) % 2 ^ 32 } }
      .thermtripN 0 [0]) (.hubFatal 3) :=
  if_pos (List.any_eq_true.mpr ⟨i, hi, List.contains_iff_mem.mpr hh⟩)

/-! ### Supplies (R557) -/

theorem supplyFault_alive (ha : h.alive = true) : supplyFault h n =
    if n < 4 then later h (.fatal 7) else if n < 6 then later h (.hubFatal 2)
    else each (livePorts h (n - 8)) h fun h p => if memState h p = 6 then h else failPort h p := by
  obtain ⟨hon, hd⟩ := (Hub.alive_iff h).mp ha
  exact if_neg (by simp [hon, hd])

end

/-- Settles O24: the tick and the supplies meet their branches; a sensor hot at two readings in a row trips. -/
theorem limiterAndSupplies : Obligations.LimiterAndSupplies := by
  refine ⟨fun s p t ht hp hu hd => ?_, fun h t i ht hi hot hh => ?_, fun s n ha => ⟨fun h4 => ?_, fun h4 h6 => ?_, fun h8 h16 => ?_⟩, fun s ha => ?_⟩
  · exact .of_actUnit (exec_limiterTick s p t) (by simp [ht, hp]) (limiterTick_up hu hd)
  · rw [tripCheck_trips (mem_hotSensors (ht ▸ hi) hot) hh]
    exact ⟨rfl, rfl, List.mem_append_right _ (List.mem_singleton_self _)⟩
  · exact .of_actUnit (exec_supplyFault s n) (by simp only [inRange]; grind) ((supplyFault_alive ha).trans (if_pos h4))
  · exact .of_actUnit (exec_supplyFault s n) (by simp [h6])
      ((supplyFault_alive ha).trans ((if_neg (Nat.not_lt.mpr h4)).trans (if_pos h6)))
  · exact .of_actUnit (exec_supplyFault s n) (by simp [inRange, h8, Nat.le_of_lt_succ h16])
      ((supplyFault_alive ha).trans ((if_neg (by omega)).trans (if_neg (by omega))))
  · obtain ⟨hon, hd⟩ := (Hub.alive_iff s.hub).mp ha
    exact .of_act (exec_endpointCoreUe s) (if_pos (by simp [hon, hd]))

end Sys2Proof.Machine
end

section
/-!
Proofs of the statements of 21_bringup.md: power, cold boot and the phases of bring-up (R508 to R520).
-/
namespace Sys2Proof.Machine

section
variable {h : Hub} {ms : Nat} {blows odd ok : Bool} {hs : List (Nat × Nat × Nat × Nat)} {fs : List (List Nat)} {bad : List Nat}

theorem bootRow_runs {warm : Bool} {f : Hub → Hub} (hb : bringingUp h = true) (hd : h.dead = 0) (hw : h.warmRun = warm) : bootRow warm h f = f h :=
  if_pos (by simp [hb, hd, hw])

/-- The reset phase of a warm restart ends with phase 2. -/
theorem phaseEnd_warmReset (hw : h.mg.warmReset = true) (hp : h.pcie.waits = false) : phaseEnd h ms blows odd ok hs fs bad =
    phase2Begin { h with bootMs := h.bootMs + ms, mg := { h.mg with warmReset := false } } := by
  simp only [phaseEnd, hw, hp, Bool.false_eq_true, if_false, if_true]

/-- What the end of phase `n` does, its time noted. -/
def afterPhase (h : Hub) (n : Nat) (blows odd ok : Bool) (hs : List (Nat × Nat × Nat × Nat)) (fs : List (List Nat)) (bad : List Nat) : Hub :=
  match n with
  | 0 => setFld { h with ctlStarts := h.ctlStarts + 1 } F.bootStatusPhase 0 1
  | 1 => romPhase h blows odd
  | 2 => rimPhase h ok
  | 3 => if fld (memPhase h hs fs) F.bootStatusPhase = 4 then presencePhase (memPhase h hs fs) else memPhase h hs fs
  | 4 => setFld h F.bootStatusPhase 0 5
  | 5 => setFld h F.bootStatusPhase 0 6
  | 6 => stationPhase h bad
  | _ => readyPhase h

theorem phaseEnd_at {n : Nat} (hw : h.mg.warmReset = false) (hn : fld h F.bootStatusPhase = n) : phaseEnd h ms blows odd ok hs fs bad =
    afterPhase (phaseTime h (fld h F.bootStatusPhase) ms) n blows odd ok hs fs bad := by
  subst hn
  exact if_neg (Bool.not_eq_true _ ▸ hw)

end

/-- Settles O17: the phase that BOOT.STATUS shows says which step a phase's end takes. -/
theorem bringUpCommands : Obligations.BringUpCommands := by
  refine ⟨fun s hon hst => ?_, fun s aon => ?_, fun s ms blows odd ok hs fs bad hb hd hw hr => ?_,
    fun s ms ok hs fs bad hb hd hw => ⟨fun hr hp => ?_, fun hr hn => ?_⟩, fun s hb hd => ?_, fun s h2 => ⟨?_, ?_⟩⟩
  · exact .of_act (exec_coldPowerUp s) (if_neg (by simp [hon, hst]))
  · exact .of_act (exec_powerLoss s aon) rfl
  · have hend {n : Nat} {k : Hub} (hn : fld s.hub F.bootStatusPhase = n)
        (hk : afterPhase (phaseTime s.hub (fld s.hub F.bootStatusPhase) ms) n blows odd ok hs fs bad = k) :
        Does (.bootPhaseEnd ms blows odd ok hs fs bad) s k :=
      .of_act (exec_bootPhaseEnd s ms blows odd ok hs fs bad) ((bootRow_runs hb hd hw).trans ((phaseEnd_at hr hn).trans hk))
    exact ⟨fun hn => hend hn rfl, fun hn => hend hn rfl, fun hn => hend hn rfl, fun hn h4 => hend hn (if_pos h4), fun hn => hend hn rfl,
      fun hn => hend hn rfl, fun hn => hend hn rfl, fun hn => hend hn rfl⟩
  · exact .of_act (exec_warmRestartPhaseEnd s ms ok hs fs bad) ((bootRow_runs hb hd hw).trans (phaseEnd_warmReset hr hp))
  · refine .of_act (exec_warmRestartPhaseEnd s ms ok hs fs bad) ((bootRow_runs hb hd hw).trans ((phaseEnd_at hr hn).trans ?_))
    rw [hn]
    rfl
  · exact .of_act (exec_bootPhaseOverrun s) (if_pos (by simp [hb, hd]))
  · exact .of_act (exec_pllLockTimeout s) (if_pos h2)
  · exact .of_act (exec_stemUpTimeout s) (if_pos h2)

end Sys2Proof.Machine
end

section
/-!
Proofs of the statements of 16_pod.md: ports and streams (R390 to R394), the pod's beats (R402), channels and their commands (R398 to R401).
-/
namespace Sys2Proof.Machine

/-! ### Streams and beats (R394, R400, R402) -/

section
variable {h : Hub} {n : Nat}

theorem putPerformed_found {m : PodIn} (hm : (h.podIn.find? fun m => m.key == n && m.left == 0) = some m) : putPerformed h n =
    later (podDone { h with podIn := h.podIn.erase m } m.src ⟨0, false, m.job, m.msgId, 0, []⟩ m.status) .podPump := by
  rw [putPerformed, hm]

theorem retx_sent {t : PodTx} (ht : tget h.podTx n = some t) (hs : t.sent ≠ []) : retx h n =
    each t.sent (raise { h with podTx := tset h.podTx n { t with wait := Nat.min 1000 (2 * t.wait) } } E.podRetx)
      fun h e => sendFrame h n e.1 [e.2] := by
  rw [retx, ht]
  exact if_neg (by simp [hs])

theorem unreachable_sent {t : PodTx} (ht : tget h.podTx n = some t) (hs : t.sent ≠ []) :
    unreachable_ h n = podPeerLost (trace (raise h E.podUnreach) 0 44 0x72 none n) n := by
  rw [unreachable_, ht]
  exact if_neg (by simp [hs])

theorem podWatchdog_manager (hr : podRole h = 2) (hn : roster h n = 1 ∨ roster h n = 2) : podWatchdog h n =
    (let k := podPeerLost (setRoster h n 3) n
     each (liveHubs k) k fun h d => podSend (podNew h).2 d ⟨6, false, 0, (podNew h).1, 6 + n * 2 ^ 8, []⟩) :=
  (if_pos hr).trans (if_pos (by simpa using hn))

theorem podWatchdog_worker (hr : podRole h = 1) (hn : n = h.podMgr) (hm : fld h F.podStatusMgr ≠ 2) :
    podWatchdog h n = raise (setFld h F.podStatusMgr 0 2) E.podMgrLost :=
  (if_neg (by simp [hr])).trans (if_pos (by simp [hr, hn, hm]))

end

/-! ### Channels (R398) -/

section
variable {h : Hub}

theorem chOpen_taken (hs : chState h (chSel h) = 0) (hx : ctxState h (fld h F.podChCfgCtx (chSel h)) = 2)
    (hj : fld h F.podChCfgJob (chSel h) ≠ 0)
    (ho : ∀ d, d < 256 → chState h d ≠ 0 → fld h F.podChCfgJob d ≠ fld h F.podChCfgJob (chSel h)) (hg : chGeom h (chSel h) = true) :
    chOpen h = chRes (setFld (setFld (setFld { h with podCh := tset h.podCh (chSel h) {} } F.podChStatState (chSel h) 1)
      F.podChStatHaltStatus (chSel h) 0) F.podChStatDoneAt (chSel h) 0) (chSel h) 0 := by
  have hfree : ((List.range 256).any fun d => chState h d != 0 && fld h F.podChCfgJob d == fld h F.podChCfgJob (chSel h)) = false := by
    simp only [List.any_eq_false, List.mem_range, Bool.and_eq_true, bne_iff_ne, beq_iff_eq, not_and]
    exact ho
  simp only [chOpen, hs, hx, hj, hfree, hg, bne_self_eq_false, Bool.not_true, decide_false, Bool.or_self, Bool.false_eq_true, if_false]

theorem chClose_taken (hs : chState h (chSel h) = 1 ∨ chState h (chSel h) = 2) : chClose h =
    (let k := chRes (setFld h F.podChStatState (chSel h) 3) (chSel h) 0
     let k := { k with waits := dropIf k.waits fun w => w.by_ == .pod (chSel h) }
     chSettle (setPodCh k (chSel h) { podCh k (chSel h) with runs := (podCh k (chSel h)).runs.filter fun r => !r.due.isEmpty }) (chSel h)) :=
  if_neg (by rcases hs with hs | hs <;> simp [hs])

theorem chResume_taken (hs : chState h (chSel h) = 2) : chResume h =
    later (chRes (setFld (setFld h F.podChStatState (chSel h) 1) F.podChStatHaltStatus (chSel h) 0) (chSel h) 0) .podPump :=
  if_neg (by simp [hs])

end

/-! ### A channel's commands (R399 to R401) -/

section
variable {h k : Hub} {c op : Nat} {r : PodRun} {bs : List Byte}

/-- With everything before it sent and its feed high enough, a command is read; one that neither waits nor posts stands ready. -/
theorem podFetch_ready (hr : (podCh h c).runs.all (fun r => r.step == 3) = true) (hs : chState h c = 1)
    (hx : ctxState h (fld h F.podChCfgCtx c) = 2) (hz : frozen h = false)
    (hn : ((podCh h c).next : Int) + 1 ≤ (sem h (fld h F.podChCfgFeedSem c)).count)
    (hv : vaRead h (fld h F.podChCfgCtx c) (getReg h .podChRing c + (podCh h c).next % 2 ^ fld h F.podChCfgRingLog2 c * 64) 64 (podWho c) =
      (some (bs, []), k)) (hok : podCmdOk bs = true) (hw : bitOf (numAt bs 40 4) 17 = false) (hq : bitOf (numAt bs 56 4) 17 = false) :
    podFetch h c = putRun (setPodCh k c { podCh k c with
      next := ((podCh h c).next + 1) % 2 ^ 32, runs := (podCh k c).runs ++ [{ k := (podCh h c).next, raw := bs, step := 1 }] })
      c { k := (podCh h c).next, raw := bs, step := 2 } := by
  have hnone : ((podCh h c).runs.find? fun r => r.step == 1 && !(h.waits.any fun w => w.by_ == .pod c)) = none := by
    rw [List.find?_eq_none]
    intro r hm
    simp [eq_of_beq (List.all_eq_true.mp hr r hm)]
  have hfed : decide ((sem h (fld h F.podChCfgFeedSem c)).count < ((podCh h c).next : Int) + 1) = false := decide_eq_false (by omega)
  simp only [podFetch, hnone, hs, hx, hz, hr, hfed, hv, hok, hw, hq, bne_self_eq_false, Bool.not_true, Bool.or_self, Bool.false_eq_true,
    Bool.false_and, if_false, List.isEmpty_nil]

theorem podNop_ready (hr : readyRun h c 0 = some r) : podNop h c = runDone h c r := by
  rw [podNop, hr]

theorem podPut_empty (hr : readyRun h c op = some r) (hl : numAt r.raw 24 4 = 0) : podPut h c op = runDone h c r := by
  rw [podPut, hr]
  exact if_pos hl

/-- The next message of a put whose pages have been translated and whose sectors have all come unpoisoned. -/
theorem podPut_sends (hr : readyRun h c op = some r) (hl : numAt r.raw 24 4 ≠ 0) (ho : numAt r.raw 16 8 + 32 * numAt r.raw 24 4 ≤ 2 ^ 40)
    (hp : 0 < r.pos)
    (hv : vaSectors (fld h F.podChCfgCtx c) (podWho c) ((List.range (Nat.min 256 (numAt r.raw 24 4 - r.pos))).map fun i =>
      numAt r.raw 8 8 + 32 * (r.pos + i)) h = (some (bs, []), k)) :
    podPut h c op = (let n := Nat.min 256 (numAt r.raw 24 4 - r.pos)
      runSend k c (numAt r.raw 2 2) { r with pos := r.pos + n } (decide (numAt r.raw 24 4 ≤ r.pos + n)) op false
        (numAt r.raw 16 8 + 32 * r.pos + (n - 1) * 2 ^ 40 + (if op = 2 then numAt r.raw 4 1 * 2 ^ 49 + numAt r.raw 5 1 * 2 ^ 52 else 0)) bs) := by
  have hbound : decide (2 ^ 40 < numAt r.raw 16 8 + 32 * numAt r.raw 24 4) = false := decide_eq_false (Nat.not_lt.mpr ho)
  have hpos : r.pos ≠ 0 := hp.ne'
  simp only [podPut, hr, hl, hbound, hpos, hv, Bool.false_eq_true, if_false, List.isEmpty_nil, Bool.not_true, if_true]

theorem podSem_sends (hr : readyRun h c op = some r) (hp : putsDone h c r = true) : podSem h c op =
    runSend h c (numAt r.raw 2 2) r true 3 false (numAt r.raw 28 4 + (if op = 4 then 2 ^ 17 else 0))
      (sliceB (leBytes 8 (numAt r.raw 32 8)) 0 16) := by
  rw [podSem, hr]
  exact if_neg (by simp [hp])

theorem podArrive_sends (hr : readyRun h c 5 = some r) (hp : putsDone h c r = true) : podArrive h c =
    runSend h c (if podRole h = 2 then podSelf h else h.podMgr) r true 4 false
      (numAt r.raw 16 8 % 64 + tgetD h.podGen (numAt r.raw 16 8 % 64) 0 % 2 ^ 32 * 2 ^ 8) [] := by
  rw [podArrive, hr]
  exact if_neg (by simp [hp])

end

section
variable {s : State} {n c : Nat}

/-- Ports, streams and beats. -/
theorem podStreams_complete (hr : s.hub.runs = true) :
    (∀ up, n < 2 → Does (.ethPortState n up) s (ethPort s.hub n up)) ∧
    (∀ d src ty bs full, n < 2 → bitOf (fld s.hub F.podStatusPortUp) n = true → Does (.podFrame n d src ty bs full) s (podReceive s.hub d src ty bs full)) ∧
    Does (.podPutPerformed n) s (putPerformed s.hub n) ∧
    (n < 4096 → Does (.podRetxTimeout n) s (retx s.hub n) ∧ Does (.podUnreachable n) s (unreachable_ s.hub n) ∧
      (s.hub.podAck.contains n = true → Does (.podAckTimer n) s (sendFrame s.hub n 0 [])) ∧ Does (.podWatchdog n) s (podWatchdog s.hub n)) ∧
    (podRole s.hub = 1 → Does .podBeatTimer s (podSend (podNew s.hub).2 (podNew s.hub).2.podMgr ⟨7, false, 0, (podNew s.hub).1, 0, []⟩)) := by
  refine ⟨fun up h2 => ?_, fun d src ty bs full h2 hu => ?_, ?_, fun hn => ⟨?_, ?_, fun ha => ?_, ?_⟩, fun hw => ?_⟩
  · exact .of_inData (exec_ethPortState s n up) (decide_eq_true h2) hr rfl
  · exact .of_inData (exec_podFrame s n d src ty bs full) (decide_eq_true h2) hr (if_pos hu)
  · exact .of_inData (exec_podPutPerformed s n) rfl hr rfl
  · exact .of_inData (exec_podRetxTimeout s n) (decide_eq_true hn) hr rfl
  · exact .of_inData (exec_podUnreachable s n) (decide_eq_true hn) hr rfl
  · exact .of_inData (exec_podAckTimer s n) (decide_eq_true hn) hr (if_pos ha)
  · exact .of_inData (exec_podWatchdog s n) (decide_eq_true hn) hr rfl
  · exact .of_inData (exec_podBeatTimer s) rfl hr (if_pos hw)

end

/-- Settles O55: the parts by their conditions. An opened channel's DONE_AT is 0 (log entry 84), an ARRIVE names the generation that the
hub's ARRIVEs have reached (log entry 33), and a frame carries one message (log entry 9). -/
theorem podCommands : Obligations.PodCommands := by
  refine ⟨fun s n hr => ?_, fun s hr => ⟨fun hs hx hj ho hg => ?_, fun hs => ?_, fun hs => ?_⟩, fun s c hr hc => ?_⟩
  · obtain ⟨hport, hframe, hput, hstream, hbeat⟩ := podStreams_complete (n := n) hr
    refine ⟨hport, hframe, fun m hm => putPerformed_found hm ▸ hput, fun t hn ht hs => ?_, fun hn ha => ?_, hbeat, fun hn h2 ho => ?_,
      fun hn h1 hm hst => ?_⟩ <;> obtain ⟨hretx, hlost, hack, hdog⟩ := hstream hn
    · exact ⟨retx_sent ht hs ▸ hretx, unreachable_sent ht hs ▸ hlost⟩
    · exact hack ha
    · exact podWatchdog_manager h2 ho ▸ hdog
    · exact podWatchdog_worker h1 hm hst ▸ hdog
  · exact .of_dataReg (exec_podChOpen s) rfl hr (chOpen_taken hs hx hj ho hg)
  · exact .of_dataReg (exec_podChClose s) rfl hr (chClose_taken hs)
  · exact .of_dataReg (exec_podChResume s) rfl hr (chResume_taken hs)
  · have hin := decide_eq_true hc
    refine ⟨fun bs k hd hs hx hz hn hv hok hw hq => ?_, fun r hrun => ?_, fun r op hop hrun => ?_, fun r hrun hp => ?_, fun r hrun hp => ?_,
      fun r hrun hp => ?_⟩
    · exact .of_inData (exec_podCmdFetch s c) hin hr (podFetch_ready hd hs hx hz hn hv hok hw hq)
    · exact .of_inData (exec_podCmdNop s c) hin hr (podNop_ready hrun)
    · have hput {k : Hub} (hk : podPut s.hub c op = k) : Does (if op = 1 then Instr.podCmdPut c else Instr.podCmdReducePut c) s k := by
        rcases hop with rfl | rfl
        · exact .of_inData (exec_podCmdPut s c) hin hr hk
        · exact .of_inData (exec_podCmdReducePut s c) hin hr hk
      exact ⟨fun hl => hput (podPut_empty hrun hl), fun bs k hl ho hp hv => hput (podPut_sends hrun hl ho hp hv)⟩
    · exact .of_inData (exec_podCmdSemAdd s c) hin hr (podSem_sends hrun hp)
    · exact .of_inData (exec_podCmdSemSub s c) hin hr (podSem_sends hrun hp)
    · exact .of_inData (exec_podCmdArrive s c) hin hr (podArrive_sends hrun hp)

end Sys2Proof.Machine
end

section
/-!
Proofs of the statements of 18_security_lifecycle.md and 19_management.md on the object dictionary's three paths: the field network, the
mailbox, the sideband (R437 to R487).
-/
namespace Sys2Proof.Machine

/-! ### A dictionary write on its path (R466, R468, R481) -/

section
variable {s : State} {peer k : Nat} {b : List Byte}

theorem fieldOn_of {h : Hub} (hc : h.ctlDown = false) (hd : h.dead = 0) : fieldOn h = true := by simp [fieldOn, hc, hd]

theorem sbWrite_good {h t : Hub} {c : Nat} (hf : fieldOn h = true) (hw : dictWrite h 3 0 k b = (c, t)) : sbWrite h k b true = afterAnswer t := by
  simp only [sbWrite, hf, hw, Bool.not_true, Bool.false_eq_true, if_false]

theorem odWrite_field {h t : Hub} {c : Nat} (hu : ctlUp h = true) (hw : dictWrite h 1 peer k b = (c, t)) :
    odWrite h 1 peer k b = afterAnswer (emit t .kmpResponse peer [c, k]) := by
  simp only [odWrite, hu, hw, Bool.not_true, Bool.false_eq_true, if_false]

theorem odWrite_mailbox {h : Hub} (hu : ctlUp h = true) : odWrite h 2 peer k b = mbxRequest h 2 k b.length 0 b := by
  simp only [odWrite, hu, Bool.not_true, Bool.false_eq_true, if_false]

theorem odWrite_sideband {h : Hub} (hu : ctlUp h = true) : odWrite h 3 peer k b = sbWrite h k b true := by
  simp only [odWrite, hu, Bool.not_true, Bool.false_eq_true, if_false]

/-- A command that is the write of an entry, on each of its three paths. -/
theorem odRow_paths {i : Nat → Nat → Instr} (hu : ctlUp s.hub = true) (hc : s.hub.ctlDown = false) (hd : s.hub.dead = 0)
    (hi : ∀ path, exec (i path peer) s = odRow s path peer k b) :
    (∀ t, dictWrite s.hub 1 peer k b = (0, t) → Does (i 1 peer) s (afterAnswer (emit t .kmpResponse peer [0, k]))) ∧
    Does (i 2 peer) s (mbxRequest s.hub 2 k b.length 0 b) ∧
    (∀ t, dictWrite s.hub 3 0 k b = (0, t) → Does (i 3 peer) s (afterAnswer t)) :=
  ⟨fun _ hw => .of_actUnit (hi 1) rfl (odWrite_field hu hw), .of_actUnit (hi 2) rfl (odWrite_mailbox hu),
    fun _ hw => .of_actUnit (hi 3) rfl ((odWrite_sideband hu).trans (sbWrite_good (fieldOn_of hc hd) hw))⟩

end

/-! ### A KMP payload that is in order (R474 to R477) -/

/-- A payload from `src` with the tag of the segment key, in order, of the hub's epoch. -/
def KmpSound (h : Hub) (src : Nat) (p : List Byte) : Prop :=
  40 ≤ p.length ∧
    p.drop (p.length - 16) = kmpTag (segKey h) (beBytes 16 src) (beBytes 16 (beNat (linkLocal h))) (p.take (p.length - 16)) ∧
    kmpWellFormed p = true ∧ numAt p 4 4 = h.mg.epoch

/-- The hub that counted a frame for it. -/
def frameCounted (h : Hub) : Hub := setOdNum h OD.rxFrames 8 ((odNum h OD.rxFrames + 1) % 2 ^ 64)

/-- What a payload with a sound tag and form asks for, by its type. -/
def kmpTyped (h : Hub) (key : List Byte) (own src : Nat) (p : List Byte) (idle : Option Nat) : Hub :=
  match numAt p 1 1 with
  | 1 => kmpRequest h key own src p idle
  | 2 => kmpRequest h key own src p idle
  | 5 => notifyAck h src (numAt p 8 4) (numAt p 4 4)
  | _ => h

section
variable {h : Hub} {src own : Nat} {key p : List Byte} {idle : Option Nat}

theorem fieldUp_frameCounted : fieldUp (frameCounted h) = fieldUp h := by
  have hk : tget (frameCounted h).od OD.segmentKey = tget h.od OD.segmentKey := tget_tset_ne _ _ (by decide)
  rw [fieldUp, hk]
  rfl

theorem kmpRx_sound (hon : fieldOn h = true) (hup : fieldUp h = true) (hl : isLinkLocal src = true) (hp : KmpSound h src p) :
    kmpRx h src (beNat (linkLocal h)) p idle = kmpTyped (frameCounted h) (segKey h) (beNat (linkLocal h)) src p idle := by
  obtain ⟨hlen, ht, hw, -⟩ := hp
  have hup' : fieldUp (setOdNum h OD.rxFrames 8 ((odNum h OD.rxFrames + 1) % 2 ^ 64)) = true := fieldUp_frameCounted.trans hup
  simp only [kmpRx, hon, hup', hl, ht, hw, Nat.not_lt.mpr hlen, bne_self_eq_false, decide_false, Bool.not_true, Bool.or_self, Bool.false_eq_true,
    if_false]
  rfl

/-- A request of a known peer with a number above its last is applied. -/
theorem kmpRequest_fresh {x : KmpPeer} (he : numAt p 4 4 = h.mg.epoch) (hx : (h.mg.ctl.peers.find? (·.addr == src)) = some x)
    (hq : x.seq < numAt p 8 4) : kmpRequest h key own src p idle = kmpApply h key own src p := by
  simp only [kmpRequest, he, hx, hq, bne_self_eq_false, Bool.false_eq_true, if_false, if_true]

theorem kmpTyped_request (ht : numAt p 1 1 = 1 ∨ numAt p 1 1 = 2) : kmpTyped h key own src p idle = kmpRequest h key own src p idle := by
  rcases ht with ht | ht <;> simp only [kmpTyped, ht]

theorem kmpTyped_notifyAck (ht : numAt p 1 1 = 5) (he : numAt p 4 4 = h.mg.epoch) : kmpTyped h key own src p idle =
    { h with notifies := dropIf h.notifies fun n => n.seq == numAt p 8 4 && n.dest == src } := by
  rw [kmpTyped, ht]
  exact if_neg (by simp [he])

end

/-! ### The type and the number of a payload (R474) -/

section
variable {typ flags ep q i u o n : Nat} {v tag : List Byte}

theorem kmpPayload_type (ht : typ < 256) : numAt (kmpPayload typ flags ep q i u o n v tag) 1 1 = typ := by
  simp [kmpPayload, numAt, sliceB, leNat, Nat.mod_eq_of_lt ht]

theorem kmpPayload_seq (hq : q < 2 ^ 32) : numAt (kmpPayload typ flags ep q i u o n v tag) 8 4 = q := by
  have hb : sliceB (kmpPayload typ flags ep q i u o n v tag) 8 4 = leBytes 4 q := by
    simp [kmpPayload, sliceB, leBytes, List.range_succ]
  rw [numAt, hb, leNat_leBytes, Nat.mod_eq_of_lt hq]

end

/-! ### The sideband (R481) -/

section
variable {h : Hub} {k off : Nat}

theorem romAnswers_fieldOn (hf : fieldOn h = true) : romAnswers h = false := by
  simp only [fieldOn, Bool.and_eq_true, Bool.not_eq_true'] at hf
  simp [romAnswers, hf.1]

theorem sbRead_good {c : Nat} {v : List Byte} {t : Hub} (hf : fieldOn h = true) (hb : h.mg.ctl.sbBad = false)
    (hr : dictRead h 3 0 k off 32 = (c, v, t)) : sbRead_ h k off true = emit t .sbAnswer 0 [c, v.length] v := by
  simp only [sbRead_, romAnswers_fieldOn hf, hf, hb, hr, Bool.not_true, Bool.or_self, Bool.false_eq_true, if_false]

end

section
variable {s : State} {c : Instr} {src : Nat} {p : List Byte} {idle : Option Nat}

/-- A request whose number is above its peer's last completes with its application. -/
theorem kmpRequest_does {x : KmpPeer} (he : exec c s = act s fun h => kmpRx h src (beNat (linkLocal s.hub)) p idle)
    (hon : fieldOn s.hub = true) (hup : fieldUp s.hub = true) (hl : isLinkLocal src = true) (ht : numAt p 1 1 = 1 ∨ numAt p 1 1 = 2)
    (hp : KmpSound s.hub src p) (hx : (s.hub.mg.ctl.peers.find? (·.addr == src)) = some x) (hq : x.seq < numAt p 8 4) :
    Does c s (kmpApply (frameCounted s.hub) (segKey s.hub) (beNat (linkLocal s.hub)) src p) := by
  refine .of_act he ((kmpRx_sound hon hup hl hp).trans ((kmpTyped_request ht).trans ?_))
  obtain ⟨-, -, -, hepoch⟩ := hp
  exact kmpRequest_fresh hepoch hx hq

theorem kmpNotifyAck_does (he : exec c s = act s fun h => kmpRx h src (beNat (linkLocal s.hub)) p idle)
    (hon : fieldOn s.hub = true) (hup : fieldUp s.hub = true) (hl : isLinkLocal src = true) (ht : numAt p 1 1 = 5) (hp : KmpSound s.hub src p) :
    Does c s { frameCounted s.hub with notifies := dropIf (frameCounted s.hub).notifies fun n => n.seq == numAt p 8 4 && n.dest == src } := by
  refine .of_act he ((kmpRx_sound hon hup hl hp).trans ?_)
  obtain ⟨-, -, -, hepoch⟩ := hp
  exact kmpTyped_notifyAck ht hepoch

end

/-- Settles O57: each action is the write of its entry on its path. A field peer's answer names the code and the entry (log entry 59). -/
theorem dictionaryCommands : Obligations.DictionaryCommands := by
  refine ⟨fun s peer hu hc hd => ?_, fun s i u n o b hu => ⟨?_, ?_, ?_⟩, fun s src ep q i u o n v tag idle x hon hup hl => ?_,
    fun s i u o b hf => ⟨fun h1 h32 c t hw => ?_, fun h1 h32 => ?_, fun c v t hb hr => ?_⟩⟩
  · intro od
    have row {k : Nat} {b : List Byte} {i : Nat → Nat → Instr} (hi : ∀ path, exec (i path peer) s = odRow s path peer k b) : od k b i :=
      odRow_paths hu hc hd hi
    clear_value od
    exact ⟨fun v => row fun p => exec_lcScrap s p peer v, fun b => row fun p => exec_attestNonce s p peer b,
      fun b => row fun p => exec_dbgResponse s p peer b, fun v => row fun p => exec_opdbg s p peer v,
      fun r hr => ⟨row fun p => (exec_bindLoad s p peer r).trans (if_pos hr), row fun p => (exec_bindAbort s p peer r).trans (if_pos hr)⟩,
      fun b => row fun p => exec_expertProof s p peer b, row fun p => exec_expertClose s p peer, fun b => row fun p => exec_overlaySwitch s p peer b,
      row fun p => exec_ovlCreate s p peer, row fun p => exec_ovlDelete s p peer, row fun p => exec_ovlPut s p peer,
      row fun p => exec_ovlRemove s p peer, row fun p => exec_ovlClear s p peer, fun v => row fun p => exec_storeCmd s p peer v,
      fun v => row fun p => exec_wakeReq s p peer v, row fun p => exec_dbgMemRead s p peer, row fun p => exec_fwuBegin s p peer,
      fun b => row fun p => exec_fwuData s p peer b, row fun p => exec_fwuEnd s p peer, row fun p => exec_fwuAbort s p peer,
      row fun p => exec_fwuActivate s p peer, row fun p => exec_fwuConfirm s p peer, row fun p => exec_fwuRollback s p peer,
      row fun p => exec_fwuDeleteGuest s p peer⟩
  · exact .of_ctlReg (exec_mbxRead s i u n o) hu rfl
  · exact .of_ctlReg (exec_mbxWrite s i u b) hu rfl
  · exact .of_ctlReg (exec_mbxDescribe s i u) hu rfl
  · refine ⟨fun ⟨hg, hx, hq⟩ => ?_, fun ⟨hg, hx, hq⟩ => ?_, fun ⟨hg, hx, hq⟩ => ?_, fun hg hep hq => ?_⟩
    · exact kmpRequest_does (exec_kmpRead ..) hon hup hl (.inl (kmpPayload_type (by decide))) hg hx hq
    · exact kmpRequest_does (exec_kmpDescribe ..) hon hup hl (.inl (kmpPayload_type (by decide))) hg hx hq
    · exact kmpRequest_does (exec_kmpWrite ..) hon hup hl (.inr (kmpPayload_type (by decide))) hg hx hq
    · have hack := kmpNotifyAck_does (exec_kmpNotifyAck s src _ ep q tag) hon hup hl (kmpPayload_type (by decide)) hg
      rwa [kmpPayload_seq hq] at hack
  · exact .of_actUnit (exec_sbWrite s i u b true) (by simp [inRange, h1, h32]) (sbWrite_good hf hw)
  · exact .of_actUnit (exec_sbWrite s i u b false) (by simp [inRange, h1, h32]) ((if_neg (by simp [hf])).trans (if_pos rfl))
  · exact .of_act (exec_sbRead s i u o true) (sbRead_good hf hb hr)

end Sys2Proof.Machine
end

section
/-!
Proofs of the statements of 18_security_lifecycle.md and 19_management.md on management, security and firmware events (R436 to R480, R532).
-/
namespace Sys2Proof.Machine

/-! ### Nonces (R444, R465) -/

section
variable {h : Hub} {k peer n : Nat}

/-- No variant lacks the entries of the two nonces. -/
theorem entry?_nonce (hk : k = OD.expertNonce ∨ k = OD.dbgNonce) : ∃ r, entry? h k = some r := by
  have hrow : (odRow? k).isSome = true := by rcases hk with rfl | rfl <;> decide +kernel
  have hon : fusedEntry h.variant k = false := by rcases hk with rfl | rfl <;> rfl
  rw [entry?, hon]
  exact Option.isSome_iff_exists.mp hrow

theorem dictRead_expertNonce : dictRead h 1 peer OD.expertNonce 0 n = (0, (expertNonce h 1 peer).1.take n, (expertNonce h 1 peer).2) := by
  obtain ⟨r, hr⟩ := entry?_nonce (h := h) (.inl rfl)
  simp [dictRead, hr, liveValue]

theorem dictRead_dbgNonce : dictRead h 1 peer OD.dbgNonce 0 n = (0, (dbgNonce h).1.take n, (dbgNonce h).2) := by
  obtain ⟨r, hr⟩ := entry?_nonce (h := h) (.inr rfl)
  simp [dictRead, hr, liveValue, show OD.dbgNonce ≠ OD.expertNonce by decide]

theorem odRead_field {c : Nat} {b : List Byte} {t : Hub} (hu : ctlUp h = true) (hr : dictRead h 1 peer k 0 n = (c, b, t)) :
    odRead h 1 peer k n = emit t .kmpResponse peer [c, k] b := by
  simp only [odRead, hu, hr, Bool.not_true, Bool.false_eq_true, if_false]

theorem odRead_mailbox (hu : ctlUp h = true) : odRead h 2 peer k n = mbxRequest h 1 k n 0 [] := by
  simp only [odRead, hu, Bool.not_true, Bool.false_eq_true, if_false]

end

/-! ### The store, the attestation record, deep debug and images (R461, R436, R445, R532) -/

section
variable {h : Hub} {n : Nat} {b : List Byte}

theorem tryCommit_pending (hu : ctlUp h = true) (hd : h.mg.ctl.dirty = true) {ok again : Bool} (hs : h.mg.ctl.storeOk = !again) :
    tryCommit h ok again = if ok then commitStore h else commitFails h :=
  if_neg (by simp [hu, hd, hs])

theorem attestReady_nonce {n : List Byte} (hu : ctlUp h = true) (hn : h.mg.ctl.attNonce = some n) (hc : h.mg.cells ≠ 0) : attestReady h =
    (let k := setCtl h { h.mg.ctl with attNonce := none }
     setOdBytes k OD.attest (attestBody k ++ sliceB (Config.attestSign (n ++ attestBody k)) 0 96)) := by
  simp only [attestReady, hn, hu, Bool.not_true, Bool.false_eq_true, if_false]
  exact if_neg hc

theorem dbgVerify_waits {n : List Byte} (hu : ctlUp h = true) (hw : h.mg.ctl.dbgWait = some (n, b)) : dbgVerify h =
    (let k := setCtl h { h.mg.ctl with dbgWait := none }
     if Config.ecdsaOk Config.debugKey (Config.sha384 (n ++ leBytes 8 (Config.deviceId % 2 ^ 64) ++ [2])) b then
       deliverNotice (setCtl k { k.mg.ctl with dbgOpen := true }) 4 0
     else setCtl k { k.mg.ctl with dbgFails := Nat.min 8 (h.mg.ctl.dbgFails + 1) }) := by
  simp only [dbgVerify, hw, hu, Bool.not_true, Bool.false_eq_true, if_false]

theorem eraseDone_erasing (hu : ctlUp h = true) (hs : h.mg.fwu.state = 1) : eraseDone h = setFwu h { h.mg.fwu with state := 2 } :=
  if_pos (by simp [hu, hs])

theorem autoConfirm_trial (hu : ctlUp h = true) (ha : odNum h OD.autoConfirmS ≠ 0) (hn : slotInState h 3 = some n) :
    autoConfirm h = confirmSlot h n := by
  rw [autoConfirm, if_pos (by simp [hu, ha]), fwuConfirm, hn]

/-! ### The field network (R471 to R480) -/

theorem fieldFrame_on {src dst : Nat} {p : List Byte} {idle : Option Nat} (hf : fieldOn h = true) :
    fieldFrame h 0 src dst p idle = countField h OD.fcsErr ∧ fieldFrame h 1 src dst p idle = countField h OD.rxEr ∧
    fieldFrame h 2 src dst p idle = countField (frameCounted h) OD.rxOther ∧ fieldFrame h 3 src dst p idle = frameCounted h ∧
    fieldFrame h 4 src dst p idle = kmpRx h src dst p idle := by
  simp only [fieldFrame, hf, Bool.not_true, Bool.false_eq_true, if_false, frameCounted, and_self]

theorem txCollision_on {l a : Bool} (hf : fieldOn h = true) : txCollision h l a =
    (let k := countField h OD.collisions
     let k := if l then countField k OD.lateColl else k
     if a then countField k OD.txAbort else k) := if_neg (by simp [hf])

theorem beaconLoss_on (hf : fieldOn h = true) (hp : h.mg.ctl.plca = true) :
    beaconLoss h = countField (setCtl h { h.mg.ctl with plca := false }) OD.beaconLoss := if_pos (by simp [hf, hp])

theorem beaconReturn_on (hf : fieldOn h = true) (hp : odOn h OD.plcaEn = true) :
    beaconReturn h = setCtl h { h.mg.ctl with plca := true } := if_pos (by simp [hf, hp])

theorem notifyResend_due {m : NotifyOut} (hm : (h.notifies.find? fun m => m.seq == n && m.sends != 0) = some m) (hf : fieldOn h = true)
    (hu : fieldUp h = true) : notifyResend h n = if 6 ≤ m.sends then countField { h with notifies := h.notifies.erase m } OD.notifyDropped
      else sendNotify (countField { h with notifies := mapIf h.notifies (· == m) fun m => { m with sends := m.sends + 1 } } OD.notifyResent) m := by
  rw [notifyResend, hm]
  exact if_neg (by simp [hf, hu])

/-! ### The life cycle and the binding loader (R436, R452) -/

theorem lcJtag_advances (hon : h.pwr.on = true) (hd : h.dead = 0) (hg : (n = 1 ∧ lcState h = 0) ∨ (n = 2 ∧ lcState h = 1)) : lcJtag h n =
    afterAnswer (emit (lcAdvance h).2 .jtagAnswer 0 [odNum (lcAdvance h).2 OD.lcResult]) := by
  have hok : ((n == 1 && lcState h == 0) || (n == 2 && lcState h == 1)) = true := by simpa using hg
  simp only [lcJtag, hon, hd, hok, Bool.not_true, bne_self_eq_false, Bool.or_self, Bool.false_eq_true, if_false, if_true]

theorem loadUnwrap_good {k : Hub} {bad : List Nat} {w key : List Byte} (hl : loading h n 1 = true) (hc : h.ctlDown = false)
    (hv : vaRead h (loadCtx h n) (odNum h (OD.bindSrcVa n)) 4096 (loaderWho n) = (some (b, bad), k)) (hp : packageOk k n b = true)
    (ho : ownRecord b = some w) (hk : Config.unwrapKey b w = some key) : loadUnwrap h n =
      setBind k n { Machine.bind k n with stage := 2, header := sliceB b 0 (headerLen b), plain := numAt b 8 8, key := key, chunk := 0 } := by
  simp only [loadUnwrap, hl, hc, hv, hp, ho, hk, Bool.not_true, Bool.or_self, Bool.false_eq_true, if_false]

end

section
variable {s : State}

/-- What needs the control half. -/
theorem controlEvents_complete (hu : ctlUp s.hub = true) :
    Does .mbxNotePop s (notePop s.hub) ∧ Does .trcClear s (trcClear s.hub) ∧
    (∀ peer, Does (.expertNonce 1 peer) s
        (emit (expertNonce s.hub 1 peer).2 .kmpResponse peer [0, OD.expertNonce] ((expertNonce s.hub 1 peer).1.take 32)) ∧
      Does (.expertNonce 2 peer) s (mbxRequest s.hub 1 OD.expertNonce 32 0 []) ∧
      Does (.dbgNonce 1 peer) s (emit (dbgNonce s.hub).2 .kmpResponse peer [0, OD.dbgNonce] ((dbgNonce s.hub).1.take 48)) ∧
      (lcState s.hub ≠ 3 → Does (.dbgNonce 0 peer) s (emit (dbgNonce s.hub).2 .jtagAnswer 0 [] (dbgNonce s.hub).1))) := by
  refine ⟨.of_ctlReg (exec_mbxNotePop s) hu rfl, .of_ctlReg (exec_trcClear s) hu rfl, fun peer => ⟨?_, ?_, ?_, fun hl => ?_⟩⟩
  · exact .of_actUnit (exec_expertNonce s 1 peer) rfl (odRead_field hu dictRead_expertNonce)
  · exact .of_actUnit (exec_expertNonce s 2 peer) rfl (odRead_mailbox hu)
  · exact .of_actUnit (exec_dbgNonce s 1 peer) rfl ((if_pos rfl).trans (odRead_field hu dictRead_dbgNonce))
  · exact .of_actUnit (exec_dbgNonce s 0 peer) rfl ((if_neg (by decide)).trans (if_pos (by simp [hu, hl])))

end

/-- Settles O58: each event meets the branch of its hypotheses. A field peer's answers name the code and the entry (log entry 59); frames
are counted as received only (log entry 54); a kept response is dropped when it is 10 s old (log entry 55). -/
theorem managementCommands : Obligations.ManagementCommands := by
  refine ⟨fun s hu => ?_, fun s hf => ?_, fun s peer q => ?_, fun s path peer hp => ⟨fun hx => ?_, ?_⟩, fun s g hon hd hg => ?_,
    fun s r hr h64 => ⟨fun b x k w key hl hc hv hp ho hk => ?_, fun hl => ?_⟩⟩
  · obtain ⟨hpop, hclear, hnonce⟩ := controlEvents_complete hu
    refine ⟨hpop, hclear, hnonce, fun hd => ⟨fun hs => ⟨?_, ?_⟩, fun hs => ⟨?_, ?_⟩⟩, fun n hn hc => ?_, fun n b hw => ⟨fun hok => ?_, fun hok => ?_⟩,
      fun hs => ?_, fun n ha hn => ?_⟩
    · exact .of_act (exec_storeCommit s true) (tryCommit_pending hu hd hs)
    · exact .of_act (exec_storeCommit s false) (tryCommit_pending hu hd hs)
    · exact .of_act (exec_storeCommitRetry s true) (tryCommit_pending hu hd hs)
    · exact .of_act (exec_storeCommitRetry s false) (tryCommit_pending hu hd hs)
    · exact .of_act (exec_attestRecordReady s) (attestReady_nonce hu hn hc)
    · exact .of_act (exec_dbgVerifyDone s) ((dbgVerify_waits hu hw).trans (if_pos hok))
    · exact .of_act (exec_dbgVerifyDone s) ((dbgVerify_waits hu hw).trans (if_neg (Bool.not_eq_true _ ▸ hok)))
    · exact .of_act (exec_fwuEraseDone s) (eraseDone_erasing hu hs)
    · exact .of_act (exec_fwuAutoConfirm s) (autoConfirm_trial hu ha hn)
  · refine ⟨fun src dst p idle => ?_, fun l a => ?_, fun hp => ?_, fun hp => ?_, fun hd u => ?_, fun a ha => ?_, fun q n hn hu => ⟨fun h6 => ?_, fun h6 => ?_⟩⟩
    · obtain ⟨hfcs, her, hother, hrx, hkmp⟩ := fieldFrame_on (src := src) (dst := dst) (p := p) (idle := idle) hf
      exact ⟨.of_actUnit (exec_fieldFrameRx s 0 src dst p idle) rfl hfcs, .of_actUnit (exec_fieldFrameRx s 1 src dst p idle) rfl her,
        .of_actUnit (exec_fieldFrameRx s 2 src dst p idle) rfl hother, .of_actUnit (exec_fieldFrameRx s 3 src dst p idle) rfl hrx,
        .of_actUnit (exec_fieldFrameRx s 4 src dst p idle) rfl hkmp⟩
    · exact .of_act (exec_fieldTxCollision s l a) (txCollision_on hf)
    · exact .of_act (exec_plcaBeaconLoss s) (beaconLoss_on hf hp)
    · exact .of_act (exec_plcaBeaconReturn s) (beaconReturn_on hf hp)
    · exact .of_act (exec_dadComplete s u) rfl
    · exact .of_actUnit (exec_dynamicAddressAssignment s a) (decide_eq_true ha) (if_pos hf)
    · exact .of_act (exec_notifyResend s q) ((notifyResend_due hn hf hu).trans (if_neg (Nat.not_le.mpr h6)))
    · exact .of_act (exec_notifyResend s q) ((notifyResend_due hn hf hu).trans (if_pos h6))
  · exact .of_act (exec_kmpResponseExpiry s peer q) rfl
  · exact .of_actUnit (exec_expertIdleTimeout s path peer) (by rcases hp with rfl | rfl <;> rfl) (if_pos hx)
  · exact .of_actUnit (exec_proofLockoutEnd s path) (by rcases hp with rfl | rfl <;> rfl) rfl
  · exact .of_act (exec_lcJtagTransition s g) (lcJtag_advances hon hd hg)
  · exact .of_inData (exec_bindUnwrapDone s r) (decide_eq_true h64) hr (loadUnwrap_good hl hc hv hp ho hk)
  · exact .of_inData (exec_bindChunk s r) (decide_eq_true h64) hr rfl

end Sys2Proof.Machine
end
